-- ==== Sys2Proof/Word.lean ====
section
/-! DEFINITION. The word types of the TL9128 block and the plainest arithmetic on them. -/

namespace Sys2Proof

/-- One byte of the cabinet or of a host structure. -/
abbrev Byte := BitVec 8

/-- A Loop Engine data word (R112), 24 bits. -/
abbrev W24 := BitVec 24

/-- A BAR0 register word (R765) and a BT32 stamp (R8). -/
abbrev W32 := BitVec 32

/-- A 64-bit quantity: backbone time, an instruction word, a Q48.16 or a Q32.32 value. -/
abbrev W64 := BitVec 64

/-- An accumulator's 56 bits (R113). -/
abbrev W56 := BitVec 56

/-- The 16 bytes of a completion's payload, byte `i` at bits `[8 i + 7 : 8 i]` (R4, R629). -/
abbrev Payload := BitVec 128

/-- The bits `[hi:lo]` of a word as a natural number. -/
def bitsOf {w : Nat} (v : BitVec w) (hi lo : Nat) : Nat := (v.toNat >>> lo) % 2 ^ (hi + 1 - lo)

/-- One bit of a word. -/
def bitOf {w : Nat} (v : BitVec w) (i : Nat) : Bool := v.getLsbD i

/-- The bits `[hi:lo]` of a word as a signed number. -/
def sbitsOf {w : Nat} (v : BitVec w) (hi lo : Nat) : Int :=
  let u := bitsOf v hi lo
  if u < 2 ^ (hi - lo) then (u : Int) else (u : Int) - 2 ^ (hi + 1 - lo)

/-- A Bool as one bit of a number. -/
def b2n (b : Bool) : Nat := if b then 1 else 0

end Sys2Proof
end

