-- ==== Sys2Proof/Syntax.lean ====
section
/-! DEFINITION. The commands that the block takes (one constructor per row of the opcode table)
and the types of their operands. -/

namespace Sys2Proof

/-- A descriptor's fields but its opcode (R621), and the submission ring it was fetched from.
Byte `16 + i` of the descriptor lies at bits `[8 i + 7 : 8 i]` of `payload`. -/
structure Desc where
  sq : BitVec 6 := 0
  flags : BitVec 8 := 0
  tag : BitVec 16 := 0
  target : BitVec 32 := 0
  execAt : BitVec 32 := 0
  aux : BitVec 32 := 0
  payload : BitVec 384 := 0
  deriving DecidableEq, Repr

/-- A descriptor with its opcode, as the ring holds it (R621). -/
structure RawDesc where
  op : BitVec 8
  d : Desc
  deriving DecidableEq, Repr

/-- What the SECDED decoder of a memory says of one read (R154, R156). -/
inductive Ecc where
  | ok
  | corrected
  | uncorrectable
  deriving DecidableEq, Repr

/-- The circumstances of one word issue: the engine, the bits that the word holds outside the
slot that the row names, and what the error decoders say of the word and of its two reads. -/
structure Issue where
  e : Fin 24
  other : BitVec 64 := 0
  im : Ecc := .ok
  rdA : Ecc := .ok
  rdB : Ecc := .ok
  deriving DecidableEq, Repr

/-- The slots of an instruction word (R160). -/
inductive Slot where
  | word
  | cmac
  | mem
  | alu
  deriving DecidableEq, Repr

/-- The address modes of R129 (`[Pn]` is `[Pn+#0]`). -/
inductive AddrMode where
  | disp (p : BitVec 3) (d : BitVec 10)
  | post (p : BitVec 3)
  | abs (a : BitVec 14)
  deriving DecidableEq, Repr

/-- Access B of a dual-access word (R174). -/
inductive DualB where
  | none
  | ld (d : BitVec 5)
  | st (x : BitVec 5)
  | acc (m : BitVec 2) (k : BitVec 2)
  deriving DecidableEq, Repr

/-- A Spaos Link cell: its header fields (R415) and its data octets (R417), without the two
check sums. Octet `i` of PAYLOAD lies at bits `[8 i + 7 : 8 i]`. -/
structure Cell where
  typ : BitVec 8
  node : BitVec 8 := 0
  axs : BitVec 4 := 0
  flags : BitVec 4 := 0
  seq : BitVec 16 := 0
  claim : BitVec 8 := 0
  sub : BitVec 8 := 0
  payload : BitVec 192 := 0
  fbAge : BitVec 16 := 0
  ta : BitVec 16 := 0
  deriving DecidableEq, Repr

/-- A cell as a receiver finds it: with the check sums that arrived (R416, R418). -/
structure RxCell where
  cell : Cell
  hcrc : BitVec 8
  crc : BitVec 32
  deriving DecidableEq, Repr

/-- A block of the line (R411 to R413): its sync header, and its payload with octet `k` at bits
`[8 k + 7 : 8 k]`. -/
structure Block where
  sync : BitVec 2
  payload : BitVec 64
  deriving DecidableEq, Repr

/-- A run of blocks that a port receives. -/
structure RxBlocks where
  port : Fin 5
  blocks : List Block
  deriving DecidableEq, Repr

/-- What a port's block lock, its module's LOS ball and its high-BER monitor show (R808). -/
structure LineState where
  lock : Bool
  los : Bool
  hiBer : Bool
  deriving DecidableEq, Repr

/-- A channel's comparator and the raw sum of its sinc2 filter, of ±256 (R278). -/
structure CompSum where
  comp : Fin 3
  y : Int
  deriving DecidableEq, Repr

/-- What a node table tells of a node (R502, R539). -/
structure NodeInfo where
  id : BitVec 32
  caps : BitVec 32
  prep : BitVec 32
  fwd : BitVec 8
  deriving DecidableEq, Repr

/-- The node table of a ring, as the head of a twin pair hands it to the tail (R539). -/
structure NodeTable where
  ring : Fin 2
  /-- The head has found the ring closed; else it reaches nodes 1 to `max` and `min` to the last one. -/
  closed : Bool
  max : BitVec 8
  min : BitVec 8
  nodes : List NodeInfo
  deriving DecidableEq, Repr

/-- What a heartbeat brings: its cell, and the node tables that the partner has handed over since the last
one (R539). -/
structure TwinHeart where
  rx : RxCell
  tables : List NodeTable
  deriving DecidableEq, Repr

/-- A usable PTP message of the selected master, or of the link partner (R528 to R531). A timestamp is
48 bits of seconds over 32 bits of nanoseconds; `corr` is correctionField, ns × 2^16. -/
inductive PtpMsg where
  /-- An Announce: clockIdentity, clockClass, currentUtcOffset, LI61, LI59 and UTC_VALID, and
  whether the best master clock algorithm chooses it. -/
  | announce (gm : BitVec 64) (cls : BitVec 8) (utc : BitVec 16) (leap : BitVec 3) (best : Bool)
  /-- A Sync with its originTimestamp, and whether a Follow_Up carries the precise one. -/
  | sync (seq : BitVec 16) (origin : BitVec 80) (corr : BitVec 64) (twoStep : Bool)
  | followUp (seq : BitVec 16) (origin : BitVec 80) (corr : BitVec 64)
  /-- A Delay_Resp with its receiveTimestamp. -/
  | delayResp (seq : BitVec 16) (recv : BitVec 80) (corr : BitVec 64)
  | pdelayReq (seq : BitVec 16)
  /-- A Pdelay_Resp with its requestReceiptTimestamp, and whether a follow-up carries its
  responseOriginTimestamp. -/
  | pdelayResp (seq : BitVec 16) (recv : BitVec 80) (corr : BitVec 64) (twoStep : Bool)
  | pdelayFollow (seq : BitVec 16) (origin : BitVec 80) (corr : BitVec 64)
  /-- Any other usable message. -/
  | other
  deriving DecidableEq, Repr

/-- A PCI Express configuration request (R607 to R609). -/
inductive CfgReq where
  | read (off : BitVec 12)
  /-- A write of the MSI-X message control: Enable and Function Mask. -/
  | msix (enable fmask : Bool)
  /-- Any other write. -/
  | write (off : BitVec 12) (v : BitVec 32)
  deriving DecidableEq, Repr

/-- The commands of the block: one constructor per row of the opcode table (R762 and the
chapters' operations and events). -/
inductive Instr where
  /-- CYCLE_RUN (R14). The word written: OVR_LIMIT, and RUN = 1. -/
  | cycleRun (limit : BitVec 4)
  /-- CYCLE_STOP (R15). The word written: OVR_LIMIT, and RUN = 0. -/
  | cycleStop (limit : BitVec 4)
  /-- CYCLE_END (R15). Of the stop that is pending. -/
  | cycleEnd
  /-- HINGE_POINT (R27). The next T0. -/
  | hingePoint
  /-- COMMIT_SET_CHECK (R767). Of the coming hinge point. -/
  | commitSetCheck
  /-- SAMPLE_INSTANT (R31). The levels of the near-axis balls (`16 axis + line`) and of GIn (`128 + n`) that acquisition takes. -/
  | sampleInstant (lines : List (Nat × Bool))
  /-- CARRIER_TRAIN (R34). Of this cycle. -/
  | carrierTrain
  /-- UP_CELL_ARRIVAL (R36). The cell that arrives on port `p`. -/
  | upCellArrival (p : Fin 4) (rx : RxCell)
  /-- DEADLINE_ABORT (R42). Of this cycle. -/
  | deadlineAbort
  /-- DRAIN_COMPLETE (R48). Of this cycle. -/
  | drainComplete
  /-- SCRUB_GRANT (R51). The bank, and what the decoder finds in which word of the unit. -/
  | scrubGrant (bank : Fin 8) (ecc : Ecc) (w : Fin 16)
  /-- DRAWER_MIGRATION (R83). The next planned drawer move, or the moves of a whole keep set. -/
  | drawerMigration
  /-- STAGE_DISPATCH (R76). The first dispatch that is due; `ecc`: a word found uncorrectable while its drawer moves (R81). -/
  | stageDispatch (ecc : Option (Fin 1024))
  /-- STAGE_COMPLETE (R138). The stage that runs on the engine completes. -/
  | stageComplete (e : Fin 24)
  /-- SHELF_CREDIT (R88). Every stage that holds its credit now becomes ready. -/
  | shelfCredit
  /-- FLOW_RELEASE (R90). The flow. -/
  | flowRelease (f : BitVec 6)
  /-- CTX_CANCEL (R91). The descriptor. -/
  | ctxCancel (d : Desc)
  /-- PLACEMENT_WINDOW (R82). The moves (context, engine) that placement chooses among those R82 allows, a keep set that it moves whole, and a cluster that it empties. -/
  | placementWindow (plan : List (Nat × Nat)) (set : List (Nat × Nat)) (empty : Option (Fin 4))
  /-- DISP_TOK_LATCH (R74). A write of 1 to DISP_TOK_LATCH. -/
  | dispTokLatch
  /-- LE_NOP (R161). The named slot of the word holds 0. -/
  | leNop (io : Issue) (slot : Slot)
  /-- CLRA (R164). `CLRA Ak`. -/
  | clra (io : Issue) (k : BitVec 2)
  /-- MPY (R164). `MPY Ak,X,Y`; `int` selects integers, `neg` negates. -/
  | mpy (io : Issue) (int : Bool) (neg : Bool) (k : BitVec 2) (x : BitVec 5) (y : BitVec 5)
  /-- MAC (R164). `MAC Ak,X,Y`. -/
  | mac (io : Issue) (int : Bool) (neg : Bool) (k : BitVec 2) (x : BitVec 5) (y : BitVec 5)
  /-- MPY2 (R164). `MPY2 Ak,X,Y`. -/
  | mpy2 (io : Issue) (int : Bool) (neg : Bool) (k : BitVec 2) (x : BitVec 5) (y : BitVec 5)
  /-- MAC2 (R164). `MAC2 Ak,X,Y`. -/
  | mac2 (io : Issue) (int : Bool) (neg : Bool) (k : BitVec 2) (x : BitVec 5) (y : BitVec 5)
  /-- CMPY (R118). `CMPY Ak,X,Y`. -/
  | cmpy (io : Issue) (int : Bool) (neg : Bool) (k : BitVec 2) (x : BitVec 5) (y : BitVec 5)
  /-- CMAC (R118). `CMAC Ak,X,Y`. -/
  | cmac (io : Issue) (int : Bool) (neg : Bool) (k : BitVec 2) (x : BitVec 5) (y : BitVec 5)
  /-- CMPY_C (R118). `CMPY.C Ak,X,Y`. -/
  | cmpyC (io : Issue) (int : Bool) (neg : Bool) (k : BitVec 2) (x : BitVec 5) (y : BitVec 5)
  /-- CMAC_C (R118). `CMAC.C Ak,X,Y`. -/
  | cmacC (io : Issue) (int : Bool) (neg : Bool) (k : BitVec 2) (x : BitVec 5) (y : BitVec 5)
  /-- ADDA (R166). `ADDA Ak,Aj`. -/
  | adda (io : Issue) (neg : Bool) (k : BitVec 2) (j : BitVec 2)
  /-- ASRA (R167). `ASRA Ak,#s`. -/
  | asra (io : Issue) (k : BitVec 2) (sh : BitVec 5)
  /-- ASLA (R167). `ASLA Ak,#s`. -/
  | asla (io : Issue) (k : BitVec 2) (sh : BitVec 5)
  /-- LDA (R164). `LDA Ak,X`. -/
  | lda (io : Issue) (int : Bool) (neg : Bool) (k : BitVec 2) (x : BitVec 5)
  /-- LD (R171). `LD Dd,[…]`. -/
  | ld (io : Issue) (d : BitVec 5) (am : AddrMode)
  /-- ST (R171). `ST […],Dx`. -/
  | st (io : Issue) (x : BitVec 5) (am : AddrMode)
  /-- ST_ACC (R172). `ST.m […],Ak`. -/
  | stAcc (io : Issue) (m : BitVec 2) (k : BitVec 2) (am : AddrMode)
  /-- LD_PAIR (R173). `LD Dk,Dk+1,[Pn+#d]`. -/
  | ldPair (io : Issue) (k : BitVec 5) (p : BitVec 3) (d : BitVec 10)
  /-- DUAL_ACCESS (R174). Access A loads `ar` through `ap`; access B is `b` through `bp`. -/
  | dualAccess (io : Issue) (ar : BitVec 5) (ap : BitVec 3) (ainc : Bool) (b : DualB) (bp : BitVec 3) (binc : Bool)
  /-- MVO (R176). `MVO OBk,Dx`. -/
  | mvo (io : Issue) (k : BitVec 4) (x : BitVec 5)
  /-- MVO_ACC (R176). `MVO.m OBk,Aa`. -/
  | mvoAcc (io : Issue) (k : BitVec 4) (m : BitVec 2) (a : BitVec 2)
  /-- PUT (R139). `PUT #(k+1)`. -/
  | put (io : Issue) (k : BitVec 4)
  /-- PUTD (R140). `PUTD #(k+1)`. -/
  | putd (io : Issue) (k : BitVec 4)
  /-- XFER_R (R177). `XFER.R Dx,Pn,#(len+1)`. -/
  | xferR (io : Issue) (x : BitVec 5) (n : BitVec 3) (len : BitVec 6)
  /-- XFER_W (R143). `XFER.W Dx,Pn,#(len+1)`. -/
  | xferW (io : Issue) (x : BitVec 5) (n : BitVec 3) (len : BitVec 6)
  /-- XFER_COMPLETE (R142). Engine `e`'s running transfer finishes. -/
  | xferComplete (e : Fin 24)
  /-- ADD (R127). `ADD Dd,Da,Db`. -/
  | add (io : Issue) (d : BitVec 5) (a : BitVec 5) (b : BitVec 5)
  /-- ADC (R127). `ADC Dd,Da,Db`. -/
  | adc (io : Issue) (d : BitVec 5) (a : BitVec 5) (b : BitVec 5)
  /-- SUB (R127). `SUB Dd,Da,Db`. -/
  | sub (io : Issue) (d : BitVec 5) (a : BitVec 5) (b : BitVec 5)
  /-- SBC (R127). `SBC Dd,Da,Db`. -/
  | sbc (io : Issue) (d : BitVec 5) (a : BitVec 5) (b : BitVec 5)
  /-- AND (R181). `AND Dd,Da,Db`. -/
  | and (io : Issue) (d : BitVec 5) (a : BitVec 5) (b : BitVec 5)
  /-- OR (R181). `OR Dd,Da,Db`. -/
  | or (io : Issue) (d : BitVec 5) (a : BitVec 5) (b : BitVec 5)
  /-- XOR (R181). `XOR Dd,Da,Db`. -/
  | xor (io : Issue) (d : BitVec 5) (a : BitVec 5) (b : BitVec 5)
  /-- LSL (R183). `LSL Dd,Da,Db`. -/
  | lsl (io : Issue) (d : BitVec 5) (a : BitVec 5) (b : BitVec 5)
  /-- LSR (R183). `LSR Dd,Da,Db`. -/
  | lsr (io : Issue) (d : BitVec 5) (a : BitVec 5) (b : BitVec 5)
  /-- ASR (R183). `ASR Dd,Da,Db`. -/
  | asr (io : Issue) (d : BitVec 5) (a : BitVec 5) (b : BitVec 5)
  /-- MIN (R181). `MIN Dd,Da,Db`. -/
  | min (io : Issue) (d : BitVec 5) (a : BitVec 5) (b : BitVec 5)
  /-- MAX (R181). `MAX Dd,Da,Db`. -/
  | max (io : Issue) (d : BitVec 5) (a : BitVec 5) (b : BitVec 5)
  /-- ABS (R181). `ABS Dd,Da`. -/
  | abs (io : Issue) (d : BitVec 5) (a : BitVec 5)
  /-- CMP (R181). `CMP Da,Db`. -/
  | cmp (io : Issue) (a : BitVec 5) (b : BitVec 5)
  /-- MOV (R181). `MOV Dd,Da`. -/
  | mov (io : Issue) (d : BitVec 5) (a : BitVec 5)
  /-- ADDI (R181). `ADDI Dd,#s11`. -/
  | addi (io : Issue) (d : BitVec 5) (imm : BitVec 11)
  /-- MOVI (R181). `MOVI Dd,#s11`. -/
  | movi (io : Issue) (d : BitVec 5) (imm : BitVec 11)
  /-- MOVHI (R181). `MOVHI Dd,#s11`. -/
  | movhi (io : Issue) (d : BitVec 5) (imm : BitVec 11)
  /-- ORI (R181). `ORI Dd,#u11`. -/
  | ori (io : Issue) (d : BitVec 5) (imm : BitVec 11)
  /-- LSLI (R181). `LSLI Dd,Da,#u5`. -/
  | lsli (io : Issue) (d : BitVec 5) (a : BitVec 5) (u : BitVec 5)
  /-- LSRI (R181). `LSRI Dd,Da,#u5`. -/
  | lsri (io : Issue) (d : BitVec 5) (a : BitVec 5) (u : BitVec 5)
  /-- ASRI (R181). `ASRI Dd,Da,#u5`. -/
  | asri (io : Issue) (d : BitVec 5) (a : BitVec 5) (u : BitVec 5)
  /-- MVC_TO_CR (R184). `MVC CR,Dx`. -/
  | mvcToCr (io : Issue) (cr : BitVec 6) (x : BitVec 5)
  /-- MVC_FROM_CR (R184). `MVC Dd,CR`. -/
  | mvcFromCr (io : Issue) (d : BitVec 5) (cr : BitVec 6)
  /-- MOVI_CR (R184). `MOVI CR,#s10`. -/
  | moviCr (io : Issue) (cr : BitVec 6) (imm : BitVec 10)
  /-- MOVI_LC (R181). `MOVI LC,#u16`. -/
  | moviLc (io : Issue) (u : BitVec 16)
  /-- MVX_FROM_ACC (R126). `MVX Dd,Ak.p`. -/
  | mvxFromAcc (io : Issue) (d : BitVec 5) (k : BitVec 2) (part : BitVec 2)
  /-- MVX_TO_ACC (R126). `MVX Ak.p,Dx`. -/
  | mvxToAcc (io : Issue) (k : BitVec 2) (part : BitVec 2) (x : BitVec 5)
  /-- MOV_ACC (R172). `MOV.m Dd,Ak`. -/
  | movAcc (io : Issue) (d : BitVec 5) (m : BitVec 2) (k : BitVec 2)
  /-- BR (R135). `BR target`. -/
  | br (io : Issue) (target : BitVec 13)
  /-- BCC (R188). `Bcc target`. -/
  | bcc (io : Issue) (cond : BitVec 3) (target : BitVec 13)
  /-- DBNZ (R136). `DBNZ target`. -/
  | dbnz (io : Issue) (target : BitVec 13)
  /-- BRR (R137). `BRR target`. -/
  | brr (io : Issue) (target : BitVec 13)
  /-- JR (R181). `JR Dx`. -/
  | jr (io : Issue) (x : BitVec 5)
  /-- TEND (R138). `TEND #mask`. -/
  | tend (io : Issue) (mask : BitVec 16)
  /-- RETE (R149). `RETE`. -/
  | rete (io : Issue)
  /-- BRK (R191). `BRK #u16`. -/
  | brk (io : Issue) (u : BitVec 16)
  /-- LDM_SCRUB (R155). The scrubber of engine `e` finds word `a` as `ecc` says. -/
  | ldmScrub (e : Fin 24) (a : BitVec 14) (ecc : Ecc)
  /-- IM_REWRITE (R156). The corrected IM word `a` of engine `e` is rewritten. -/
  | imRewrite (e : Fin 24) (a : BitVec 13)
  /-- LE_EXC_LOG_READ (R159). A read of LE_EXC_LOG_HI. -/
  | leExcLogRead
  /-- QUAD_EDGE (R248). A and B of near axis `n` read `a` and `b`; `z` is the filtered Z line. -/
  | quadEdge (n : Fin 8) (a : Bool) (b : Bool) (z : Bool)
  /-- EDGE_QUARANTINE_EXPIRE (R250). MIN_EDGE has passed since the quarantined edge of near axis `n`. -/
  | edgeQuarantineExpire (n : Fin 8) (z : Bool)
  /-- FB_IDX_ARM (R260). The value written, for the near axis that FB_AXIS_SEL selects. -/
  | fbIdxArm (v : W32)
  /-- FB_CNT_SET (R257). The value written, for the near axis that FB_AXIS_SEL selects. -/
  | fbCntSet (v : W32)
  /-- FB_LATCH (R256). The value written, for the near axis that FB_AXIS_SEL selects. -/
  | fbLatch (v : W32)
  /-- FB_STATUS_CLEAR (R263). The value written, for the near axis that FB_AXIS_SEL selects. -/
  | fbStatusClear (v : W32)
  /-- HALL_ACCEPT (R265). The code that has been stable. -/
  | hallAccept (n : Fin 8) (code : BitVec 3)
  /-- SSI_FRAME_START (R268). `ssdLow`: SSD is low at the first falling edge. -/
  | ssiFrameStart (n : Fin 8) (ssdLow : Bool)
  /-- SSI_FRAME_END (R269). The bits read, and SSD one clock after the last. -/
  | ssiFrameEnd (n : Fin 8) (bits : BitVec 40) (stopHigh : Bool)
  /-- SD_FRAME_READY (R275). The raw sinc3 sums of the channels; a rising edge of the modulator clock lies at BT `edge`. -/
  | sdFrameReady (n : Fin 8) (r0 : Int) (r1 : Int) (r2 : Int) (edge : Int)
  /-- SD_COMP_TRIP (R278). The sinc2 filter of channel `k.comp` gives its raw sum. -/
  | sdCompTrip (n : Fin 8) (k : CompSum)
  /-- MOD_STUCK (R280). The stream of channel `k` is stuck, or changes again. -/
  | modStuck (n : Fin 8) (k : Fin 3) (stuck : Bool)
  /-- LINE_FAULT (R281). EA, EB, EZ or SSD is open or shorted, or is so no more. -/
  | lineFault (n : Fin 8) (line : Fin 4) (short : Bool) (present : Bool)
  /-- DIFF_POLARITY (R282). EZ or SSD rests at the wrong level, or does so no more. -/
  | diffPolarity (n : Fin 8) (ssd : Bool) (present : Bool)
  /-- STEP_EDGE (R284). A filtered rising STEP edge, with the level of DIR. -/
  | stepEdge (n : Fin 8) (dir : Bool)
  /-- PWM_ZERO (R302). The zero of module `m`. -/
  | pwmZero (m : Fin 8)
  /-- PWM_CENTRE (R302). The centre of module `m`. -/
  | pwmCentre (m : Fin 8)
  /-- PWM_SYNC_IN (R306). The pulse of module `k` reaches module `k + 1`. -/
  | pwmSyncIn (k : Fin 7)
  /-- PWM_FAULT_TRIP (R311). The fault balls that their filter finds active; mapped modules trip. -/
  | pwmFaultTrip (flt : BitVec 8)
  /-- PWM_ENABLE (R313). PWM_EN of the selected module is written 1. -/
  | pwmEnable
  /-- PWM_DISABLE (R313). PWM_EN of the selected module is written 0. -/
  | pwmDisable
  /-- PWM_FLT_LATCH_CLEAR (R313). The value written, for the selected module. -/
  | pwmFltLatchClear (v : W32)
  /-- PWM_LATCH (R319). The value written, for the selected module. -/
  | pwmLatch (v : W32)
  /-- DL_CALIBRATION (R317). The replica line of module `m` spans 1 ns, or cannot. -/
  | dlCalibration (m : Fin 8) (ok : Bool)
  /-- AX_ENABLE (R331). -/
  | axEnable (d : Desc)
  /-- AX_MOVE (R334). -/
  | axMove (d : Desc)
  /-- AX_VEL (R337). -/
  | axVel (d : Desc)
  /-- AX_PVT (R339). -/
  | axPvt (d : Desc)
  /-- AX_STEP (R341). -/
  | axStep (d : Desc)
  /-- AX_GEAR (R347). -/
  | axGear (d : Desc)
  /-- AX_CAM (R353). -/
  | axCam (d : Desc)
  /-- AX_STOP (R336). -/
  | axStop (d : Desc)
  /-- GRP_DEFINE (R354). -/
  | grpDefine (d : Desc)
  /-- GRP_LINE (R356). -/
  | grpLine (d : Desc)
  /-- GRP_ARC (R357). -/
  | grpArc (d : Desc)
  /-- GRP_HOLD (R360). -/
  | grpHold (d : Desc)
  /-- GRP_RESUME (R360). -/
  | grpResume (d : Desc)
  /-- GRP_FLUSH (R360). -/
  | grpFlush (d : Desc)
  /-- GRP_POS (R362). -/
  | grpPos (d : Desc)
  /-- EV_ARM (R368). -/
  | evArm (d : Desc)
  /-- EV_DISARM (R363). -/
  | evDisarm (d : Desc)
  /-- CT_LOAD (R350). -/
  | ctLoad (d : Desc)
  /-- CT_COMMIT (R350). -/
  | ctCommit (d : Desc)
  /-- CAM_TABLE_READY (R350). Of a table. -/
  | camTableReady (k : Fin 64)
  /-- VM_SET (R344). -/
  | vmSet (d : Desc)
  /-- EVENT_FIRE (R366). The slot. -/
  | eventFire (k : BitVec 8)
  /-- GO_PULSE_END (R370). Of a slot's pulse. -/
  | goPulseEnd (k : BitVec 8)
  /-- HM_START (R387). -/
  | hmStart (d : Desc)
  /-- HM_SET (R395). -/
  | hmSet (d : Desc)
  /-- LIM_CLEAR (R381). -/
  | limClear (d : Desc)
  /-- AXIS_INPUT_SAMPLE (R378). The raw levels of the inputs of near axis `n`, 1 = at 24 V. -/
  | axisInputSample (n : Fin 8) (limp : Bool) (limn : Bool) (home : Bool)
  /-- WIRE_BREAK (R383). LIMP, LIMN or HOME has a broken wire, or has it no more. -/
  | wireBreak (n : Fin 8) (k : Fin 3) (present : Bool)
  /-- LINK_UP (R479). Port `p` (4: the twin port). -/
  | linkUp (p : Fin 5)
  /-- PORT_LOCK_LOSS (R493). What port `p` shows from now on. -/
  | portLockLoss (p : Fin 5) (l : LineState)
  /-- MODULE_ABSENT (R410). The MODABS ball of port `p`. -/
  | moduleAbsent (p : Fin 5) (absent : Bool)
  /-- SFP_I2C_READ (R410). The word written to LNK_I2C_CTL. -/
  | sfpI2CRead (v : BitVec 32)
  /-- SFP_I2C_WRITE (R410). The word written to LNK_I2C_CTL. -/
  | sfpI2CWrite (v : BitVec 32)
  /-- SFP_I2C_DONE (R410). The cage's answer on port `p`. -/
  | sfpI2CDone (p : Fin 5) (nack : Bool) (data : BitVec 8)
  /-- OWN_CELL_RETURN (R422). The cell that arrives on port `p`. -/
  | ownCellReturn (p : Fin 4) (rx : RxCell)
  /-- CELL_FORWARD (R422). The cell that arrives on port `p`. -/
  | cellForward (p : Fin 4) (rx : RxCell)
  /-- CARRIER_RETURN (R434). The cell that arrives on port `p`. -/
  | carrierReturn (p : Fin 4) (rx : RxCell)
  /-- IO_UP_RETURN (R440). The cell that arrives on port `p`. -/
  | ioUpReturn (p : Fin 4) (rx : RxCell)
  /-- ADMIN_RESPONSE (R443). The cell that arrives on port `p`. -/
  | adminResponse (p : Fin 4) (rx : RxCell)
  /-- ADMIN_TIMEOUT (R443). The oldest transaction that is due. -/
  | adminTimeout
  /-- TUNNEL_SEGMENT (R445). The cell that arrives on port `p`. -/
  | tunnelSegment (p : Fin 4) (rx : RxCell)
  /-- CELL_DISCARD (R414). The blocks that arrive on a port. -/
  | cellDiscard (r : RxBlocks)
  /-- ACYCLIC_CELL_START (R449). On direction `d`. -/
  | acyclicCellStart (d : Fin 4)
  /-- TIME_INFO_BROADCAST (R527). On every active direction. -/
  | timeInfoBroadcast
  /-- RING_CMD_INTAKE (R481). For the ring that RING_SEL selects. -/
  | ringCmdIntake
  /-- RING_CMD_CLOSE (R481). For the ring that RING_SEL selects. -/
  | ringCmdClose
  /-- RING_CMD_RESTORE (R499). For the ring that RING_SEL selects. -/
  | ringCmdRestore
  /-- AUTO_INTAKE (R480). Ring `r`. -/
  | autoIntake (r : Fin 2)
  /-- JOIN_RECEIVE (R484). The cell that arrives on port `p`. -/
  | joinReceive (p : Fin 4) (rx : RxCell)
  /-- INTAKE_QUIET_EXPIRE (R481). Ring `r`. -/
  | intakeQuietExpire (r : Fin 2)
  /-- ENUM_PROBE_RETURN (R487). The cell, and the NONCEs in node order. -/
  | enumProbeReturn (p : Fin 4) (rx : RxCell) (assoc : List (BitVec 16))
  /-- ENUM_PROBE_TIMEOUT (R487). Ring `r`, and the NONCEs in node order. -/
  | enumProbeTimeout (r : Fin 2) (assoc : List (BitVec 16))
  /-- ECHO_RESPONSE (R489). The cell that arrives on port `p`. -/
  | echoResponse (p : Fin 4) (rx : RxCell)
  /-- CYCLE_MARK_TIMEOUT (R493). Ring `r`. -/
  | cycleMarkTimeout (r : Fin 2)
  /-- LOCATE_RETURN (R494). The cell that arrives on port `p`. -/
  | locateReturn (p : Fin 4) (rx : RxCell)
  /-- LOCATE_TIMEOUT (R493). The end of ring `r` whose LOCATE is missing. -/
  | locateTimeout (r : Fin 2) (second : Bool)
  /-- RESTORE_POLL (R499). Ring `r`. -/
  | restorePoll (r : Fin 2)
  /-- BT_WRAP (R510). Of BT32. -/
  | btWrap
  /-- PTP_MESSAGE (R531). The message, and whether it is of the domain and transport chosen and well formed. -/
  | ptpMessage (usable : Bool) (m : PtpMsg)
  /-- HOLDOVER_TIMEOUT (R514). Of the servo. -/
  | holdoverTimeout
  /-- TIME_SLEW (R516). The descriptor. -/
  | timeSlew (d : Desc)
  /-- SLEW_COMPLETE (R516). Of the slew in progress. -/
  | slewComplete
  /-- TIME_STEP (R518). The descriptor. -/
  | timeStep (d : Desc)
  /-- TIME_STEP_APPLY (R518). Of the pending step. -/
  | timeStepApply
  /-- TW_HEART_RECEIVE (R556). What arrives on the twin port. -/
  | twHeartReceive (h : TwinHeart)
  /-- HEARTBEAT_MISS (R559). In this cycle. -/
  | heartbeatMiss
  /-- TWIN_JOIN_TIMEOUT (R559). Of JOIN_TMO. -/
  | twinJoinTimeout
  /-- TW_DESC_RECEIVE (R553). The cell that arrives on the twin port. -/
  | twDescReceive (rx : RxCell)
  /-- TW_DIGEST_RECEIVE (R558). The cell that arrives on the twin port. -/
  | twDigestReceive (rx : RxCell)
  /-- TW_COPY_RECEIVE (R554). The cell, and whether the context is enabled on the active. -/
  | twCopyReceive (rx : RxCell) (enabled : Bool)
  /-- TW_SWITCH_RECEIVE (R559). The cell that arrives on the twin port. -/
  | twSwitchReceive (rx : RxCell)
  /-- TWIN_SWITCH (R559). The descriptor. -/
  | twinSwitch (d : Desc)
  /-- TWIN_CLAIM (R543). The descriptor. -/
  | twinClaim (d : Desc)
  /-- TWIN_REJOIN (R559). The descriptor. -/
  | twinRejoin (d : Desc)
  /-- MIX_POLL (R546). Of every node served. -/
  | mixPoll
  /-- GUARD_DECISION (R572). Of channel A (false) or B (true). -/
  | guardDecision (b : Bool)
  /-- XMON_HEARTBEAT (R570). Of the channel that sends it. -/
  | xmonHeartbeat (b : Bool)
  /-- XMON_TIMEOUT (R570). Of the channel that sees no heartbeat. -/
  | xmonTimeout (b : Bool)
  /-- SAFE_INPUT_FILTER (R578). A channel's own input of a pair, and its new filtered level. -/
  | safeInputFilter (b : Bool) (k : Fin 8) (demand : Bool)
  /-- SI_DISCREPANCY (R579). Of a pair. -/
  | siDiscrepancy (k : Fin 8)
  /-- SWITCH_SHORT (R582). A channel's switch of a near axis; the condition comes or goes. -/
  | switchShort (b : Bool) (n : Fin 8) (present : Bool)
  /-- SWITCH_STUCK (R582). A channel's switch of a near axis; the condition comes or goes. -/
  | switchStuck (b : Bool) (n : Fin 8) (present : Bool)
  /-- SWITCH_OPEN (R582). A channel's switch of a near axis; the condition comes or goes. -/
  | switchOpen (b : Bool) (n : Fin 8) (present : Bool)
  /-- BRAKE_OPEN_LOAD (R582). As a channel senses it; the condition comes or goes. -/
  | brakeOpenLoad (b : Bool) (n : Fin 8) (present : Bool)
  /-- BRAKE_OVERLOAD (R581). The condition comes or goes. -/
  | brakeOverload (present : Bool)
  /-- TEST_PULSE_START (R583). A channel's switch; the off-state readback of an engaged brake. -/
  | testPulseStart (b : Bool) (n : Fin 8) (off : Bool)
  /-- TEST_PULSE_END (R583). The readback before the end, and whether the switch conducts again. -/
  | testPulseEnd (b : Bool) (n : Fin 8) (off : Bool) (back : Bool)
  /-- SBT_STEP (R587). Of the test in progress. -/
  | sbtStep
  /-- SBT_DUE (R589). The hourly look. -/
  | sbtDue
  /-- SEAL_CHANGE (R596). Which seal inputs have been low for 50 ms. -/
  | sealChange (a : Bool) (b : Bool)
  /-- SELFTEST_COMPLETE (R590). A channel, its self-test and its parameter CRC. -/
  | selftestComplete (b : Bool) (pass : Bool) (crcOk : Bool)
  /-- GUARD_LOCKOUT_EXPIRE (R595). Of a channel. -/
  | guardLockoutExpire (b : Bool)
  /-- GA_WRITE (R600). The descriptor. -/
  | gaWrite (d : Desc)
  /-- GA_READ (R600). The descriptor. -/
  | gaRead (d : Desc)
  /-- GA_CONFIRM (R597). The descriptor. -/
  | gaConfirm (d : Desc)
  /-- GA_PASSWORD (R595). The descriptor. -/
  | gaPassword (d : Desc)
  /-- GA_FAULT_CLEAR (R582). The descriptor. -/
  | gaFaultClear (d : Desc)
  /-- GA_SBT (R586). The descriptor. -/
  | gaSbt (d : Desc)
  /-- GA_LOG_READ (R600). The descriptor. -/
  | gaLogRead (d : Desc)
  /-- GA_RESET (R590). The descriptor. -/
  | gaReset (d : Desc)
  /-- GB_WRITE (R600). The descriptor. -/
  | gbWrite (d : Desc)
  /-- GB_READ (R600). The descriptor. -/
  | gbRead (d : Desc)
  /-- GB_CONFIRM (R597). The descriptor. -/
  | gbConfirm (d : Desc)
  /-- GB_PASSWORD (R595). The descriptor. -/
  | gbPassword (d : Desc)
  /-- GB_FAULT_CLEAR (R582). The descriptor. -/
  | gbFaultClear (d : Desc)
  /-- GB_LOG_READ (R600). The descriptor. -/
  | gbLogRead (d : Desc)
  /-- GB_RESET (R590). The descriptor. -/
  | gbReset (d : Desc)
  /-- DOORBELL_POLL (R618). The doorbell page's bytes and the ring entries that the host's memory holds. -/
  | doorbellPoll (page : List (Nat × BitVec 8)) (descs : List (Nat × RawDesc))
  /-- CQ_ENTRY_WRITE (R634). Of a completion ring. -/
  | cqEntryWrite (n : Fin 64)
  /-- ITMR_EXPIRE (R639). Of a completion ring. -/
  | itmrExpire (n : Fin 64)
  /-- MSIX_UNMASK (R639). Of a vector. -/
  | msixUnmask (v : Fin 64)
  /-- RING_CFG_WRITE (R614). The word written, for the selected ring. -/
  | ringCfgWrite (v : BitVec 32)
  /-- HOST_ENABLE (R618). The word written; ENABLE is set. -/
  | hostEnable (v : BitVec 32)
  /-- HOST_DISABLE (R618). The word written; ENABLE is clear. -/
  | hostDisable (v : BitVec 32)
  /-- HOST_LATCH (R638). The word written. -/
  | hostLatch (v : BitVec 32)
  /-- HOST_INTERFACE_RESET (R644). 0 PERST_N, 1 link down, 2 Function Level Reset. -/
  | hostInterfaceReset (cause : Fin 3)
  /-- HOST_WATCHDOG (R645). The host watchdog's time has run. -/
  | hostWatchdog
  /-- DMA_ERROR (R648). The ring it served (kind 3: the doorbell page), and whether it was the write of an entry. -/
  | dmaError (kind : Fin 4) (n : Fin 64) (entry : Bool)
  /-- BAR2_WRITE (R611). The offset and the word. -/
  | bar2Write (a : BitVec 24) (v : BitVec 32)
  /-- CONFIG_REQUEST (R609). The request. -/
  | configRequest (q : CfgReq)
  /-- NOP (R640). The descriptor. -/
  | nop (d : Desc)
  /-- PARAM_WRITE (R641). The descriptor. -/
  | paramWrite (d : Desc)
  /-- PARAM_READ (R641). The descriptor. -/
  | paramRead (d : Desc)
  /-- SIG_READ (R642). The descriptor. -/
  | sigRead (d : Desc)
  /-- SIG_WRITE (R642). The descriptor. -/
  | sigWrite (d : Desc)
  /-- FW_WRITE (R643). The descriptor. -/
  | fwWrite (d : Desc)
  /-- FW_VERIFY (R643). The descriptor. -/
  | fwVerify (d : Desc)
  /-- FW_VERIFY_DONE (R643). Whether the signature is good. -/
  | fwVerifyDone (ok : Bool)
  /-- FW_ACTIVATE (R643). The descriptor. -/
  | fwActivate (d : Desc)
  /-- FW_INFO (R643). The descriptor. -/
  | fwInfo (d : Desc)
  /-- LP_LOAD (R643). The descriptor. -/
  | lpLoad (d : Desc)
  /-- LP_COMMIT (R643). The descriptor. -/
  | lpCommit (d : Desc)
  /-- ACQ_START (R664). The descriptor. -/
  | acqStart (d : Desc)
  /-- ACQ_STOP (R664). The descriptor. -/
  | acqStop (d : Desc)
  /-- ACQ_ARM (R664). The descriptor. -/
  | acqArm (d : Desc)
  /-- ACQ_DISARM (R665). The descriptor. -/
  | acqDisarm (d : Desc)
  /-- ACQ_FORCE (R662). The descriptor. -/
  | acqForce (d : Desc)
  /-- FAST_ROW (R654). The unit, the sinc3 outputs and the levels of the balls it takes, as in SAMPLE_INSTANT. -/
  | fastRow (u : Fin 8) (sd : List (Nat × BitVec 24)) (lines : List (Nat × Bool))
  /-- TRIG_IO_EDGE (R662). A falling edge from outside. -/
  | trigIoEdge
  /-- TRIG_IO_PULSE_END (R666). Of the device's own drive. -/
  | trigIoPulseEnd
  /-- ACQ_PAGE_TIMEOUT (R669). Of a stream ring. -/
  | acqPageTimeout (k : Fin 9)
  /-- ACQ_LATCH (R673). The word written, for the selected unit. -/
  | acqLatch (v : BitVec 32)
  /-- PERIODIC_FLUSH_DUE (R692). Every 10 operating minutes. -/
  | periodicFlushDue
  /-- FLUSH_START (R692). Of the held cause, or of a REFRESH. -/
  | flushStart
  /-- FLUSH_COMMIT (R690). Frames that fail the read-back in each chest, and macro faults. -/
  | flushCommit (retire0 : Nat) (retire1 : Nat) (fault0 : Bool) (fault1 : Bool)
  /-- OP_MINUTE_TICK (R687). Of operating time. -/
  | opMinuteTick
  /-- SUPPLY_SAMPLE (R688). VIN and VBRK in mV, the junction temperature in 0.1 °C. -/
  | supplySample (vin : BitVec 16) (vbrk : BitVec 16) (tj : BitVec 16)
  /-- RESET_HELD_ENTRY (R703). Of the hold in progress. -/
  | resetHeldEntry
  /-- REC_RECOVERY (R701). The SEQs of the entries that fail validity in each chest, and macro faults. -/
  | recRecovery (bad0 : List Nat) (bad1 : List Nat) (fault0 : Bool) (fault1 : Bool)
  /-- REC_FLUSH (R704). The descriptor. -/
  | recFlush (d : Desc)
  /-- REC_READ (R704). The descriptor. -/
  | recRead (d : Desc)
  /-- POWER_FAIL_TRIGGER (R729). VIN has been below 16 V for 20 µs. -/
  | powerFailTrigger
  /-- VIN_LOW (R708). VIN has been below 17 V for 1 ms. -/
  | vinLow
  /-- VIN_HIGH (R708). VIN has been above 34 V for 1 ms. -/
  | vinHigh
  /-- VBRK_LOW (R708). VBRK has been below 16 V for 1 ms. -/
  | vbrkLow
  /-- VBRK_HIGH (R708). VBRK has been above 34 V for 1 ms. -/
  | vbrkHigh
  /-- VIO_FAIL (R713). Of a bank, 0 VIOA to 3 VIOD. -/
  | vioFail (b : Fin 4)
  /-- TJ_HIGH (R710). The junction has been above 120 °C for 1 s. -/
  | tjHigh
  /-- PWR_SET (R731). The descriptor. -/
  | pwrSet (d : Desc)
  /-- CAB_IDLE_EXPIRE (R727). Of bank CAB4 + k. -/
  | cabIdleExpire (k : Fin 4)
  /-- RETENTION_ENTRY (R721). The accepted requests begin their entries. -/
  | retentionEntry
  /-- ENTRY_COMPLETE (R720). Of a domain. -/
  | entryComplete (d : Fin 23)
  /-- WAKE_EVENT (R722). 0 PCIE's receiver, 1 to 4 LOS of P0 to P3, 5 TRIG_IO. -/
  | wakeEvent (k : Fin 6)
  /-- WAKE_COMPLETE (R723). Of a domain, with the memories found LOST, as PWR_DOM_STATUS holds them. -/
  | wakeComplete (d : Fin 23) (lost : BitVec 12)
  /-- LEAVE_OFF_COMPLETE (R725). Of a domain. -/
  | leaveOffComplete (d : Fin 23)
  /-- HOLD_RESTART (R730). VIN has been above 17 V for 10 ms. -/
  | holdRestart
  /-- POWER_ON (R746). The strap codes, two bits a bank, VIOA lowest. -/
  | powerOn (straps : BitVec 8)
  /-- RESET_N_ASSERT (R737). RESET_N has been low for 10 µs. -/
  | resetNAssert
  /-- RESET_RELEASE (R735). The conditions of R735 on VIN and RESET_N hold. -/
  | resetRelease
  /-- SOFT_COLD_RESET (R740). The word written to SYS_RST. -/
  | softColdReset (v : BitVec 32)
  /-- SOFT_CORE_RESET (R740). The word written to SYS_RST. -/
  | softCoreReset (v : BitVec 32)
  /-- BOOT_WATCHDOG (R744). The watchdog's time has run. -/
  | bootWatchdog
  /-- IMAGE_CHECK_COMPLETE (R743). Whether each image would pass its check. -/
  | imageCheckComplete (okA : Bool) (okB : Bool)
  /-- HOST_READY (R746). The time of READY has come. -/
  | hostReady
  /-- STAGE_COMMIT (R767). The block, and whether DISCARD is written with COMMIT. -/
  | stageCommit (b : Fin 18) (discard : Bool)
  /-- STAGE_DISCARD (R766). The block. -/
  | stageDiscard (b : Fin 18)
  /-- SYS_COMMIT_ALL (R774). The word written. -/
  | sysCommitAll (v : BitVec 32)
  /-- STAGE_IDLE_APPLY (R771). While cycles are stopped. -/
  | stageIdleApply
  /-- FIELD_GO_WRITE (R776). The word written. -/
  | fieldGoWrite (v : BitVec 32)
  /-- GO_OVERLOAD (R789). The output, whether by heat, and whether it enters or leaves. -/
  | goOverload (n : Fin 16) (thermal present : Bool)
  /-- GI_INPUT_CHANGE (R776). The input and its level. -/
  | giInputChange (n : Fin 16) (level : Bool)
  /-- TIME_BT_LO_READ (R533). By the host. -/
  | timeBtLoRead
  /-- RC_COUNTER_READ (R6). The BAR0 address. -/
  | rcCounterRead (a : BitVec 24)
  /-- REGISTER_WRITE (R6). The BAR0 address and the word written. -/
  | registerWrite (a : BitVec 24) (v : BitVec 32)
  /-- UNCORRECTABLE_SRAM_ERROR (R590). Of a channel. -/
  | uncorrectableSramError (b : Bool)
  /-- OWN_OSCILLATOR_CHECK_FAILURE (R590). Of a channel. -/
  | ownOscillatorCheckFailure (b : Bool)
  /-- PARAMETER_CRC_ERROR (R590). Of a channel. -/
  | parameterCrcError (b : Bool)
  /-- VIO_FAIL_END (R713). Of a bank. -/
  | vioFailEnd (b : Fin 4)
  /-- PERST_N_RISE (R746). PERST_N goes high. -/
  | perstNRise
  /-- PCIE_LINK_UP (R606). The negotiated speed and width codes. -/
  | pcieLinkUp (speed : BitVec 3) (width : BitVec 3)
  deriving DecidableEq, Repr

end Sys2Proof
end

