-- ==== Sys2Proof/Config.lean ====
section
/-! DEFINITION. What the spec leaves to the part or leaves open: constants without a body, so
that nothing can be proved of their values. Each is named in the assumption log. -/

namespace Sys2Proof.Config

/-- The unique number of the part (R774). -/
opaque uid : W64

/-- The ordering code is grade E (R1, R774). -/
opaque gradeE : Bool

/-- A scratch word that the running stage has not written (R109), by the stage entry and the
word. -/
opaque scratch : Nat → Nat → W24

/-- A word of the LDM's constant area: the library tables that firmware writes there at start-up (R106,
R746), whose content the spec does not give. -/
opaque constArea : Nat → W24

/-- A scratch word in the range of a running transfer (R179), by the stage entry, the word and
the number of the instruction word that reads it. -/
opaque scratchXfer : Nat → Nat → Nat → W24

/-- A cabinet word that a transfer copied from a scratch word stored to meanwhile (R179), by
the stage entry and the scratch word. -/
opaque xferRace : Nat → Nat → W24

/-- A word of the state that the library keeps in an axis drawer (R196), by the library stage that left
it and the word: the spec gives the words to the library and does not lay them out. -/
opaque libState : Nat → Nat → W24

/-- The quadrature order in which an edge counts up: A leading B (R248 leaves it open). -/
opaque quadForward : Bool

/-- The level of DIR at which a STEP edge counts up, with DIR_INV clear (R284 leaves it open). -/
opaque stepUpLevel : Bool

/-- Whether a library value between two steps of its format is stored as the upper one: the
spec does not give the library's rounding. -/
opaque lawRoundUp : Rat → Bool

/-- What a square root has below its 64 computed binary places (R213, R217, R230, R334). -/
opaque sqrt : Rat → Rat

/-- What sine and cosine of an angle in turns have below theirs (R211, R230, R357). -/
opaque sinTurns : Rat → Rat
opaque cosTurns : Rat → Rat

/-- The errors of the constant area's sine and cosine of an electrical angle (R211), before their
bound. -/
opaque sineErr : Rat → Rat
opaque cosineErr : Rat → Rat

/-- What the angle of a vector, in turns, has below its (R215, R357). -/
opaque angleOf : Rat → Rat → Rat

/-- `tan (π x)` where it has no value (R219). -/
opaque tanPi : Rat → Rat

/-- What `exp (-2 π x)` has below its 64 computed binary places (R224). -/
opaque expNeg2Pi : Rat → Rat

/-- CFG_DIGEST (R548): the check sum over the configuration, whose order the spec does not give. -/
opaque cfgDigest : List (Nat × W32) → List (Nat × W64) → W32

/-- The check sum over a Brake Guard channel's parameter copy (R602), whose order the spec does not
give. -/
opaque guardCfgCrc : List (Nat × W32) → W32

/-- A word of the configuration header that R607 and R608 do not give. -/
opaque cfgSpace : Nat → W32

/-- The deviation of a member from the programmed path in a blended corner (R359), before its bound, from
the member and the place along the path: the spec gives only the bound. -/
opaque blendDev : Nat → Rat → Rat

/-- The velocity and the acceleration of a member in a blended corner (R359), by the same. -/
opaque blendVel : Nat → Rat → Rat
opaque blendAcc : Nat → Rat → Rat

/-- Bytes 0 to 7 of the completion of a motion descriptor that moves no axis of its own (R329), by the
group context, or 0: the spec gives p_cmd to axes alone. -/
opaque noPcmd : Nat → W64

/-- A law's quotient by zero, where a parameter outside its range makes one: the spec states no
result. -/
opaque divZero : Rat → Rat

/-- The row instants of a GAP record that withholds no row, but MARK records alone (R667): the spec
gives none. -/
opaque gapInstant : Nat → W32

/-- The error of a PTP stamp, in 2^-16 ns, before its bound of 8 ns (R524). -/
opaque ptpErr : Nat → Int

/-- What the number π has below its computed places (R211, R357). -/
opaque pi : Rat

end Sys2Proof.Config
end

