-- ==== Sys2Proof/Machine/Regs.lean ====
section
/-! DEFINITION. The set-up registers of BAR0 (R762, and the register tables of every chapter):
one constant per register, with its address, access code, reset value, selector and fields. -/

namespace Sys2Proof.Machine

/-- The access codes of R6. -/
inductive Acc where
  | ro | rw | st | w1c | wo | rc | hw
  deriving DecidableEq, Repr

/-- A field `[hi:lo]` of a register and the range its table states (the whole field where it
states none). A field whose least value is negative is signed. -/
structure Fld where
  hi : Nat
  lo : Nat
  mn : Int
  mx : Int
  deriving DecidableEq, Repr

/-- Which select registers choose the instance that a register shows. -/
inductive Sel where
  | none
  | one (a : Nat)
  | two (a b : Nat)
  deriving DecidableEq, Repr

/-- A register of BAR0: its BAR0 address, access code, reset value, selector and fields.
Bits of no field are reserved (R2). -/
structure Reg where
  addr : Nat
  acc : Acc
  reset : W32
  sel : Sel
  flds : List Fld
  deriving DecidableEq, Repr

/-- A field with no stated range. -/
def fd (hi lo : Nat) : Fld := ⟨hi, lo, 0, 2 ^ (hi + 1 - lo) - 1⟩

/-- A field with a stated range. -/
def fdr (hi lo : Nat) (mn mx : Int) : Fld := ⟨hi, lo, mn, mx⟩

/-- The bits of a field. -/
def Fld.mask (x : Fld) : Nat := (2 ^ (x.hi + 1 - x.lo) - 1) <<< x.lo

/-- The bits of a register that are not reserved (R2). -/
def Reg.mask (r : Reg) : W32 := BitVec.ofNat 32 (r.flds.foldl (fun m x => m ||| x.mask) 0)

/-- SYS_ID (R774). -/
def SYS_ID : Reg := ⟨0x0, .ro, 0x9128001, .none, [fd 31 0]⟩

/-- SYS_REV (R774). -/
def SYS_REV : Reg := ⟨0x4, .ro, 0xB0, .none, [fd 8 0]⟩

/-- SYS_UID_LO (R774). -/
def SYS_UID_LO : Reg := ⟨0x8, .ro, 0x0, .none, [fd 31 0]⟩

/-- SYS_UID_HI (R774). -/
def SYS_UID_HI : Reg := ⟨0xC, .ro, 0x0, .none, [fd 31 0]⟩

/-- SYS_RST (R774). -/
def SYS_RST : Reg := ⟨0x10, .wo, 0x0, .none, [fd 15 8, fd 1 1, fd 0 0]⟩

/-- SYS_RST_CAUSE (R774). -/
def SYS_RST_CAUSE : Reg := ⟨0x14, .hw, 0x0, .none, [fd 2 0]⟩

/-- SYS_STRAP (R774). -/
def SYS_STRAP : Reg := ⟨0x18, .hw, 0x0, .none, [fd 7 0]⟩

/-- SYS_SCRATCH (R774). -/
def SYS_SCRATCH : Reg := ⟨0x20, .rw, 0x0, .none, [fd 31 0]⟩

/-- SYS_COMMIT_ALL (R774). -/
def SYS_COMMIT_ALL : Reg := ⟨0x30, .wo, 0x0, .none, [fd 0 0]⟩

/-- SYS_STAGE_PEND (R774). -/
def SYS_STAGE_PEND : Reg := ⟨0x34, .hw, 0x0, .none, [fd 17 0]⟩

/-- PWR_DOM_SEL (R732). -/
def PWR_DOM_SEL : Reg := ⟨0x4000, .rw, 0x0, .none, [fdr 4 0 0 22]⟩

/-- PWR_DOM_STATUS (R732). -/
def PWR_DOM_STATUS : Reg := ⟨0x4004, .hw, 0x0, .one 0x4000, [fd 27 16, fd 8 8, fd 5 4, fd 2 0]⟩

/-- PWR_SUMMARY (R732). -/
def PWR_SUMMARY : Reg := ⟨0x4008, .hw, 0x0, .none, [fd 22 0]⟩

/-- PWR_CAB_IDLE (R732). -/
def PWR_CAB_IDLE : Reg := ⟨0x4010, .st, 0x100, .none, [fdr 15 0 16 65535]⟩

/-- PWR_WAKE (R732). -/
def PWR_WAKE : Reg := ⟨0x4014, .st, 0x0, .none, [fd 5 5, fd 4 1, fd 0 0]⟩

/-- PWR_VIN (R732). -/
def PWR_VIN : Reg := ⟨0x4020, .hw, 0x0, .none, [fd 31 16, fd 15 0]⟩

/-- PWR_TJ (R732). -/
def PWR_TJ : Reg := ⟨0x4024, .hw, 0x0, .none, [fd 15 0]⟩

/-- PWR_VIO (R732). -/
def PWR_VIO : Reg := ⟨0x4028, .hw, 0x0, .none, [fd 15 0]⟩

/-- PWR_ENTRIES (R732). -/
def PWR_ENTRIES : Reg := ⟨0x4040, .rc, 0x0, .one 0x4000, [fd 31 0]⟩

/-- PWR_WAKES (R732). -/
def PWR_WAKES : Reg := ⟨0x4044, .rc, 0x0, .one 0x4000, [fd 31 0]⟩

/-- PWR_REPLAYS (R732). -/
def PWR_REPLAYS : Reg := ⟨0x4048, .rc, 0x0, .one 0x4000, [fd 31 0]⟩

/-- PWR_LOST (R732). -/
def PWR_LOST : Reg := ⟨0x404C, .rc, 0x0, .one 0x4000, [fd 31 0]⟩

/-- PWR_REFUSED_CNT (R732). -/
def PWR_REFUSED_CNT : Reg := ⟨0x4050, .rc, 0x0, .none, [fd 31 0]⟩

/-- PWR_ACC_OFF (R732). -/
def PWR_ACC_OFF : Reg := ⟨0x4054, .rc, 0x0, .one 0x4000, [fd 31 0]⟩

/-- PWR_WAKE_MAX (R732). -/
def PWR_WAKE_MAX : Reg := ⟨0x4058, .rc, 0x0, .one 0x4000, [fd 15 0]⟩

/-- TIME_CTL (R533). -/
def TIME_CTL : Reg := ⟨0x8000, .st, 0x42, .none, [fdr 15 8 0 127, fd 6 6, fd 5 5, fdr 4 3 0 2, fdr 2 1 0 2, fd 0 0]⟩

/-- TIME_JUMP (R533). -/
def TIME_JUMP : Reg := ⟨0x8004, .st, 0x3E8, .none, [fdr 23 0 100 10000000]⟩

/-- TIME_SERVO (R533). -/
def TIME_SERVO : Reg := ⟨0x8008, .st, 0x4D00B3, .none, [fd 31 16, fd 15 0]⟩

/-- TIME_FLIM (R533). -/
def TIME_FLIM : Reg := ⟨0x800C, .st, 0x186A0, .none, [fdr 17 0 1000 150000]⟩

/-- TIME_LOCK (R533). -/
def TIME_LOCK : Reg := ⟨0x8010, .st, 0x4080064, .none, [fdr 31 24 1 255, fdr 23 16 1 255, fdr 15 0 1 65535]⟩

/-- TIME_ASYM (R533). -/
def TIME_ASYM : Reg := ⟨0x8014, .st, 0x0, .none, [fd 31 0]⟩

/-- TIME_MSG (R533). -/
def TIME_MSG : Reg := ⟨0x8018, .st, 0x0, .none, [fdr 7 0 (-4) 4]⟩

/-- TIME_IP (R533). -/
def TIME_IP : Reg := ⟨0x801C, .st, 0x0, .none, [fd 31 0]⟩

/-- TIME_STATE (R533). -/
def TIME_STATE : Reg := ⟨0x8030, .hw, 0x0, .none, [fd 15 8, fd 2 0]⟩

/-- TIME_OFFSET (R533). -/
def TIME_OFFSET : Reg := ⟨0x8034, .hw, 0x0, .none, [fd 31 0]⟩

/-- TIME_RATE (R533). -/
def TIME_RATE : Reg := ⟨0x8038, .hw, 0x0, .none, [fd 31 0]⟩

/-- TIME_SLEW_LEFT_LO (R533). -/
def TIME_SLEW_LEFT_LO : Reg := ⟨0x803C, .hw, 0x0, .none, [fd 31 0]⟩

/-- TIME_SLEW_LEFT_HI (R533). -/
def TIME_SLEW_LEFT_HI : Reg := ⟨0x8040, .hw, 0x0, .none, [fd 31 0]⟩

/-- TIME_BT_LO (R533). -/
def TIME_BT_LO : Reg := ⟨0x8044, .hw, 0x0, .none, [fd 31 0]⟩

/-- TIME_BT_HI (R533). -/
def TIME_BT_HI : Reg := ⟨0x8048, .hw, 0x0, .none, [fd 31 0]⟩

/-- TIME_MPD (R533). -/
def TIME_MPD : Reg := ⟨0x804C, .hw, 0x0, .none, [fd 31 0]⟩

/-- TIME_GM_LO (R533). -/
def TIME_GM_LO : Reg := ⟨0x8050, .hw, 0x0, .none, [fd 31 0]⟩

/-- TIME_GM_HI (R533). -/
def TIME_GM_HI : Reg := ⟨0x8054, .hw, 0x0, .none, [fd 31 0]⟩

/-- TIME_PTP_RX (R533). -/
def TIME_PTP_RX : Reg := ⟨0x8060, .rc, 0x0, .none, [fd 31 0]⟩

/-- TIME_PTP_EARLY (R533). -/
def TIME_PTP_EARLY : Reg := ⟨0x8064, .rc, 0x0, .none, [fd 31 0]⟩

/-- TIME_PTP_BAD (R533). -/
def TIME_PTP_BAD : Reg := ⟨0x8068, .rc, 0x0, .none, [fd 31 0]⟩

/-- TIME_REFUSED (R533). -/
def TIME_REFUSED : Reg := ⟨0x806C, .rc, 0x0, .none, [fd 31 0]⟩

/-- TIME_STEPS (R533). -/
def TIME_STEPS : Reg := ⟨0x8070, .rc, 0x0, .none, [fd 31 0]⟩

/-- HOST_CTL (R646). -/
def HOST_CTL : Reg := ⟨0xC000, .rw, 0x0, .none, [fd 2 2, fd 1 1, fd 0 0]⟩

/-- HOST_DB_POLL (R646). -/
def HOST_DB_POLL : Reg := ⟨0xC004, .rw, 0x7D0, .none, [fdr 15 0 500 50000]⟩

/-- HOST_WDT (R646). -/
def HOST_WDT : Reg := ⟨0xC008, .rw, 0x64, .none, [fdr 15 0 1 65535]⟩

/-- HOST_DB_BASE_LO (R646). -/
def HOST_DB_BASE_LO : Reg := ⟨0xC010, .rw, 0x0, .none, [fd 31 12]⟩

/-- HOST_DB_BASE_HI (R646). -/
def HOST_DB_BASE_HI : Reg := ⟨0xC014, .rw, 0x0, .none, [fd 31 0]⟩

/-- HOST_STATUS (R646). -/
def HOST_STATUS : Reg := ⟨0xC018, .hw, 0x0, .none, [fd 10 8, fd 6 4, fd 2 2, fd 1 1, fd 0 0]⟩

/-- HOST_RING_SEL (R646). -/
def HOST_RING_SEL : Reg := ⟨0xC020, .rw, 0x0, .none, [fdr 9 8 0 2, fd 5 0]⟩

/-- HOST_RING_BASE_LO (R646). -/
def HOST_RING_BASE_LO : Reg := ⟨0xC024, .rw, 0x0, .one 0xC020, [fd 31 12]⟩

/-- HOST_RING_BASE_HI (R646). -/
def HOST_RING_BASE_HI : Reg := ⟨0xC028, .rw, 0x0, .one 0xC020, [fd 31 0]⟩

/-- HOST_RING_CFG (R646). -/
def HOST_RING_CFG : Reg := ⟨0xC02C, .rw, 0x40, .one 0xC020, [fd 21 16, fd 8 4, fd 0 0]⟩

/-- HOST_CQ_MOD (R646). -/
def HOST_CQ_MOD : Reg := ⟨0xC030, .rw, 0x6401, .one 0xC020, [fd 23 8, fdr 7 0 1 255]⟩

/-- HOST_RING_STATUS (R646). -/
def HOST_RING_STATUS : Reg := ⟨0xC034, .hw, 0x0, .one 0xC020, [fd 31 16, fd 15 0]⟩

/-- HOST_RING_PEND (R646). -/
def HOST_RING_PEND : Reg := ⟨0xC038, .hw, 0x0, .one 0xC020, [fd 24 16, fd 8 0]⟩

/-- HOST_RING_ERR (R646). -/
def HOST_RING_ERR : Reg := ⟨0xC03C, .rc, 0x0, .none, [fd 25 24, fd 21 16, fd 15 0]⟩

/-- HOST_EVT_SEL (R646). -/
def HOST_EVT_SEL : Reg := ⟨0xC040, .rw, 0x0, .none, [fd 7 0]⟩

/-- HOST_EVT_CQ (R646). -/
def HOST_EVT_CQ : Reg := ⟨0xC044, .rw, 0x0, .one 0xC040, [fd 5 0]⟩

/-- HOST_FW_STATUS (R646). -/
def HOST_FW_STATUS : Reg := ⟨0xC048, .hw, 0x0, .none, [fd 3 0]⟩

/-- HOST_DESC_FETCHED (R646). -/
def HOST_DESC_FETCHED : Reg := ⟨0xC080, .ro, 0x0, .none, [fd 31 0]⟩

/-- HOST_CPL_CMD (R646). -/
def HOST_CPL_CMD : Reg := ⟨0xC084, .ro, 0x0, .none, [fd 31 0]⟩

/-- HOST_CMD_OPEN (R646). -/
def HOST_CMD_OPEN : Reg := ⟨0xC088, .ro, 0x0, .none, [fd 31 0]⟩

/-- HOST_CMD_DISCARD (R646). -/
def HOST_CMD_DISCARD : Reg := ⟨0xC08C, .ro, 0x0, .none, [fd 31 0]⟩

/-- HOST_EVT_POSTED (R646). -/
def HOST_EVT_POSTED : Reg := ⟨0xC090, .ro, 0x0, .none, [fd 31 0]⟩

/-- HOST_EVT_WRITTEN (R646). -/
def HOST_EVT_WRITTEN : Reg := ⟨0xC094, .ro, 0x0, .none, [fd 31 0]⟩

/-- HOST_EVT_HELD (R646). -/
def HOST_EVT_HELD : Reg := ⟨0xC098, .ro, 0x0, .none, [fd 31 0]⟩

/-- HOST_EVT_DISCARD (R646). -/
def HOST_EVT_DISCARD : Reg := ⟨0xC09C, .ro, 0x0, .none, [fd 31 0]⟩

/-- HOST_LATCH (R646). -/
def HOST_LATCH : Reg := ⟨0xC0A0, .wo, 0x0, .none, [fd 0 0]⟩

/-- HOST_SUMMARY (R646). -/
def HOST_SUMMARY : Reg := ⟨0xC0A4, .rc, 0x0, .none, [fd 31 0]⟩

/-- HOST_DMA_ERR (R646). -/
def HOST_DMA_ERR : Reg := ⟨0xC0A8, .rc, 0x0, .none, [fd 31 0]⟩

/-- HOST_BAR2_DROP (R646). -/
def HOST_BAR2_DROP : Reg := ⟨0xC0AC, .rc, 0x0, .none, [fd 31 0]⟩

/-- DISP_CYC_PERIOD (R57). -/
def DISP_CYC_PERIOD : Reg := ⟨0x10000, .st, 0x7A12, .none, [fdr 19 0 12500 1000000]⟩

/-- DISP_CYC_HINGE (R57). -/
def DISP_CYC_HINGE : Reg := ⟨0x10004, .st, 0x7D0, .none, [fdr 13 0 250 10000]⟩

/-- DISP_CYC_SAMPLE (R57). -/
def DISP_CYC_SAMPLE : Reg := ⟨0x10008, .st, 0x3E8, .none, [fd 19 0]⟩

/-- DISP_CYC_CARRIER (R57). -/
def DISP_CYC_CARRIER : Reg := ⟨0x1000C, .st, 0xBB8, .none, [fd 19 0]⟩

/-- DISP_CYC_DEADLINE (R57). -/
def DISP_CYC_DEADLINE : Reg := ⟨0x10010, .st, 0x0, .none, [fd 19 0]⟩

/-- DISP_CYC_CTL (R57). -/
def DISP_CYC_CTL : Reg := ⟨0x10014, .rw, 0x300, .none, [fdr 11 8 1 15, fd 0 0]⟩

/-- DISP_CYC_STATUS (R57). -/
def DISP_CYC_STATUS : Reg := ⟨0x10018, .hw, 0x0, .none, [fd 0 0]⟩

/-- DISP_CYC_COUNT (R57). -/
def DISP_CYC_COUNT : Reg := ⟨0x10020, .hw, 0x0, .none, [fd 31 0]⟩

/-- DISP_CYC_T0 (R57). -/
def DISP_CYC_T0 : Reg := ⟨0x10024, .hw, 0x0, .none, [fd 31 0]⟩

/-- DISP_CYC_LOAD (R57). -/
def DISP_CYC_LOAD : Reg := ⟨0x10028, .hw, 0x2000000, .none, [fd 25 16, fd 9 0]⟩

/-- DISP_CYC_OVR (R57). -/
def DISP_CYC_OVR : Reg := ⟨0x1002C, .rc, 0x0, .none, [fd 31 0]⟩

/-- DISP_CYC_ABORTS (R57). -/
def DISP_CYC_ABORTS : Reg := ⟨0x10030, .rc, 0x0, .none, [fd 31 0]⟩

/-- DISP_CYC_LATE_UP (R57). -/
def DISP_CYC_LATE_UP : Reg := ⟨0x10034, .rc, 0x0, .none, [fd 31 0]⟩

/-- DISP_CYC_TA_LATE (R57). -/
def DISP_CYC_TA_LATE : Reg := ⟨0x10038, .rc, 0x0, .none, [fd 31 0]⟩

/-- DISP_CYC_CMD_DEFER (R57). -/
def DISP_CYC_CMD_DEFER : Reg := ⟨0x1003C, .rc, 0x0, .none, [fd 31 0]⟩

/-- DISP_CYC_BG_ABORT (R57). -/
def DISP_CYC_BG_ABORT : Reg := ⟨0x10040, .rc, 0x0, .none, [fd 31 0]⟩

/-- DISP_CYC_DONE_MAX (R57). -/
def DISP_CYC_DONE_MAX : Reg := ⟨0x10044, .rc, 0x0, .none, [fd 19 0]⟩

/-- DISP_AFF (R98). -/
def DISP_AFF : Reg := ⟨0x10080, .st, 0xC8, .none, [fdr 9 0 0 1000]⟩

/-- DISP_PLACE (R98). -/
def DISP_PLACE : Reg := ⟨0x10084, .st, 0x80000A04, .none, [fd 31 31, fd 16 16, fdr 15 8 1 50, fdr 2 0 0 4]⟩

/-- DISP_TRC_CTL (R98). -/
def DISP_TRC_CTL : Reg := ⟨0x10088, .rw, 0x0, .none, [fd 5 1, fd 0 0]⟩

/-- DISP_TRC_MASK number `k`, below 8 (R98). -/
def DISP_TRC_MASK (k : Nat) : Reg := ⟨0x10090 + 4 * k, .rw, 0x0, .none, [fd 31 0]⟩

/-- DISP_TPL_SEL (R98). -/
def DISP_TPL_SEL : Reg := ⟨0x10100, .rw, 0x0, .none, [fd 7 0]⟩

/-- DISP_TPL_HDR_LO (R98). -/
def DISP_TPL_HDR_LO : Reg := ⟨0x10108, .st, 0x0, .one 0x10100, [fd 31 31, fd 30 30, fd 29 22, fd 21 18]⟩

/-- DISP_TPL_HDR_HI (R98). -/
def DISP_TPL_HDR_HI : Reg := ⟨0x1010C, .st, 0x0, .one 0x10100, [fd 31 31, fd 30 28, fd 27 26, fd 25 23, fd 22 17, fd 16 13, fd 12 11, fd 10 6, fd 5 0]⟩

/-- DISP_TPL_ST_LO number `k`, below 16 (R98). -/
def DISP_TPL_ST_LO (k : Nat) : Reg := ⟨0x10110 + 8 * k, .st, 0x0, .one 0x10100, [fd 31 31, fd 30 25, fd 24 24, fd 23 22, fd 21 19, fd 18 18, fd 17 15, fd 14 14, fd 13 13]⟩

/-- DISP_TPL_ST_HI number `k`, below 16 (R98). -/
def DISP_TPL_ST_HI (k : Nat) : Reg := ⟨0x10114 + 8 * k, .st, 0x0, .one 0x10100, [fd 31 19, fd 18 15, fd 14 0]⟩

/-- DISP_CTX_STATUS (R98). -/
def DISP_CTX_STATUS : Reg := ⟨0x10200, .hw, 0x1F1F00, .one 0x10100, [fd 24 24, fd 20 16, fd 12 8, fd 1 0]⟩

/-- DISP_CTX_OVR_RUN (R98). -/
def DISP_CTX_OVR_RUN : Reg := ⟨0x10204, .rc, 0x0, .one 0x10100, [fd 31 0]⟩

/-- DISP_CTX_OVR_READY (R98). -/
def DISP_CTX_OVR_READY : Reg := ⟨0x10208, .rc, 0x0, .one 0x10100, [fd 31 0]⟩

/-- DISP_CTX_OVR_WAIT (R98). -/
def DISP_CTX_OVR_WAIT : Reg := ⟨0x1020C, .rc, 0x0, .one 0x10100, [fd 31 0]⟩

/-- DISP_FLOW_SEL (R98). -/
def DISP_FLOW_SEL : Reg := ⟨0x10300, .rw, 0x0, .none, [fd 5 0]⟩

/-- DISP_FLOW_BIND (R98). -/
def DISP_FLOW_BIND : Reg := ⟨0x10304, .st, 0x0, .one 0x10300, [fd 8 8, fd 5 0]⟩

/-- DISP_FLOW_STATUS (R98). -/
def DISP_FLOW_STATUS : Reg := ⟨0x10308, .hw, 0x0, .one 0x10300, [fd 31 16, fd 6 0]⟩

/-- DISP_FLOW_REL (R98). -/
def DISP_FLOW_REL : Reg := ⟨0x1030C, .rc, 0x0, .one 0x10300, [fd 31 0]⟩

/-- DISP_FLOW_HOLE (R98). -/
def DISP_FLOW_HOLE : Reg := ⟨0x10310, .rc, 0x0, .one 0x10300, [fd 31 0]⟩

/-- DISP_FLOW_CWAIT (R98). -/
def DISP_FLOW_CWAIT : Reg := ⟨0x10314, .rc, 0x0, .one 0x10300, [fd 31 0]⟩

/-- DISP_FLOW_OVERPUT (R98). -/
def DISP_FLOW_OVERPUT : Reg := ⟨0x10318, .rc, 0x0, .one 0x10300, [fd 31 0]⟩

/-- DISP_TOK_ISSUED (R98). -/
def DISP_TOK_ISSUED : Reg := ⟨0x10380, .ro, 0x0, .none, [fd 31 0]⟩

/-- DISP_TOK_RETIRED (R98). -/
def DISP_TOK_RETIRED : Reg := ⟨0x10384, .ro, 0x0, .none, [fd 31 0]⟩

/-- DISP_TOK_DROPPED (R98). -/
def DISP_TOK_DROPPED : Reg := ⟨0x10388, .ro, 0x0, .none, [fd 31 0]⟩

/-- DISP_TOK_STRAY (R98). -/
def DISP_TOK_STRAY : Reg := ⟨0x1038C, .ro, 0x0, .none, [fd 31 0]⟩

/-- DISP_TOK_LATCH (R98). -/
def DISP_TOK_LATCH : Reg := ⟨0x10390, .wo, 0x0, .none, [fd 0 0]⟩

/-- DISP_ENG_SEL (R98). -/
def DISP_ENG_SEL : Reg := ⟨0x103A0, .rw, 0x0, .none, [fdr 4 0 0 23]⟩

/-- DISP_ENG_BUSY (R98). -/
def DISP_ENG_BUSY : Reg := ⟨0x103A4, .hw, 0x0, .one 0x103A0, [fd 19 0]⟩

/-- DISP_ENG_SLOTS (R98). -/
def DISP_ENG_SLOTS : Reg := ⟨0x103A8, .hw, 0x0, .one 0x103A0, [fd 3 0]⟩

/-- DISP_MIG_COUNT (R98). -/
def DISP_MIG_COUNT : Reg := ⟨0x103AC, .rc, 0x0, .none, [fd 31 0]⟩

/-- DISP_SPILL_CL (R98). -/
def DISP_SPILL_CL : Reg := ⟨0x103B0, .rc, 0x0, .none, [fd 31 0]⟩

/-- DISP_SPILL_ANY (R98). -/
def DISP_SPILL_ANY : Reg := ⟨0x103B4, .rc, 0x0, .none, [fd 31 0]⟩

/-- LE_EXC_BASE (R157). -/
def LE_EXC_BASE : Reg := ⟨0x14000, .st, 0x1FC0, .none, [fd 12 6]⟩

/-- LE_XWIN_BASE (R157). -/
def LE_XWIN_BASE : Reg := ⟨0x14004, .st, 0x0, .none, [fd 20 0]⟩

/-- LE_XWIN_LEN (R157). -/
def LE_XWIN_LEN : Reg := ⟨0x14008, .st, 0x0, .none, [fd 21 0]⟩

/-- LE_BKPT (R157). -/
def LE_BKPT : Reg := ⟨0x14010, .rw, 0x0, .none, [fd 31 31, fd 23 16, fd 12 0]⟩

/-- LE_TRACE (R157). -/
def LE_TRACE : Reg := ⟨0x14014, .rw, 0x0, .none, [fd 31 31, fd 7 0]⟩

/-- LE_ENG_SEL (R157). -/
def LE_ENG_SEL : Reg := ⟨0x14020, .rw, 0x0, .none, [fdr 4 0 0 23]⟩

/-- LE_ECC_CORR (R157). -/
def LE_ECC_CORR : Reg := ⟨0x14024, .rc, 0x0, .one 0x14020, [fd 31 0]⟩

/-- LE_ECC_UE (R157). -/
def LE_ECC_UE : Reg := ⟨0x14028, .rc, 0x0, .one 0x14020, [fd 31 0]⟩

/-- LE_SAT (R157). -/
def LE_SAT : Reg := ⟨0x1402C, .rc, 0x0, .one 0x14020, [fd 31 0]⟩

/-- LE_MODV (R157). -/
def LE_MODV : Reg := ⟨0x14030, .rc, 0x0, .one 0x14020, [fd 31 0]⟩

/-- LE_ACCV (R157). -/
def LE_ACCV : Reg := ⟨0x14034, .rc, 0x0, .one 0x14020, [fd 31 0]⟩

/-- LE_FATAL (R157). -/
def LE_FATAL : Reg := ⟨0x14038, .rc, 0x0, .one 0x14020, [fd 31 0]⟩

/-- LE_EXC_LOG_LO (R157). -/
def LE_EXC_LOG_LO : Reg := ⟨0x14040, .hw, 0x0, .none, [fd 21 16, fd 12 0]⟩

/-- LE_EXC_LOG_HI (R157). -/
def LE_EXC_LOG_HI : Reg := ⟨0x14044, .rc, 0x0, .none, [fd 31 31, fd 20 16, fd 11 8, fd 7 0]⟩

/-- CAB_ECC_CORR (R775). -/
def CAB_ECC_CORR : Reg := ⟨0x18000, .rc, 0x0, .none, [fd 31 0]⟩

/-- CAB_ECC_UE (R775). -/
def CAB_ECC_UE : Reg := ⟨0x18004, .rc, 0x0, .none, [fd 31 0]⟩

/-- CAB_UE_ADDR (R775). -/
def CAB_UE_ADDR : Reg := ⟨0x18008, .hw, 0x0, .none, [fd 31 31, fd 22 0]⟩

/-- CAB_SWEEPS (R775). -/
def CAB_SWEEPS : Reg := ⟨0x1800C, .rc, 0x0, .none, [fd 31 0]⟩

/-- FB_AXIS_SEL (R285). -/
def FB_AXIS_SEL : Reg := ⟨0x20000, .rw, 0x0, .none, [fd 2 0]⟩

/-- FB_CFG (R285). -/
def FB_CFG : Reg := ⟨0x20010, .st, 0x0, .one 0x20000, [fd 1 0, fdr 3 2 0 2, fd 4 4, fd 5 5, fd 6 6, fd 9 7, fd 10 10, fd 11 11, fd 12 12, fd 13 13, fd 14 14, fd 15 15, fd 16 16, fdr 18 17 0 2]⟩

/-- FB_EDGE (R285). -/
def FB_EDGE : Reg := ⟨0x20014, .st, 0x401, .one 0x20000, [fdr 9 0 1 1023, fdr 19 10 1 1023, fd 27 20]⟩

/-- FB_IDX_CPR (R285). -/
def FB_IDX_CPR : Reg := ⟨0x20018, .st, 0x2710, .one 0x20000, [fdr 31 0 2 2147483647]⟩

/-- FB_IDX_TOL (R285). -/
def FB_IDX_TOL : Reg := ⟨0x2001C, .st, 0x4, .one 0x20000, [fd 15 0]⟩

/-- FB_IDX_VAL (R285). -/
def FB_IDX_VAL : Reg := ⟨0x20020, .st, 0x0, .one 0x20000, [fd 31 0]⟩

/-- FB_IDX_ARM (R285). -/
def FB_IDX_ARM : Reg := ⟨0x20024, .wo, 0x0, .one 0x20000, [fd 0 0]⟩

/-- FB_CNT (R285). -/
def FB_CNT : Reg := ⟨0x20028, .hw, 0x0, .one 0x20000, [fd 31 0]⟩

/-- FB_CNT_SET (R285). -/
def FB_CNT_SET : Reg := ⟨0x2002C, .wo, 0x0, .one 0x20000, [fd 31 0]⟩

/-- FB_STATUS (R285). -/
def FB_STATUS : Reg := ⟨0x20030, .w1c, 0x0, .one 0x20000, [fd 14 0, fd 25 24]⟩

/-- FB_LINE_STATUS (R285). -/
def FB_LINE_STATUS : Reg := ⟨0x20034, .hw, 0x0, .one 0x20000, [fd 3 0, fd 11 8, fd 19 16]⟩

/-- FB_INDEX_ERR (R285). -/
def FB_INDEX_ERR : Reg := ⟨0x20038, .hw, 0x0, .one 0x20000, [fd 31 0]⟩

/-- FB_IDX_LATCH (R285). -/
def FB_IDX_LATCH : Reg := ⟨0x2003C, .hw, 0x0, .one 0x20000, [fd 31 0]⟩

/-- FB_LATCH (R285). -/
def FB_LATCH : Reg := ⟨0x2004C, .wo, 0x0, .one 0x20000, [fd 0 0]⟩

/-- FB_CNT_L (R285). -/
def FB_CNT_L : Reg := ⟨0x20070, .ro, 0x0, .one 0x20000, [fd 31 0]⟩

/-- FB_UP_ACC (R285). -/
def FB_UP_ACC : Reg := ⟨0x20040, .ro, 0x0, .one 0x20000, [fd 31 0]⟩

/-- FB_DN_ACC (R285). -/
def FB_DN_ACC : Reg := ⟨0x20044, .ro, 0x0, .one 0x20000, [fd 31 0]⟩

/-- FB_CNT_ADJ (R285). -/
def FB_CNT_ADJ : Reg := ⟨0x20048, .ro, 0x0, .one 0x20000, [fd 31 0]⟩

/-- FB_OBS (R285). -/
def FB_OBS : Reg := ⟨0x20050, .ro, 0x0, .one 0x20000, [fd 31 0]⟩

/-- FB_ACC (R285). -/
def FB_ACC : Reg := ⟨0x20054, .ro, 0x0, .one 0x20000, [fd 31 0]⟩

/-- FB_DISC (R285). -/
def FB_DISC : Reg := ⟨0x20058, .ro, 0x0, .one 0x20000, [fd 31 0]⟩

/-- FB_GLITCH (R285). -/
def FB_GLITCH : Reg := ⟨0x20060, .rc, 0x0, .one 0x20000, [fd 31 0]⟩

/-- FB_EDGE_FAULT (R285). -/
def FB_EDGE_FAULT : Reg := ⟨0x20064, .rc, 0x0, .one 0x20000, [fd 31 0]⟩

/-- FB_QUAD_ERR (R285). -/
def FB_QUAD_ERR : Reg := ⟨0x20068, .rc, 0x0, .one 0x20000, [fd 31 0]⟩

/-- FB_INDEX_MISM (R285). -/
def FB_INDEX_MISM : Reg := ⟨0x2006C, .rc, 0x0, .one 0x20000, [fd 31 0]⟩

/-- FB_HALL_INV (R285). -/
def FB_HALL_INV : Reg := ⟨0x20074, .rc, 0x0, .one 0x20000, [fd 31 0]⟩

/-- FB_SSI_ERR (R285). -/
def FB_SSI_ERR : Reg := ⟨0x20078, .rc, 0x0, .one 0x20000, [fd 31 0]⟩

/-- FB_HALL (R285). -/
def FB_HALL : Reg := ⟨0x20080, .st, 0x5, .one 0x20000, [fd 9 0]⟩

/-- FB_SSI_CFG (R285). -/
def FB_SSI_CFG : Reg := ⟨0x20084, .st, 0x3E819, .one 0x20000, [fdr 5 0 8 40, fdr 21 8 100 10000, fd 31 24]⟩

/-- FB_SSI_LEAD (R285). -/
def FB_SSI_LEAD : Reg := ⟨0x20088, .st, 0x7530, .one 0x20000, [fd 19 0]⟩

/-- FB_STEP (R285). -/
def FB_STEP : Reg := ⟨0x2008C, .st, 0x8, .one 0x20000, [fdr 6 0 1 127]⟩

/-- FB_STEP_CNT (R285). -/
def FB_STEP_CNT : Reg := ⟨0x20090, .hw, 0x0, .one 0x20000, [fd 31 0]⟩

/-- FB_SD_CLK (R285). -/
def FB_SD_CLK : Reg := ⟨0x200A0, .st, 0x3232, .none, [fdr 7 0 40 200, fdr 15 8 40 200, fd 16 16, fd 17 17]⟩

/-- FB_SD_CFG (R285). -/
def FB_SD_CFG : Reg := ⟨0x200A4, .st, 0x40000040, .one 0x20000, [fdr 8 0 16 256, fd 16 12, fdr 31 24 32 255]⟩

/-- FB_SD_OFS number `k`, below 3 (R285). -/
def FB_SD_OFS (k : Nat) : Reg := ⟨0x200B0 + 4 * k, .st, 0x0, .one 0x20000, [fd 23 0]⟩

/-- FB_SD_GAIN number `k`, below 3 (R285). -/
def FB_SD_GAIN (k : Nat) : Reg := ⟨0x200C0 + 4 * k, .st, 0x400000, .one 0x20000, [fdr 23 0 0 8388607]⟩

/-- FB_SD_CMPH number `k`, below 3 (R285). -/
def FB_SD_CMPH (k : Nat) : Reg := ⟨0x200D0 + 4 * k, .st, 0x7FFFFF, .one 0x20000, [fd 23 0]⟩

/-- FB_SD_CMPL number `k`, below 3 (R285). -/
def FB_SD_CMPL (k : Nat) : Reg := ⟨0x200E0 + 4 * k, .st, 0x800000, .one 0x20000, [fd 23 0]⟩

/-- PWM_MOD_SEL (R319). -/
def PWM_MOD_SEL : Reg := ⟨0x24000, .rw, 0x0, .none, [fd 2 0]⟩

/-- PWM_CTL (R319). -/
def PWM_CTL : Reg := ⟨0x24010, .st, 0x81, .one 0x24000, [fd 0 0, fd 1 1, fd 2 2, fd 3 3, fd 4 4, fd 5 5, fd 6 6, fd 7 7]⟩

/-- PWM_EN (R319). -/
def PWM_EN : Reg := ⟨0x24014, .rw, 0x0, .one 0x24000, [fd 0 0]⟩

/-- PWM_PER (R319). -/
def PWM_PER : Reg := ⟨0x24018, .st, 0x7A12, .one 0x24000, [fdr 19 0 1000 1048575]⟩

/-- PWM_DT (R319). -/
def PWM_DT : Reg := ⟨0x2401C, .st, 0x1F401F4, .one 0x24000, [fd 11 0, fd 27 16]⟩

/-- PWM_MINP (R319). -/
def PWM_MINP : Reg := ⟨0x24020, .st, 0x64, .one 0x24000, [fd 11 0]⟩

/-- PWM_SYNC (R319). -/
def PWM_SYNC : Reg := ⟨0x24024, .st, 0x0, .one 0x24000, [fd 19 0]⟩

/-- PWM_SYNC_DLY (R319). -/
def PWM_SYNC_DLY : Reg := ⟨0x24028, .st, 0x0, .one 0x24000, [fd 19 0]⟩

/-- PWM_FLT_MAP0 (R319). -/
def PWM_FLT_MAP0 : Reg := ⟨0x24030, .st, 0x8040201, .none, [fd 31 0]⟩

/-- PWM_FLT_MAP1 (R319). -/
def PWM_FLT_MAP1 : Reg := ⟨0x24034, .st, 0x80402010, .none, [fd 31 0]⟩

/-- PWM_FLT_MAP2 (R319). -/
def PWM_FLT_MAP2 : Reg := ⟨0x24038, .st, 0xFFFF00FF, .none, [fd 31 0]⟩

/-- PWM_FLT_MAP3 (R319). -/
def PWM_FLT_MAP3 : Reg := ⟨0x2403C, .st, 0xFF, .none, [fd 15 0]⟩

/-- PWM_FLT_FILT (R319). -/
def PWM_FLT_FILT : Reg := ⟨0x24040, .st, 0x5, .none, [fd 6 0]⟩

/-- PWM_FLT_SRC (R319). -/
def PWM_FLT_SRC : Reg := ⟨0x24044, .hw, 0x0, .none, [fd 15 0]⟩

/-- PWM_STATE (R319). -/
def PWM_STATE : Reg := ⟨0x24050, .hw, 0x0, .one 0x24000, [fd 4 4, fd 1 0]⟩

/-- PWM_FLT_LATCH (R319). -/
def PWM_FLT_LATCH : Reg := ⟨0x24054, .w1c, 0x0, .one 0x24000, [fd 15 0]⟩

/-- PWM_CARRY number `k`, below 3 (R319). -/
def PWM_CARRY (k : Nat) : Reg := ⟨0x24060 + 4 * k, .hw, 0x0, .one 0x24000, [fd 17 0]⟩

/-- PWM_DIFF number `k`, below 3 (R319). -/
def PWM_DIFF (k : Nat) : Reg := ⟨0x24070 + 4 * k, .ro, 0x0, .one 0x24000, [fd 31 0]⟩

/-- PWM_SATSUM number `k`, below 3 (R319). -/
def PWM_SATSUM (k : Nat) : Reg := ⟨0x24080 + 4 * k, .ro, 0x0, .one 0x24000, [fd 31 0]⟩

/-- PWM_CARRY_L number `k`, below 3 (R319). -/
def PWM_CARRY_L (k : Nat) : Reg := ⟨0x24090 + 4 * k, .ro, 0x0, .one 0x24000, [fd 17 0]⟩

/-- PWM_LATCH (R319). -/
def PWM_LATCH : Reg := ⟨0x2409C, .wo, 0x0, .one 0x24000, [fd 0 0]⟩

/-- PWM_DROP (R319). -/
def PWM_DROP : Reg := ⟨0x240A0, .rc, 0x0, .one 0x24000, [fd 31 0]⟩

/-- PWM_FULL (R319). -/
def PWM_FULL : Reg := ⟨0x240A4, .rc, 0x0, .one 0x24000, [fd 31 0]⟩

/-- PWM_CARRY_SAT (R319). -/
def PWM_CARRY_SAT : Reg := ⟨0x240A8, .rc, 0x0, .one 0x24000, [fd 31 0]⟩

/-- PWM_LATE_WRITE (R319). -/
def PWM_LATE_WRITE : Reg := ⟨0x240AC, .rc, 0x0, .one 0x24000, [fd 31 0]⟩

/-- PWM_REPLACED (R319). -/
def PWM_REPLACED : Reg := ⟨0x240B0, .rc, 0x0, .one 0x24000, [fd 31 0]⟩

/-- PWM_BAD_SET (R319). -/
def PWM_BAD_SET : Reg := ⟨0x240B4, .rc, 0x0, .one 0x24000, [fd 31 0]⟩

/-- PWM_FAULTS (R319). -/
def PWM_FAULTS : Reg := ⟨0x240B8, .rc, 0x0, .one 0x24000, [fd 31 0]⟩

/-- PWM_SYNC_SLEW (R319). -/
def PWM_SYNC_SLEW : Reg := ⟨0x240BC, .rc, 0x0, .one 0x24000, [fd 31 0]⟩

/-- PRF_MS_SEL (R374). -/
def PRF_MS_SEL : Reg := ⟨0x28000, .rw, 0x0, .none, [fd 3 0]⟩

/-- PRF_MS_CFG (R374). -/
def PRF_MS_CFG : Reg := ⟨0x28004, .st, 0x30000, .one 0x28000, [fdr 2 0 0 4, fd 15 8, fd 19 16]⟩

/-- PRF_MS_POS_LO (R374). -/
def PRF_MS_POS_LO : Reg := ⟨0x28008, .hw, 0x0, .one 0x28000, [fd 31 0]⟩

/-- PRF_MS_POS_HI (R374). -/
def PRF_MS_POS_HI : Reg := ⟨0x2800C, .hw, 0x0, .one 0x28000, [fd 31 0]⟩

/-- PRF_MS_VEL_LO (R374). -/
def PRF_MS_VEL_LO : Reg := ⟨0x28010, .hw, 0x0, .one 0x28000, [fd 31 0]⟩

/-- PRF_MS_VEL_HI (R374). -/
def PRF_MS_VEL_HI : Reg := ⟨0x28014, .hw, 0x0, .one 0x28000, [fd 31 0]⟩

/-- PRF_MS_STATUS (R374). -/
def PRF_MS_STATUS : Reg := ⟨0x28018, .hw, 0x0, .one 0x28000, [fd 7 4, fd 0 0]⟩

/-- PRF_GRP_SEL (R374). -/
def PRF_GRP_SEL : Reg := ⟨0x28040, .rw, 0x0, .none, [fd 4 0]⟩

/-- PRF_GRP_STATUS (R374). -/
def PRF_GRP_STATUS : Reg := ⟨0x28044, .hw, 0x0, .one 0x28040, [fd 25 24, fd 22 16, fd 15 0]⟩

/-- PRF_CT_SEL (R374). -/
def PRF_CT_SEL : Reg := ⟨0x28060, .rw, 0x0, .none, [fd 5 0]⟩

/-- PRF_CT_STATUS (R374). -/
def PRF_CT_STATUS : Reg := ⟨0x28064, .hw, 0x0, .one 0x28060, [fd 31 31, fd 30 30, fd 12 12, fd 10 0]⟩

/-- EVT_SEL (R374). -/
def EVT_SEL : Reg := ⟨0x28100, .rw, 0x0, .none, [fd 7 0]⟩

/-- EVT_GO_OWN (R374). -/
def EVT_GO_OWN : Reg := ⟨0x28104, .st, 0x0, .none, [fd 15 0]⟩

/-- EVT_STATUS (R374). -/
def EVT_STATUS : Reg := ⟨0x28108, .hw, 0x0, .one 0x28100, [fd 15 8, fd 2 2, fd 1 1, fd 0 0]⟩

/-- EVT_NEXT (R374). -/
def EVT_NEXT : Reg := ⟨0x2810C, .hw, 0x0, .one 0x28100, [fd 31 0]⟩

/-- EVT_FIRED (R374). -/
def EVT_FIRED : Reg := ⟨0x28110, .rc, 0x0, .one 0x28100, [fd 31 0]⟩

/-- EVT_LATE (R374). -/
def EVT_LATE : Reg := ⟨0x28114, .rc, 0x0, .one 0x28100, [fd 31 0]⟩

/-- PRF_LIM_SEL (R403). -/
def PRF_LIM_SEL : Reg := ⟨0x28200, .rw, 0x1, .none, [fdr 7 0 1 128]⟩

/-- PRF_LIM_CFG (R403). -/
def PRF_LIM_CFG : Reg := ⟨0x28204, .st, 0x30A32, .one 0x28200, [fdr 7 0 1 255, fdr 15 8 2 255, fd 16 16, fd 17 17, fd 18 18, fd 21 19]⟩

/-- PRF_LIM_STATUS (R403). -/
def PRF_LIM_STATUS : Reg := ⟨0x28208, .hw, 0x0, .one 0x28200, [fd 16 16, fd 14 12, fd 10 8, fd 6 4, fd 2 0]⟩

/-- PRF_LIM_TRANS (R403). -/
def PRF_LIM_TRANS : Reg := ⟨0x2820C, .rc, 0x0, .one 0x28200, [fd 31 0]⟩

/-- PRF_LIM_CHAT (R403). -/
def PRF_LIM_CHAT : Reg := ⟨0x28210, .rc, 0x0, .one 0x28200, [fd 31 0]⟩

/-- LNK_PORT_SEL (R475). -/
def LNK_PORT_SEL : Reg := ⟨0x30000, .rw, 0x0, .none, [fdr 2 0 0 4]⟩

/-- LNK_PORT_CTL (R475). -/
def LNK_PORT_CTL : Reg := ⟨0x30004, .st, 0x0, .one 0x30000, [fd 0 0]⟩

/-- LNK_PORT_STATUS (R475). -/
def LNK_PORT_STATUS : Reg := ⟨0x30008, .hw, 0x0, .one 0x30000, [fd 4 0]⟩

/-- LNK_RX_CELLS (R475). -/
def LNK_RX_CELLS : Reg := ⟨0x30010, .rc, 0x0, .one 0x30000, [fd 31 0]⟩

/-- LNK_RX_HCRC (R475). -/
def LNK_RX_HCRC : Reg := ⟨0x30014, .rc, 0x0, .one 0x30000, [fd 31 0]⟩

/-- LNK_RX_CRC (R475). -/
def LNK_RX_CRC : Reg := ⟨0x30018, .rc, 0x0, .one 0x30000, [fd 31 0]⟩

/-- LNK_RX_FRAMING (R475). -/
def LNK_RX_FRAMING : Reg := ⟨0x3001C, .rc, 0x0, .one 0x30000, [fd 31 0]⟩

/-- LNK_TX_CELLS (R475). -/
def LNK_TX_CELLS : Reg := ⟨0x30020, .rc, 0x0, .one 0x30000, [fd 31 0]⟩

/-- LNK_CARRIER_RET (R475). -/
def LNK_CARRIER_RET : Reg := ⟨0x30024, .rc, 0x0, .one 0x30000, [fd 31 0]⟩

/-- LNK_STRIP_MISS (R475). -/
def LNK_STRIP_MISS : Reg := ⟨0x30028, .rc, 0x0, .one 0x30000, [fd 31 0]⟩

/-- LNK_I2C_CTL (R475). -/
def LNK_I2C_CTL : Reg := ⟨0x30030, .rw, 0x0, .one 0x30000, [fd 31 31, fd 30 30, fd 23 16, fd 15 8, fd 7 1]⟩

/-- LNK_I2C_DATA (R475). -/
def LNK_I2C_DATA : Reg := ⟨0x30034, .hw, 0x0, .one 0x30000, [fd 9 9, fd 8 8, fd 7 0]⟩

/-- LNK_DIR_SEL (R475). -/
def LNK_DIR_SEL : Reg := ⟨0x30080, .rw, 0x0, .none, [fd 1 0]⟩

/-- LNK_CREDIT (R475). -/
def LNK_CREDIT : Reg := ⟨0x30084, .hw, 0x0, .one 0x30080, [fd 31 16, fd 15 0]⟩

/-- LNK_ACYC (R475). -/
def LNK_ACYC : Reg := ⟨0x30088, .st, 0x10, .none, [fd 9 0]⟩

/-- LNK_ACYC_USED (R475). -/
def LNK_ACYC_USED : Reg := ⟨0x3008C, .hw, 0x0, .one 0x30080, [fd 15 0]⟩

/-- LNK_ACYC_DEFER (R475). -/
def LNK_ACYC_DEFER : Reg := ⟨0x30090, .rc, 0x0, .one 0x30080, [fd 31 0]⟩

/-- LNK_TX_BAD (R475). -/
def LNK_TX_BAD : Reg := ⟨0x30094, .rc, 0x0, .one 0x30080, [fd 31 0]⟩

/-- LNK_ADM (R475). -/
def LNK_ADM : Reg := ⟨0x300C0, .st, 0x10, .none, [fdr 7 0 1 255]⟩

/-- LNK_ADM_TIMEOUT (R475). -/
def LNK_ADM_TIMEOUT : Reg := ⟨0x300C4, .rc, 0x0, .none, [fd 31 0]⟩

/-- LNK_NODE_SEL (R475). -/
def LNK_NODE_SEL : Reg := ⟨0x30100, .rw, 0x1, .none, [fd 8 8, fdr 7 0 1 254]⟩

/-- LNK_NODE_IO (R475). -/
def LNK_NODE_IO : Reg := ⟨0x30104, .st, 0x0, .one 0x30100, [fdr 2 0 0 4, fdr 6 4 0 4, fd 9 8]⟩

/-- LNK_NODE_PROF (R475). -/
def LNK_NODE_PROF : Reg := ⟨0x30108, .st, 0x0, .one 0x30100, [fd 15 0]⟩

/-- LNK_NODE_STATUS (R475). -/
def LNK_NODE_STATUS : Reg := ⟨0x3010C, .hw, 0x0, .one 0x30100, [fd 2 0]⟩

/-- LNK_TUN_DROP (R475). -/
def LNK_TUN_DROP : Reg := ⟨0x30140, .rc, 0x0, .none, [fd 31 0]⟩

/-- RING_SEL (R502). -/
def RING_SEL : Reg := ⟨0x34000, .rw, 0x0, .none, [fd 0 0]⟩

/-- RING_CTL (R502). -/
def RING_CTL : Reg := ⟨0x34004, .st, 0x7, .one 0x34000, [fdr 15 8 0 254, fd 2 2, fd 1 1, fd 0 0]⟩

/-- RING_CMD (R502). -/
def RING_CMD : Reg := ⟨0x34008, .wo, 0x0, .one 0x34000, [fd 2 0]⟩

/-- RING_TIME (R502). -/
def RING_TIME : Reg := ⟨0x3400C, .st, 0xA0032, .one 0x34000, [fdr 23 16 1 255, fdr 7 0 1 255]⟩

/-- RING_STATUS (R502). -/
def RING_STATUS : Reg := ⟨0x34010, .hw, 0x0, .one 0x34000, [fd 31 24, fd 23 16, fd 15 8, fd 2 0]⟩

/-- RING_LOOP_CW (R502). -/
def RING_LOOP_CW : Reg := ⟨0x34014, .hw, 0x0, .one 0x34000, [fd 31 0]⟩

/-- RING_LOOP_CCW (R502). -/
def RING_LOOP_CCW : Reg := ⟨0x34018, .hw, 0x0, .one 0x34000, [fd 31 0]⟩

/-- RING_SEG_SEL (R502). -/
def RING_SEG_SEL : Reg := ⟨0x34020, .rw, 0x1, .none, [fdr 7 0 1 255]⟩

/-- RING_SEG_DELAY (R502). -/
def RING_SEG_DELAY : Reg := ⟨0x34024, .hw, 0xFFFFFFFF, .two 0x34000 0x34020, [fd 31 0]⟩

/-- RING_NODE_SEL (R502). -/
def RING_NODE_SEL : Reg := ⟨0x34030, .rw, 0x1, .none, [fdr 7 0 1 254]⟩

/-- RING_NODE_ID (R502). -/
def RING_NODE_ID : Reg := ⟨0x34034, .hw, 0x0, .two 0x34000 0x34030, [fd 31 0]⟩

/-- RING_NODE_CAPS (R502). -/
def RING_NODE_CAPS : Reg := ⟨0x34038, .hw, 0x0, .two 0x34000 0x34030, [fd 31 0]⟩

/-- RING_NODE_PREP (R502). -/
def RING_NODE_PREP : Reg := ⟨0x3403C, .hw, 0x0, .two 0x34000 0x34030, [fd 31 0]⟩

/-- RING_NODE_PD (R502). -/
def RING_NODE_PD : Reg := ⟨0x34040, .hw, 0x0, .two 0x34000 0x34030, [fd 31 0]⟩

/-- RING_NODE_DIR (R502). -/
def RING_NODE_DIR : Reg := ⟨0x34044, .st, 0x0, .two 0x34000 0x34030, [fd 0 0]⟩

/-- RING_NODE_STATE (R502). -/
def RING_NODE_STATE : Reg := ⟨0x34048, .hw, 0x0, .two 0x34000 0x34030, [fd 15 8, fd 1 1, fd 0 0]⟩

/-- RING_INTAKE_DEFERRED number `k`, below 2 (R502). -/
def RING_INTAKE_DEFERRED (k : Nat) : Reg := ⟨0x34060 + 4 * k, .rc, 0x0, .one 0x34000, [fd 31 0]⟩

/-- RING_JOINS (R502). -/
def RING_JOINS : Reg := ⟨0x34068, .rc, 0x0, .one 0x34000, [fd 31 0]⟩

/-- RING_REFUSED (R502). -/
def RING_REFUSED : Reg := ⟨0x3406C, .rc, 0x0, .one 0x34000, [fd 31 0]⟩

/-- RING_BREAKS (R502). -/
def RING_BREAKS : Reg := ⟨0x34070, .rc, 0x0, .one 0x34000, [fd 31 0]⟩

/-- RING_RESTORES (R502). -/
def RING_RESTORES : Reg := ⟨0x34074, .rc, 0x0, .one 0x34000, [fd 31 0]⟩

/-- TWIN_CTL (R565). -/
def TWIN_CTL : Reg := ⟨0x38000, .st, 0x64141120, .none, [fdr 31 24 1 255, fdr 23 16 10 200, fd 12 12, fd 11 8, fdr 7 4 1 8, fd 1 1, fd 0 0]⟩

/-- TWIN_CLAIM (R565). -/
def TWIN_CLAIM : Reg := ⟨0x38004, .hw, 0x0, .none, [fd 15 8, fd 7 0]⟩

/-- TWIN_STATUS (R565). -/
def TWIN_STATUS : Reg := ⟨0x38008, .hw, 0x0, .none, [fd 23 16, fd 15 12, fd 8 8, fd 6 4, fd 2 0]⟩

/-- TWIN_CFG_DIGEST (R565). -/
def TWIN_CFG_DIGEST : Reg := ⟨0x3800C, .hw, 0x0, .none, [fd 31 0]⟩

/-- TWIN_PCFG_DIGEST (R565). -/
def TWIN_PCFG_DIGEST : Reg := ⟨0x38010, .hw, 0x0, .none, [fd 31 0]⟩

/-- TWIN_MIX (R565). -/
def TWIN_MIX : Reg := ⟨0x38014, .st, 0xA, .none, [fdr 7 0 1 255]⟩

/-- TWIN_CTX_SYNC number `k`, below 8 (R565). -/
def TWIN_CTX_SYNC (k : Nat) : Reg := ⟨0x38020 + 4 * k, .hw, 0x0, .none, [fd 31 0]⟩

/-- TWIN_MSEQ (R565). -/
def TWIN_MSEQ : Reg := ⟨0x38040, .hw, 0x0, .none, [fd 15 0]⟩

/-- TWIN_OFFSET (R565). -/
def TWIN_OFFSET : Reg := ⟨0x38044, .hw, 0x0, .none, [fd 31 0]⟩

/-- TWIN_HB_MISS (R565). -/
def TWIN_HB_MISS : Reg := ⟨0x38060, .rc, 0x0, .none, [fd 31 0]⟩

/-- TWIN_DIG_MISM (R565). -/
def TWIN_DIG_MISM : Reg := ⟨0x38064, .rc, 0x0, .none, [fd 31 0]⟩

/-- TWIN_DIG_SKIP (R565). -/
def TWIN_DIG_SKIP : Reg := ⟨0x38068, .rc, 0x0, .none, [fd 31 0]⟩

/-- TWIN_MIRRORED (R565). -/
def TWIN_MIRRORED : Reg := ⟨0x3806C, .rc, 0x0, .none, [fd 31 0]⟩

/-- TWIN_MIX_RPT (R565). -/
def TWIN_MIX_RPT : Reg := ⟨0x38070, .rc, 0x0, .none, [fd 31 0]⟩

/-- TWIN_SWITCHES (R565). -/
def TWIN_SWITCHES : Reg := ⟨0x38074, .rc, 0x0, .none, [fd 31 0]⟩

/-- GUARD_A_STATE (R602). -/
def GUARD_A_STATE : Reg := ⟨0x40000, .hw, 0x0, .none, [fd 24 24, fd 20 20, fd 18 16, fd 11 8, fd 2 0]⟩

/-- GUARD_A_NEAR (R602). -/
def GUARD_A_NEAR : Reg := ⟨0x40004, .hw, 0x0, .none, [fd 31 0]⟩

/-- GUARD_A_NEAR_FLT (R602). -/
def GUARD_A_NEAR_FLT : Reg := ⟨0x40008, .hw, 0x0, .none, [fd 31 0]⟩

/-- GUARD_A_SI (R602). -/
def GUARD_A_SI : Reg := ⟨0x4000C, .hw, 0x0, .none, [fd 23 0]⟩

/-- GUARD_A_FAR_SEL (R602). -/
def GUARD_A_FAR_SEL : Reg := ⟨0x40010, .rw, 0x1, .none, [fdr 7 0 1 128]⟩

/-- GUARD_A_FAR (R602). -/
def GUARD_A_FAR : Reg := ⟨0x40014, .hw, 0x0, .one 0x40010, [fd 4 0]⟩

/-- GUARD_A_CFG_CRC (R602). -/
def GUARD_A_CFG_CRC : Reg := ⟨0x40018, .hw, 0x0, .none, [fd 31 0]⟩

/-- GUARD_A_LOG (R602). -/
def GUARD_A_LOG : Reg := ⟨0x4001C, .hw, 0x0, .none, [fd 23 16, fd 8 0]⟩

/-- GUARD_A_SBT (R602). -/
def GUARD_A_SBT : Reg := ⟨0x40020, .hw, 0x0, .none, [fd 17 16, fd 15 8, fd 3 1, fd 0 0]⟩

/-- GUARD_A_TESTS (R602). -/
def GUARD_A_TESTS : Reg := ⟨0x40040, .rc, 0x0, .none, [fd 31 0]⟩

/-- GUARD_A_TEST_FAIL (R602). -/
def GUARD_A_TEST_FAIL : Reg := ⟨0x40044, .rc, 0x0, .none, [fd 31 0]⟩

/-- GUARD_A_DEMANDS (R602). -/
def GUARD_A_DEMANDS : Reg := ⟨0x40048, .rc, 0x0, .none, [fd 31 0]⟩

/-- GUARD_A_PW_FAIL (R602). -/
def GUARD_A_PW_FAIL : Reg := ⟨0x4004C, .rc, 0x0, .none, [fd 31 0]⟩

/-- GUARD_A_DESC_CRC (R602). -/
def GUARD_A_DESC_CRC : Reg := ⟨0x40050, .rc, 0x0, .none, [fd 31 0]⟩

/-- GUARD_B_STATE (R602). -/
def GUARD_B_STATE : Reg := ⟨0x48000, .hw, 0x0, .none, [fd 24 24, fd 20 20, fd 18 16, fd 11 8, fd 2 0]⟩

/-- GUARD_B_NEAR (R602). -/
def GUARD_B_NEAR : Reg := ⟨0x48004, .hw, 0x0, .none, [fd 31 0]⟩

/-- GUARD_B_NEAR_FLT (R602). -/
def GUARD_B_NEAR_FLT : Reg := ⟨0x48008, .hw, 0x0, .none, [fd 31 0]⟩

/-- GUARD_B_SI (R602). -/
def GUARD_B_SI : Reg := ⟨0x4800C, .hw, 0x0, .none, [fd 23 0]⟩

/-- GUARD_B_FAR_SEL (R602). -/
def GUARD_B_FAR_SEL : Reg := ⟨0x48010, .rw, 0x1, .none, [fdr 7 0 1 128]⟩

/-- GUARD_B_FAR (R602). -/
def GUARD_B_FAR : Reg := ⟨0x48014, .hw, 0x0, .one 0x48010, [fd 4 0]⟩

/-- GUARD_B_CFG_CRC (R602). -/
def GUARD_B_CFG_CRC : Reg := ⟨0x48018, .hw, 0x0, .none, [fd 31 0]⟩

/-- GUARD_B_LOG (R602). -/
def GUARD_B_LOG : Reg := ⟨0x4801C, .hw, 0x0, .none, [fd 23 16, fd 8 0]⟩

/-- GUARD_B_SBT (R602). -/
def GUARD_B_SBT : Reg := ⟨0x48020, .hw, 0x0, .none, [fd 17 16, fd 15 8, fd 3 1, fd 0 0]⟩

/-- GUARD_B_TESTS (R602). -/
def GUARD_B_TESTS : Reg := ⟨0x48040, .rc, 0x0, .none, [fd 31 0]⟩

/-- GUARD_B_TEST_FAIL (R602). -/
def GUARD_B_TEST_FAIL : Reg := ⟨0x48044, .rc, 0x0, .none, [fd 31 0]⟩

/-- GUARD_B_DEMANDS (R602). -/
def GUARD_B_DEMANDS : Reg := ⟨0x48048, .rc, 0x0, .none, [fd 31 0]⟩

/-- GUARD_B_PW_FAIL (R602). -/
def GUARD_B_PW_FAIL : Reg := ⟨0x4804C, .rc, 0x0, .none, [fd 31 0]⟩

/-- GUARD_B_DESC_CRC (R602). -/
def GUARD_B_DESC_CRC : Reg := ⟨0x48050, .rc, 0x0, .none, [fd 31 0]⟩

/-- ACQ_SEL (R675). -/
def ACQ_SEL : Reg := ⟨0x50000, .rw, 0x0, .none, [fd 2 0]⟩

/-- ACQ_CFG (R675). -/
def ACQ_CFG : Reg := ⟨0x50010, .st, 0x10000, .one 0x50000, [fdr 31 16 1 65535, fd 0 0]⟩

/-- ACQ_FPER (R675). -/
def ACQ_FPER : Reg := ⟨0x50014, .st, 0x3E8, .one 0x50000, [fdr 15 0 1000 65535]⟩

/-- ACQ_GRP (R675). -/
def ACQ_GRP : Reg := ⟨0x50018, .st, 0x0, .one 0x50000, [fd 7 0]⟩

/-- ACQ_PAT_CARE (R675). -/
def ACQ_PAT_CARE : Reg := ⟨0x50020, .st, 0x0, .one 0x50000, [fd 31 0]⟩

/-- ACQ_PAT_VAL (R675). -/
def ACQ_PAT_VAL : Reg := ⟨0x50024, .st, 0x0, .one 0x50000, [fd 31 0]⟩

/-- ACQ_LT0 (R675). -/
def ACQ_LT0 : Reg := ⟨0x50030, .st, 0x100, .one 0x50000, [fdr 9 8 1 3, fd 4 0]⟩

/-- ACQ_LT1 (R675). -/
def ACQ_LT1 : Reg := ⟨0x50040, .st, 0x100, .one 0x50000, [fdr 9 8 1 3, fd 4 0]⟩

/-- ACQ_LT0_LVL (R675). -/
def ACQ_LT0_LVL : Reg := ⟨0x50034, .st, 0x0, .one 0x50000, [fd 23 0]⟩

/-- ACQ_LT1_LVL (R675). -/
def ACQ_LT1_LVL : Reg := ⟨0x50044, .st, 0x0, .one 0x50000, [fd 23 0]⟩

/-- ACQ_LT0_HYST (R675). -/
def ACQ_LT0_HYST : Reg := ⟨0x50038, .st, 0x0, .one 0x50000, [fdr 23 0 0 8388607]⟩

/-- ACQ_LT1_HYST (R675). -/
def ACQ_LT1_HYST : Reg := ⟨0x50048, .st, 0x0, .one 0x50000, [fdr 23 0 0 8388607]⟩

/-- ACQ_TRIG_CTL (R675). -/
def ACQ_TRIG_CTL : Reg := ⟨0x50050, .st, 0x0, .one 0x50000, [fd 31 16, fd 5 0]⟩

/-- ACQ_STATUS (R675). -/
def ACQ_STATUS : Reg := ⟨0x50060, .hw, 0x0, .one 0x50000, [fd 23 16, fd 15 8, fd 7 7, fd 6 4, fd 1 0]⟩

/-- ACQ_CH number `k`, below 32 (R675). -/
def ACQ_CH (k : Nat) : Reg := ⟨0x50100 + 4 * k, .st, 0x0, .one 0x50000, [fd 31 0]⟩

/-- ACQ_BW number `k`, below 9 (R675). -/
def ACQ_BW (k : Nat) : Reg := ⟨0x50200 + 4 * k, .st, 0x10, .none, [fdr 9 0 0 500]⟩

/-- ACQ_PAGE_TMO (R675). -/
def ACQ_PAGE_TMO : Reg := ⟨0x50230, .st, 0x2710, .none, [fdr 15 0 10 65535]⟩

/-- ACQ_TRIG_IO (R675). -/
def ACQ_TRIG_IO : Reg := ⟨0x50234, .st, 0x0, .none, [fd 7 0]⟩

/-- ACQ_SMP_PROD (R675). -/
def ACQ_SMP_PROD : Reg := ⟨0x50300, .ro, 0x0, .one 0x50000, [fd 31 0]⟩

/-- ACQ_SMP_WR (R675). -/
def ACQ_SMP_WR : Reg := ⟨0x50304, .ro, 0x0, .one 0x50000, [fd 31 0]⟩

/-- ACQ_SMP_GAP (R675). -/
def ACQ_SMP_GAP : Reg := ⟨0x50308, .ro, 0x0, .one 0x50000, [fd 31 0]⟩

/-- ACQ_SMP_PEND (R675). -/
def ACQ_SMP_PEND : Reg := ⟨0x5030C, .ro, 0x0, .one 0x50000, [fd 31 0]⟩

/-- ACQ_LATCH (R675). -/
def ACQ_LATCH : Reg := ⟨0x50310, .wo, 0x0, .one 0x50000, [fd 0 0]⟩

/-- ACQ_ROWS_GAP (R675). -/
def ACQ_ROWS_GAP : Reg := ⟨0x50320, .rc, 0x0, .one 0x50000, [fd 31 0]⟩

/-- ACQ_FIRES (R675). -/
def ACQ_FIRES : Reg := ⟨0x50324, .rc, 0x0, .one 0x50000, [fd 31 0]⟩

/-- ACQ_STALE (R675). -/
def ACQ_STALE : Reg := ⟨0x50328, .rc, 0x0, .one 0x50000, [fd 31 0]⟩

/-- REC_STATUS (R705). -/
def REC_STATUS : Reg := ⟨0x58000, .hw, 0x0, .none, [fd 23 16, fd 6 4, fd 3 0]⟩

/-- REC_SEQ (R705). -/
def REC_SEQ : Reg := ⟨0x58004, .hw, 0x0, .none, [fd 31 0]⟩

/-- REC_MINUTES (R705). -/
def REC_MINUTES : Reg := ⟨0x58008, .hw, 0x0, .none, [fd 31 0]⟩

/-- REC_FREE (R705). -/
def REC_FREE : Reg := ⟨0x5800C, .hw, 0x0, .none, [fd 26 16, fd 10 0]⟩

/-- REC_RETIRED (R705). -/
def REC_RETIRED : Reg := ⟨0x58010, .hw, 0x0, .none, [fd 23 16, fd 7 0]⟩

/-- REC_FLUSHES (R705). -/
def REC_FLUSHES : Reg := ⟨0x58020, .rc, 0x0, .none, [fd 31 0]⟩

/-- REC_FLUSH_MAX (R705). -/
def REC_FLUSH_MAX : Reg := ⟨0x58024, .rc, 0x0, .none, [fd 15 0]⟩

/-- REC_ABANDONED (R705). -/
def REC_ABANDONED : Reg := ⟨0x58028, .rc, 0x0, .none, [fd 31 0]⟩

/-- FIELD_GO_OWN (R776). -/
def FIELD_GO_OWN : Reg := ⟨0x60000, .st, 0x0, .none, [fd 15 0]⟩

/-- FIELD_GO (R776). -/
def FIELD_GO : Reg := ⟨0x60004, .rw, 0x0, .none, [fd 15 0]⟩

/-- FIELD_GO_STATUS (R776). -/
def FIELD_GO_STATUS : Reg := ⟨0x60008, .hw, 0x0, .none, [fd 31 16, fd 15 0]⟩

/-- FIELD_GI (R776). -/
def FIELD_GI : Reg := ⟨0x6000C, .hw, 0x0, .none, [fd 15 0]⟩

/-- FIELD_GI_FLT (R776). -/
def FIELD_GI_FLT : Reg := ⟨0x60010, .st, 0xA, .none, [fdr 7 0 1 255]⟩

/-- FIELD_GO_FAULTS (R776). -/
def FIELD_GO_FAULTS : Reg := ⟨0x60014, .rc, 0x0, .none, [fd 31 0]⟩

/-- The SYS registers of R774. -/
def regsSysR774 : List Reg :=
  [SYS_ID, SYS_REV, SYS_UID_LO, SYS_UID_HI, SYS_RST, SYS_RST_CAUSE, SYS_STRAP, SYS_SCRATCH,
    SYS_COMMIT_ALL, SYS_STAGE_PEND]

/-- The PWR registers of R732. -/
def regsPwrR732 : List Reg :=
  [PWR_DOM_SEL, PWR_DOM_STATUS, PWR_SUMMARY, PWR_CAB_IDLE, PWR_WAKE, PWR_VIN, PWR_TJ, PWR_VIO,
    PWR_ENTRIES, PWR_WAKES, PWR_REPLAYS, PWR_LOST, PWR_REFUSED_CNT, PWR_ACC_OFF, PWR_WAKE_MAX]

/-- The TIME registers of R533. -/
def regsTimeR533 : List Reg :=
  [TIME_CTL, TIME_JUMP, TIME_SERVO, TIME_FLIM, TIME_LOCK, TIME_ASYM, TIME_MSG, TIME_IP,
    TIME_STATE, TIME_OFFSET, TIME_RATE, TIME_SLEW_LEFT_LO, TIME_SLEW_LEFT_HI, TIME_BT_LO,
    TIME_BT_HI, TIME_MPD, TIME_GM_LO, TIME_GM_HI, TIME_PTP_RX, TIME_PTP_EARLY, TIME_PTP_BAD,
    TIME_REFUSED, TIME_STEPS]

/-- The HOST registers of R646. -/
def regsHostR646 : List Reg :=
  [HOST_CTL, HOST_DB_POLL, HOST_WDT, HOST_DB_BASE_LO, HOST_DB_BASE_HI, HOST_STATUS,
    HOST_RING_SEL, HOST_RING_BASE_LO, HOST_RING_BASE_HI, HOST_RING_CFG, HOST_CQ_MOD,
    HOST_RING_STATUS, HOST_RING_PEND, HOST_RING_ERR, HOST_EVT_SEL, HOST_EVT_CQ, HOST_FW_STATUS,
    HOST_DESC_FETCHED, HOST_CPL_CMD, HOST_CMD_OPEN, HOST_CMD_DISCARD, HOST_EVT_POSTED,
    HOST_EVT_WRITTEN, HOST_EVT_HELD, HOST_EVT_DISCARD, HOST_LATCH, HOST_SUMMARY, HOST_DMA_ERR,
    HOST_BAR2_DROP]

/-- The DISP registers of R57. -/
def regsDispR57 : List Reg :=
  [DISP_CYC_PERIOD, DISP_CYC_HINGE, DISP_CYC_SAMPLE, DISP_CYC_CARRIER, DISP_CYC_DEADLINE,
    DISP_CYC_CTL, DISP_CYC_STATUS, DISP_CYC_COUNT, DISP_CYC_T0, DISP_CYC_LOAD, DISP_CYC_OVR,
    DISP_CYC_ABORTS, DISP_CYC_LATE_UP, DISP_CYC_TA_LATE, DISP_CYC_CMD_DEFER, DISP_CYC_BG_ABORT,
    DISP_CYC_DONE_MAX]

/-- The DISP registers of R98. -/
def regsDispR98 : List Reg :=
  [DISP_AFF, DISP_PLACE, DISP_TRC_CTL, DISP_TPL_SEL, DISP_TPL_HDR_LO, DISP_TPL_HDR_HI,
    DISP_CTX_STATUS, DISP_CTX_OVR_RUN, DISP_CTX_OVR_READY, DISP_CTX_OVR_WAIT, DISP_FLOW_SEL,
    DISP_FLOW_BIND, DISP_FLOW_STATUS, DISP_FLOW_REL, DISP_FLOW_HOLE, DISP_FLOW_CWAIT,
    DISP_FLOW_OVERPUT, DISP_TOK_ISSUED, DISP_TOK_RETIRED, DISP_TOK_DROPPED, DISP_TOK_STRAY,
    DISP_TOK_LATCH, DISP_ENG_SEL, DISP_ENG_BUSY, DISP_ENG_SLOTS, DISP_MIG_COUNT, DISP_SPILL_CL,
    DISP_SPILL_ANY]     ++ (List.range 8).map DISP_TRC_MASK     ++ (List.range 16).map
    DISP_TPL_ST_LO     ++ (List.range 16).map DISP_TPL_ST_HI

/-- The LE registers of R157. -/
def regsLeR157 : List Reg :=
  [LE_EXC_BASE, LE_XWIN_BASE, LE_XWIN_LEN, LE_BKPT, LE_TRACE, LE_ENG_SEL, LE_ECC_CORR,
    LE_ECC_UE, LE_SAT, LE_MODV, LE_ACCV, LE_FATAL, LE_EXC_LOG_LO, LE_EXC_LOG_HI]

/-- The CAB registers of R775. -/
def regsCabR775 : List Reg :=
  [CAB_ECC_CORR, CAB_ECC_UE, CAB_UE_ADDR, CAB_SWEEPS]

/-- The FB registers of R285. -/
def regsFbR285 : List Reg :=
  [FB_AXIS_SEL, FB_CFG, FB_EDGE, FB_IDX_CPR, FB_IDX_TOL, FB_IDX_VAL, FB_IDX_ARM, FB_CNT,
    FB_CNT_SET, FB_STATUS, FB_LINE_STATUS, FB_INDEX_ERR, FB_IDX_LATCH, FB_LATCH, FB_CNT_L,
    FB_UP_ACC, FB_DN_ACC, FB_CNT_ADJ, FB_OBS, FB_ACC, FB_DISC, FB_GLITCH, FB_EDGE_FAULT,
    FB_QUAD_ERR, FB_INDEX_MISM, FB_HALL_INV, FB_SSI_ERR, FB_HALL, FB_SSI_CFG, FB_SSI_LEAD,
    FB_STEP, FB_STEP_CNT, FB_SD_CLK, FB_SD_CFG]     ++ (List.range 3).map FB_SD_OFS     ++
    (List.range 3).map FB_SD_GAIN     ++ (List.range 3).map FB_SD_CMPH     ++ (List.range 3).map
    FB_SD_CMPL

/-- The PWM registers of R319. -/
def regsPwmR319 : List Reg :=
  [PWM_MOD_SEL, PWM_CTL, PWM_EN, PWM_PER, PWM_DT, PWM_MINP, PWM_SYNC, PWM_SYNC_DLY,
    PWM_FLT_MAP0, PWM_FLT_MAP1, PWM_FLT_MAP2, PWM_FLT_MAP3, PWM_FLT_FILT, PWM_FLT_SRC,
    PWM_STATE, PWM_FLT_LATCH, PWM_LATCH, PWM_DROP, PWM_FULL, PWM_CARRY_SAT, PWM_LATE_WRITE,
    PWM_REPLACED, PWM_BAD_SET, PWM_FAULTS, PWM_SYNC_SLEW]     ++ (List.range 3).map PWM_CARRY
    ++ (List.range 3).map PWM_DIFF     ++ (List.range 3).map PWM_SATSUM     ++ (List.range
    3).map PWM_CARRY_L

/-- The PRF registers of R374. -/
def regsPrfR374 : List Reg :=
  [PRF_MS_SEL, PRF_MS_CFG, PRF_MS_POS_LO, PRF_MS_POS_HI, PRF_MS_VEL_LO, PRF_MS_VEL_HI,
    PRF_MS_STATUS, PRF_GRP_SEL, PRF_GRP_STATUS, PRF_CT_SEL, PRF_CT_STATUS, EVT_SEL, EVT_GO_OWN,
    EVT_STATUS, EVT_NEXT, EVT_FIRED, EVT_LATE]

/-- The PRF registers of R403. -/
def regsPrfR403 : List Reg :=
  [PRF_LIM_SEL, PRF_LIM_CFG, PRF_LIM_STATUS, PRF_LIM_TRANS, PRF_LIM_CHAT]

/-- The LNK registers of R475. -/
def regsLnkR475 : List Reg :=
  [LNK_PORT_SEL, LNK_PORT_CTL, LNK_PORT_STATUS, LNK_RX_CELLS, LNK_RX_HCRC, LNK_RX_CRC,
    LNK_RX_FRAMING, LNK_TX_CELLS, LNK_CARRIER_RET, LNK_STRIP_MISS, LNK_I2C_CTL, LNK_I2C_DATA,
    LNK_DIR_SEL, LNK_CREDIT, LNK_ACYC, LNK_ACYC_USED, LNK_ACYC_DEFER, LNK_TX_BAD, LNK_ADM,
    LNK_ADM_TIMEOUT, LNK_NODE_SEL, LNK_NODE_IO, LNK_NODE_PROF, LNK_NODE_STATUS, LNK_TUN_DROP]

/-- The RING registers of R502. -/
def regsRingR502 : List Reg :=
  [RING_SEL, RING_CTL, RING_CMD, RING_TIME, RING_STATUS, RING_LOOP_CW, RING_LOOP_CCW,
    RING_SEG_SEL, RING_SEG_DELAY, RING_NODE_SEL, RING_NODE_ID, RING_NODE_CAPS, RING_NODE_PREP,
    RING_NODE_PD, RING_NODE_DIR, RING_NODE_STATE, RING_JOINS, RING_REFUSED, RING_BREAKS,
    RING_RESTORES]     ++ (List.range 2).map RING_INTAKE_DEFERRED

/-- The TWIN registers of R565. -/
def regsTwinR565 : List Reg :=
  [TWIN_CTL, TWIN_CLAIM, TWIN_STATUS, TWIN_CFG_DIGEST, TWIN_PCFG_DIGEST, TWIN_MIX, TWIN_MSEQ,
    TWIN_OFFSET, TWIN_HB_MISS, TWIN_DIG_MISM, TWIN_DIG_SKIP, TWIN_MIRRORED, TWIN_MIX_RPT,
    TWIN_SWITCHES]     ++ (List.range 8).map TWIN_CTX_SYNC

/-- The GUARD_A registers of R602. -/
def regsGuardAR602 : List Reg :=
  [GUARD_A_STATE, GUARD_A_NEAR, GUARD_A_NEAR_FLT, GUARD_A_SI, GUARD_A_FAR_SEL, GUARD_A_FAR,
    GUARD_A_CFG_CRC, GUARD_A_LOG, GUARD_A_SBT, GUARD_A_TESTS, GUARD_A_TEST_FAIL,
    GUARD_A_DEMANDS, GUARD_A_PW_FAIL, GUARD_A_DESC_CRC]

/-- The GUARD_B registers of R602. -/
def regsGuardBR602 : List Reg :=
  [GUARD_B_STATE, GUARD_B_NEAR, GUARD_B_NEAR_FLT, GUARD_B_SI, GUARD_B_FAR_SEL, GUARD_B_FAR,
    GUARD_B_CFG_CRC, GUARD_B_LOG, GUARD_B_SBT, GUARD_B_TESTS, GUARD_B_TEST_FAIL,
    GUARD_B_DEMANDS, GUARD_B_PW_FAIL, GUARD_B_DESC_CRC]

/-- The ACQ registers of R675. -/
def regsAcqR675 : List Reg :=
  [ACQ_SEL, ACQ_CFG, ACQ_FPER, ACQ_GRP, ACQ_PAT_CARE, ACQ_PAT_VAL, ACQ_LT0, ACQ_LT1,
    ACQ_LT0_LVL, ACQ_LT1_LVL, ACQ_LT0_HYST, ACQ_LT1_HYST, ACQ_TRIG_CTL, ACQ_STATUS,
    ACQ_PAGE_TMO, ACQ_TRIG_IO, ACQ_SMP_PROD, ACQ_SMP_WR, ACQ_SMP_GAP, ACQ_SMP_PEND, ACQ_LATCH,
    ACQ_ROWS_GAP, ACQ_FIRES, ACQ_STALE]     ++ (List.range 32).map ACQ_CH     ++ (List.range
    9).map ACQ_BW

/-- The REC registers of R705. -/
def regsRecR705 : List Reg :=
  [REC_STATUS, REC_SEQ, REC_MINUTES, REC_FREE, REC_RETIRED, REC_FLUSHES, REC_FLUSH_MAX,
    REC_ABANDONED]

/-- The FIELD registers of R776. -/
def regsFieldR776 : List Reg :=
  [FIELD_GO_OWN, FIELD_GO, FIELD_GO_STATUS, FIELD_GI, FIELD_GI_FLT, FIELD_GO_FAULTS]

/-- Every register of the spec's tables, the staging registers of R766 apart. -/
def regTable : List Reg :=
  regsSysR774 ++ regsPwrR732 ++ regsTimeR533 ++ regsHostR646 ++ regsDispR57 ++ regsDispR98
    ++ regsLeR157 ++ regsCabR775 ++ regsFbR285 ++ regsPwmR319 ++ regsPrfR374 ++ regsPrfR403
    ++ regsLnkR475 ++ regsRingR502 ++ regsTwinR565 ++ regsGuardAR602 ++ regsGuardBR602 ++ regsAcqR675
    ++ regsRecR705 ++ regsFieldR776

/-- The register at a BAR0 address, if the tables give one there. -/
def findReg (a : Nat) : Option Reg := regTable.find? (fun r => r.addr == a)

/-- The blocks of R762: base address, in order of block index. -/
def blockBases : List Nat :=
  [0x00000, 0x04000, 0x08000, 0x0C000, 0x10000, 0x14000, 0x18000, 0x20000, 0x24000, 0x28000,
    0x30000, 0x34000, 0x38000, 0x40000, 0x48000, 0x50000, 0x58000, 0x60000]

/-- The base address of the block of index `b` (R762). -/
def blockBase (b : Fin 18) : Nat := blockBases.getD b.val 0

/-- The size of the block of index `b` (R762). -/
def blockSize (b : Fin 18) : Nat :=
  if b.val ∈ [6, 9, 12, 13, 14, 15, 16] then 0x8000 else 0x4000

/-- The block whose window holds a BAR0 address (R762). -/
def blockOf (a : Nat) : Option (Fin 18) :=
  (List.finRange 18).find? (fun b => blockBase b ≤ a && a < blockBase b + blockSize b)

/-- The blocks that hold staged registers (R762). -/
def hasStaged (b : Fin 18) : Bool := b.val ∈ [1, 2, 4, 5, 7, 8, 9, 10, 11, 12, 15, 17]

end Sys2Proof.Machine
end

