-- ==== Sys2Proof/Machine/Maps.lean ====
section
/-! DEFINITION. Sparse tables of plain data: a list of key and value pairs in one canonical
form (keys strictly rising, no entry equal to what an unlisted key reads as). The cabinet,
the registers and every indexed collection of the block are such tables. -/

namespace Sys2Proof.Machine

/-- A sparse table from keys to values. -/
abbrev Table (β : Type) := List (Nat × β)

/-- What key `k` reads as; an unlisted key reads `d`. -/
def tget {β : Type} (d : β) : List (Nat × β) → Nat → β
  | [], _ => d
  | (j, x) :: m, k => if j = k then x else tget d m k

/-- The table without key `k`. -/
def terase {β : Type} : List (Nat × β) → Nat → List (Nat × β)
  | [], _ => []
  | (j, x) :: m, k => if j = k then terase m k else (j, x) :: terase m k

/-- The table with `v` listed at `k`, in the place that keeps the keys rising. -/
def tput {β : Type} : List (Nat × β) → Nat → β → List (Nat × β)
  | [], k, v => [(k, v)]
  | (j, x) :: m, k, v =>
    if k < j then (k, v) :: (j, x) :: m
    else if k = j then (k, v) :: m
    else (j, x) :: tput m k v

/-- Writing `v` at `k`: the value an unlisted key reads as removes the entry. -/
def tset {β : Type} [DecidableEq β] (d : β) (m : List (Nat × β)) (k : Nat) (v : β) :
    List (Nat × β) :=
  if v = d then terase m k else tput m k v

/-- Every key of the table lies above `lo`. -/
def tabove {β : Type} (lo : Nat) (m : List (Nat × β)) : Bool := m.all (fun p => lo < p.1)

/-- The keys rise strictly. -/
def tsorted {β : Type} : List (Nat × β) → Bool
  | [] => true
  | (j, _) :: m => tabove j m && tsorted m

/-- The canonical form of a table whose unlisted keys read `d`. -/
def twf {β : Type} [DecidableEq β] (d : β) (m : List (Nat × β)) : Bool :=
  tsorted m && m.all (fun p => decide (p.2 ≠ d))

/-- The listed keys. -/
def tkeys {β : Type} (m : List (Nat × β)) : List Nat := m.map Prod.fst

end Sys2Proof.Machine
end

