-- ==== Sys2Proof/Machine/Parts.lean ====
section
/-! DEFINITION. The pieces of the block's state, first part: the cycle, the dispatcher, the Loop
Engines, the host interface, the stream writer and the recorder. -/

namespace Sys2Proof.Machine

/-- The severities of R11, lowest first. -/
inductive Sev where
  | info | warn | severe | stop
  deriving DecidableEq, Repr

/-- The code of a severity (R758). -/
def Sev.code : Sev → Nat
  | .info => 0
  | .warn => 1
  | .severe => 2
  | .stop => 3

/-! ## Staging -/

/-- The states of BLK_STAGE_STATUS.STATE (R766). -/
inductive StageState where
  | idle | pending | checked | applied | failed
  deriving DecidableEq, Repr

/-- The staging state of one block (R766, R769). -/
structure Blk where
  state : StageState := .idle
  code : BitVec 16 := 0
  field : W32 := 0
  /-- STAGE_WRITE_REFUSED was posted for the running commit (R769). -/
  refusedPosted : Bool := false
  /-- The commit joined the set of the hinge point after next (R29). -/
  late : Bool := false
  deriving DecidableEq, Repr

/-! ## The cycle -/

/-- Where the block stands in a cycle (the step table of "The phases of a cycle"). -/
inductive Phase where
  | idle | active | drain | sill
  deriving DecidableEq, Repr

/-- An external token and its context (R71). `kind` is the TOKSRC code. -/
structure ExtTok where
  ctx : Nat
  kind : Nat
  deriving DecidableEq, Repr

/-- The control cycle (R12 to R60). -/
structure Cyc where
  running : Bool := false
  stopPend : Bool := false
  phase : Phase := .idle
  count : W32 := 0
  t0 : W64 := 0
  nextT0 : W64 := 0
  /-- Tokens held since the deadline (R30). -/
  held : List ExtTok := []
  /-- What was already posted or counted in this cycle (R36, R39, R72, R436, R42). -/
  upSeen : Bool := false
  taSeen : Bool := false
  straySeen : Bool := false
  badTxSeen : Bool := false
  /-- The latest foreground stage end of the cycle. -/
  lastEnd : W64 := 0
  /-- Steps of the cycle that have happened. -/
  checked : Bool := false
  sampled : Bool := false
  trainSent : Bool := false
  /-- Drawer moves carried out in this sill (R83). -/
  moves : Nat := 0
  /-- The next unit that the scrubber takes in each cabinet bank (R51), and whether it has been
  through the bank in the running pass (R52, CAB_SWEEPS). -/
  scrubUnit : Table Nat := []
  sweeps : Table Bool := []
  /-- The runs whose output was lost in the cycle (R47). -/
  lost : List Nat := []
  deriving DecidableEq, Repr

/-! ## The dispatcher -/

/-- The life of a stage within a run (R69 to R94). -/
inductive StageSt where
  | waiting | credit | ready | running | complete | cancelled | killed
  deriving DecidableEq, Repr

/-- One stage of a run. -/
structure StageRun where
  st : StageSt := .waiting
  cnt : Nat := 0
  cancelTok : Bool := false
  /-- The external token was received, or its requirement waived (R71, R94). -/
  extSeen : Bool := false
  /-- Tokens delivered and not yet retired or dropped (R74). -/
  delivered : Nat := 0
  /-- When its counter reached 0 (R73, R75). -/
  readyAt : W64 := 0
  /-- The tag of its first shelf slot (R87). -/
  tag : Nat := 0
  /-- Items placed (R89). -/
  placed : Nat := 0
  cancelRun : Bool := false
  eng : Nat := 31
  /-- The duty set handed over by PUTD (R140). -/
  duty : Option (List W24) := none
  /-- The stage completed by TEND with a duty set (R47). -/
  dutyDone : Bool := false
  deriving DecidableEq, Repr

/-- The run of a context in one cycle. -/
structure CtxRun where
  stages : Table (Option StageRun) := []
  cancelled : Bool := false
  /-- The first reserved slot of an OUT stage became a hole (R47). -/
  lost : Bool := false
  /-- The deadline ended some stage of it (R42). -/
  aborted : Bool := false
  deriving DecidableEq, Repr

/-- What the dispatcher keeps of a context from run to run (R75, R98). -/
structure CtxSt where
  home : Nat := 31
  aff : Nat := 31
  lastCause : Nat := 0
  cancelPend : Bool := false
  /-- To be disabled at the next hinge point (R81). -/
  disable : Bool := false
  /-- Consecutive runs whose output was lost (R47). -/
  lostRuns : Nat := 0
  /-- Busy time in the running placement window, ns, and its mean per cycle of the last one (R82). -/
  busy : Nat := 0
  mean : Nat := 0
  deriving DecidableEq, Repr

/-- A shelf slot (R87 to R90). -/
structure ShelfSlot where
  ctx : Nat
  stage : Nat
  first : Bool
  hole : Bool := false
  item : Option (List Byte) := none
  deriving DecidableEq, Repr

/-- A flow and its shelf: the slots of the tags from `h` to `next`. -/
structure Flow where
  h : Nat := 0
  next : Nat := 0
  slots : Table (Option ShelfSlot) := []
  deriving DecidableEq, Repr

/-- The live token ledger (R74). -/
structure TokLedger where
  issued : W32 := 0
  retired : W32 := 0
  dropped : W32 := 0
  stray : W32 := 0
  deriving DecidableEq, Repr

/-- A drawer move that placement has planned (R82). -/
structure Move where
  ctx : Nat
  dst : Nat
  deriving DecidableEq, Repr

/-- The dispatcher apart from its runs. -/
structure Disp where
  tok : TokLedger := {}
  plan : List (List Move) := []
  /-- Cycles of the running placement window, and a window has ended that placement has not looked at
  (R82). -/
  window : Nat := 0
  due : Bool := false
  /-- Trace records written, and withheld since the last one (R96, R97). -/
  rseq : BitVec 16 := 0
  withheld : W32 := 0
  /-- Clusters whose retention placement requests (R85). -/
  retain : List Nat := []
  deriving DecidableEq, Repr

/-! ## The Loop Engines -/

/-- The accumulators with their excursion counters and pins, at one moment (R121, R122). -/
structure Accs where
  a0 : W56 := 0
  a1 : W56 := 0
  a2 : W56 := 0
  a3 : W56 := 0
  ex0 : Int := 0
  ex1 : Int := 0
  ex2 : Int := 0
  ex3 : Int := 0
  pin : BitVec 4 := 0
  deriving DecidableEq, Repr

/-- What a result in flight lands in (R134). -/
inductive LandTgt where
  | d (phys : Nat)
  | rotb
  deriving DecidableEq, Repr

/-- A result in flight: the first word that sees it, and its value. -/
structure Land where
  vis : Nat
  tgt : LandTgt
  val : W24
  deriving DecidableEq, Repr

/-- What follows the delay slots of a transfer (R135). -/
inductive After where
  | goto (pc : BitVec 13)
  | fall
  | tend (mask : BitVec 16)
  | rete
  deriving DecidableEq, Repr

/-- A transfer whose delay slots are still to issue. -/
structure Transfer where
  left : Nat
  after : After
  deriving DecidableEq, Repr

/-- A cabinet transfer (R142, R177). -/
structure Xfer where
  write : Bool
  cab : Nat
  scr : Nat
  len : Nat
  /-- Scratch words of the range stored to while it runs (R179). -/
  touched : List Nat := []
  deriving DecidableEq, Repr

/-- The stage that an engine runs. -/
structure EngRun where
  ctx : Nat
  stage : Nat
  slot : Nat
  cancelRun : Bool
  flowEn : Bool
  near : Bool
  succ : BitVec 16
  startAt : W64
  /-- The library stage whose state words stand in the context's drawer (R196). -/
  lib : Option Nat := none
  /-- The state words among them that a loop program has written since. -/
  libOwn : List Nat := []
  deriving DecidableEq, Repr

/-- The end of a stage whose operations have landed: its cancel mask (R138, R150). -/
structure EngEnd where
  mask : BitVec 16
  fatal : Bool
  deriving DecidableEq, Repr

/-- One Loop Engine (R112): its registers, its local data memory and what is in flight. -/
structure Engine where
  d : Table W24 := []
  acc : Accs := {}
  acc1 : Accs := {}
  acc2 : Accs := {}
  base : Table (BitVec 14) := []
  ofs : Table (BitVec 14) := []
  len : Table (BitVec 14) := []
  str : Table (BitVec 14) := []
  lc : BitVec 16 := 0
  rotb : BitVec 4 := 0
  sw : W24 := 0
  ob : Table W24 := []
  epc : BitVec 13 := 0
  ecause : BitVec 6 := 0
  exa : BitVec 14 := 0
  pc : BitVec 13 := 0
  /-- Words issued in the stage. -/
  n : Nat := 0
  lands : List Land := []
  tr : Option Transfer := none
  /-- A resumable exception that waits for the second delay slot (R146). -/
  late : Option (BitVec 6) := none
  /-- LE_BKPT passes the word at EPC once after a RETE (R149). -/
  pass : Bool := false
  /-- SW.EXH falls when the next word issues (R149). -/
  exhEnd : Bool := false
  resumable : Bool := false
  xfer : Option Xfer := none
  run : Option EngRun := none
  fin : Option EngEnd := none
  /-- The LDM outside scratch. -/
  ldm : Table W24 := []
  /-- The scratch words of the running stage; the others are undefined (R109). -/
  scr : Table (Option W24) := []
  scrEpoch : Nat := 0
  /-- LDM words marked uncorrectable (R155), and corrected words awaiting write-back (R154). -/
  bad : List Nat := []
  fix : List Nat := []
  /-- IM words corrected on fetch, to be rewritten in the next sill (R156). -/
  imFix : List Nat := []
  /-- Drawer slots: the context resident in each, 0 for none (R64). -/
  slots : Table Nat := []
  /-- Resident contexts, the least recently run first (R79). -/
  lru : List Nat := []
  /-- Busy time in the window, and the mean of the last window (R82). -/
  busy : Nat := 0
  mean : Nat := 0
  deriving DecidableEq, Repr

/-! ## The host interface -/

/-- What a completion needs of the descriptor it answers (R629). -/
structure Cmd where
  op : BitVec 8
  sq : BitVec 6
  tag : BitVec 16
  src : BitVec 8
  irq : Bool
  /-- The host-interface reset that its reserved entry belongs to (R644). -/
  epoch : Nat
  deriving DecidableEq, Repr

/-- The entry types of R629. -/
inductive EntTy where
  | command | event | item | summary
  deriving DecidableEq, Repr

/-- A completion entry (R629). -/
structure CqEntry where
  ty : EntTy
  src : BitVec 8 := 0
  status : BitVec 16
  tag : BitVec 16 := 0
  sq : BitVec 8 := 0xFF
  op : BitVec 8 := 0
  /-- COUNT, saturating. -/
  count : W32 := 1
  /-- Every occurrence merged, modulo 2^32 (R638). -/
  occ : W32 := 1
  bt : W32
  payload : Payload := 0
  /-- A SEVERE or STOP event was merged into it (R639). -/
  severe : Bool := false
  irq : Bool := false
  deriving DecidableEq, Repr

/-- A completion ring's internal buffer and its indices (R634, R639). -/
structure Cq where
  buf : List CqEntry := []
  /-- Command entries reserved and not yet complete (R624). -/
  reserved : Nat := 0
  tail : Nat := 0
  head : Nat := 0
  phase : Bool := true
  /-- Entries written since the previous signal, and when the first one was. -/
  since : Nat := 0
  firstAt : W64 := 0
  deriving DecidableEq, Repr

/-- A submission ring's indices (R620, R623). -/
structure Sq where
  head : Nat := 0
  tail : Nat := 0
  /-- Descriptors fetched from it and not yet completed (R614). -/
  opened : Nat := 0
  /-- Enabled since the latest poll (R807). -/
  fresh : Bool := false
  deriving DecidableEq, Repr

/-- A descriptor fetched and not yet applied (R625 to R628). -/
structure Fetched where
  op : BitVec 8
  d : Desc
  bt : W64
  cmd : Cmd
  /-- R622's status when the descriptor completes without applying. -/
  refuse : Option (BitVec 16) := none
  /-- The frozen master value at which an EXEC 2 descriptor became eligible (R627). -/
  ref : Option W32 := none
  /-- Runs without a valid master value (R628). -/
  novalid : Nat := 0
  /-- The hinge point that a mirrored descriptor was given (R549). -/
  applySeq : Option (BitVec 16) := none
  /-- It waits for an EXEC_AT and holds back what follows it on its SQ (R625). -/
  waits : Bool := false
  deriving DecidableEq, Repr

/-- The live host ledger (R638), apart from what the buffers hold. -/
structure HostLedger where
  fetched : W32 := 0
  cplCmd : W32 := 0
  cmdDiscard : W32 := 0
  posted : W32 := 0
  written : W32 := 0
  evtDiscard : W32 := 0
  deriving DecidableEq, Repr

/-- The host interface (chapter 15). -/
structure HostSt where
  ready : Bool := false
  polling : Bool := false
  lost : Bool := false
  speed : BitVec 3 := 0
  width : BitVec 3 := 0
  cqs : Table Cq := []
  sqs : Table Sq := []
  queue : List Fetched := []
  ledger : HostLedger := {}
  epoch : Nat := 0
  /-- The SQ at which the next poll begins its round (R623). -/
  rr : Nat := 0
  /-- HOST_ALIVE at the latest poll and since when it reads so (R645). -/
  alive : W32 := 0
  aliveAt : W64 := 0
  aliveSeen : Bool := false
  /-- MSI-X: Enable, Function Mask, the vectors' masks and pending bits (R608). -/
  msixEnable : Bool := false
  msixFMask : Bool := false
  msixMask : BitVec 64 := -1
  msixPend : BitVec 64 := 0
  /-- The address and data words of the MSI-X table, by `4 vector + word`. -/
  msixTbl : Table W32 := []
  deriving DecidableEq, Repr

/-- The firmware store (R643): images at MRAM bytes 0 (A) and 0x1E_0000 (B). -/
structure Fw where
  mram : List (Nat × Byte) := []
  active : Bool := false
  next : Bool := false
  verified : Bool := false
  fallback : Bool := false
  verifying : Option (Option Cmd) := none
  /-- The load buffer and the user region of MRAM, by word above 0x1000. -/
  buffer : Table W64 := []
  lpMram : Table W64 := []
  /-- The user region of each engine's IM, by `4096 engine + word`. -/
  im : Table W64 := []
  deriving DecidableEq, Repr

/-! ## The stream writer -/

/-- One record in the writer buffer: its size in bytes, its bytes (byte `i` at bits
`[8 i + 7 : 8 i]`), and the samples it carries (R667, R96). -/
structure Rec where
  size : Nat
  data : BitVec 256
  samples : Nat := 0
  deriving DecidableEq, Repr

/-- The writer of one stream ring (R669 to R672). -/
structure Stream where
  /-- The token bucket, in thousandths of a byte, and when it was last filled. -/
  tokens : Nat := 16384000
  filledAt : W64 := 0
  page : List Rec := []
  pageAt : W64 := 0
  tail : Nat := 0
  head : Nat := 0
  /-- The withheld span: rows, samples, MARKs, first and last row instants. -/
  gapOpen : Bool := false
  gapRows : W32 := 0
  gapSamples : Nat := 0
  gapMarks : W32 := 0
  gapFirst : W32 := 0
  gapLast : W32 := 0
  deriving DecidableEq, Repr

/-! ## The recorder -/

/-- One journal entry of a chest (R697): page images in frame order. -/
structure JEntry where
  seq : W32
  cause : Nat
  pages : List Nat
  images : List (List (Nat × Byte))
  minutes : W32
  arg : W32 := 0
  /-- Its COMMIT word was written. -/
  committed : Bool := true
  deriving DecidableEq, Repr

/-- One chest (R699, R700). -/
structure Chest where
  failed : Bool := false
  retired : Nat := 0
  journal : List JEntry := []
  deriving DecidableEq, Repr

/-- A flush that runs (R694). -/
structure Flush where
  cause : Nat
  seq : W32
  pages : List Nat
  images : List (List (Nat × Byte))
  startAt : W64
  cmds : List Cmd := []
  deriving DecidableEq, Repr

/-- A cause that waits for its flush. -/
structure HeldFlush where
  cause : Nat
  cmds : List Cmd := []
  deriving DecidableEq, Repr

/-- The recorder (chapter 17); the record itself lies in the cabinet (R679). -/
structure RecSt where
  dirty : List Nat := []
  /-- Pages in the order of their latest committed image, the oldest first. -/
  order : List Nat := []
  flush : Option Flush := none
  held : Option HeldFlush := none
  lastFault : Option W64 := none
  seq : W32 := 0
  chest0 : Chest := {}
  chest1 : Chest := {}
  recovered : Bool := false
  /-- Event-log entries written since the last flush began at this index. -/
  logFrom : Nat := 0
  /-- RESET_HELD entries already logged, by SEQ. -/
  heldLogged : List Nat := []
  deriving DecidableEq, Repr

end Sys2Proof.Machine
end

