-- ==== Sys2Proof/Machine/Parts2.lean ====
section
/-! DEFINITION. The pieces of the block's state, second part: power, start-up and the outputs. -/

namespace Sys2Proof.Machine

/-! ## Power domains -/

/-- The states of a domain (R732, PWR_DOM_STATUS). -/
inductive DomSt where
  | on | entering | ret | waking | off | leavingOff
  deriving DecidableEq, Repr

/-- A target state of a domain. -/
inductive DomTgt where
  | on | ret | off
  deriving DecidableEq, Repr

/-- One power domain (R715, R720, R724). -/
structure Dom where
  st : DomSt := .on
  /-- Where an entry leads, whether it has begun (R721), and the commands it answers. -/
  tgt : DomTgt := .ret
  begun : Bool := false
  cmds : List (Option Cmd) := []
  /-- The latched target and the commands that wait for it (R724). -/
  latched : Option DomTgt := none
  latchedCmds : List (Option Cmd) := []
  /-- The command of a wake, which completes at the first hinge point after ON (R722). -/
  wakeCmds : List (Option Cmd) := []
  usable : Bool := true
  /-- The host owns the domain though placement could (R726). -/
  hostOwned : Bool := false
  /-- The host's latest command was not ON (R717). -/
  down : Bool := false
  /-- The memories found LOST at the latest wake (R723, R732). -/
  lost : BitVec 12 := 0
  /-- DOMAIN_ACCESS was posted since the bank left ON (R718). -/
  accPosted : Bool := false
  /-- When the running transition began. -/
  startAt : W64 := 0
  /-- Cycles without access (R727). -/
  idle : Nat := 0
  deriving DecidableEq, Repr

/-- What AON and the supply monitors hold (R708 to R713, R739 to R748). -/
structure Pwr where
  dom : Table Dom := []
  vin : BitVec 16 := 0
  vbrk : BitVec 16 := 0
  tj : BitVec 16 := 0
  /-- VIO banks in VIO_FAIL (R713). -/
  vioFail : BitVec 4 := 0
  straps : BitVec 8 := 0
  /-- The power-fail trigger has fired; the device holds (R729). -/
  failed : Bool := false
  hold : Bool := false
  deriving DecidableEq, Repr

/-- How far a start has come (R746). -/
inductive BootSt where
  | aon | held | released | checked | running | recovery
  deriving DecidableEq, Repr

/-- Start-up and reset (chapter 19). -/
structure Boot where
  st : BootSt := .released
  /-- The causes not yet counted by a recovery (R741). -/
  causes : List Nat := [0]
  cause : Nat := 0
  /-- Consecutive boot watchdog resets on the selected image (R744). -/
  wdCount : Nat := 0
  /-- The next start does not try the selected image first (R744). -/
  skip : Bool := false
  releaseAt : W64 := 0
  perstN : Bool := true
  perstAt : W64 := 0
  linkUp : Bool := false
  /-- RESET_N is asserted, and for how many seconds it has been (R703, R736). -/
  resetN : Bool := false
  heldSec : Nat := 0
  /-- Operating time that AON counts across resets (R687). -/
  opMinutes : W32 := 0
  /-- The seconds above the minutes at `minAt`, an instant of BT. -/
  secRem : BitVec 8 := 0
  minAt : W64 := 0
  coreReset : Bool := false
  deriving DecidableEq, Repr

/-! ## What leaves the package -/

/-- The balls whose levels the block sets (R749). -/
inductive Ball where
  | pwm (m : Nat) (phase : Nat) (high : Bool)
  | go (n : Nat)
  | trigIo
  | txdis (port : Nat)
  | brake (na : Nat) (channelA : Bool)
  | sdmClk (i : Nat)
  | ssiClk (na : Nat)
  deriving DecidableEq, Repr

/-- The level of a ball. -/
inductive Level where
  | low | high | hiz
  deriving DecidableEq, Repr

/-- What the block sends to the world outside, in the order in which it leaves. -/
inductive Output where
  /-- A cell on a ring direction (0 A clockwise … 3 B counter-clockwise), with its check sums. -/
  | cell (dir : Nat) (c : RxCell)
  /-- A cell on the twin port. -/
  | twin (c : RxCell)
  /-- An item of FL4 handed to the twin link (R86). -/
  | twinItem (ctx : Nat) (bytes : List Byte)
  /-- The bytes of a completion entry written to a CQ at an index (R629, R630). -/
  | cq (ring idx : Nat) (bytes : List Byte)
  /-- The bytes of a word written to the doorbell page at an offset (R4, R617). -/
  | doorbell (off : Nat) (bytes : List Byte)
  /-- A page of a stream ring (R669). -/
  | page (ring idx : Nat) (recs : List Rec)
  /-- An MSI-X message of a vector (R639). -/
  | msix (vec : Nat)
  /-- A ball driven to a level. -/
  | ball (b : Ball) (l : Level)
  /-- The answer to a PCIe configuration request: Retry Status, or a normal completion. -/
  | config (retry : Bool) (v : W32)
  /-- A transaction on a cage's I2C bus (R410). -/
  | i2c (port : Nat) (read : Bool) (dev reg data : Nat)
  /-- A PTP message sent on the plant port (R529): its messageType, its sequenceId and its timestamp. -/
  | ptp (kind : Nat) (seq : BitVec 16) (stamp : BitVec 80)
  /-- A tunnelled frame reassembled from a node (R445). -/
  | frame (ring node : Nat) (bytes : List Byte)
  /-- The word a BAR0 read returns. -/
  | bar0 (v : W32)
  /-- The sample pulse of an SSI frame or of a node's sample instant. -/
  | sample (na : Nat)
  /-- A cell forwarded to a ring direction as a node does (R422). -/
  | forward (dir : Nat) (c : RxCell)
  deriving DecidableEq, Repr

end Sys2Proof.Machine
end

