-- ==== Sys2Proof/Machine/Parts3.lean ====
section
/-! DEFINITION. The pieces of the block's state, third part: the near axes' feedback and PWM, the
axes with their generators, laws and inputs, master sources, cam tables, groups and compare
slots. -/

namespace Sys2Proof.Machine

/-! ## Feedback of a near axis (chapter 6) -/

/-- An edge in quarantine (R248): its line, its instant and the step it would count. -/
structure QEdge where
  lineB : Bool
  at_ : W64
  up : Bool
  /-- The quadrature state that it enters. -/
  a : Bool
  b : Bool
  deriving DecidableEq, Repr

/-- The feedback inputs of one near axis. -/
structure Fb where
  a : Bool := false
  b : Bool := false
  quar : Option QEdge := none
  lastEdge : Option W64 := none
  lastAcc : Option W64 := none
  cnt : W32 := 0
  armed : Bool := false
  dir : Bool := false
  /-- Consecutive accepted edges against DIR (R264). -/
  against : Nat := 0
  idxLatch : W32 := 0
  idxRef : Option W32 := none
  indexErr : W32 := 0
  obs : W32 := 0
  acc : W32 := 0
  disc : W32 := 0
  up : W32 := 0
  dn : W32 := 0
  adj : W32 := 0
  cntSet : Option W32 := none
  /-- What happened since the previous latch (R243). -/
  wrapUp : Bool := false
  wrapDn : Bool := false
  dirChg : Bool := false
  idx : Bool := false
  idxMism : Bool := false
  hallSkip : Bool := false
  dirPosted : Bool := false
  hall : BitVec 3 := 0
  hallAt : Option W64 := none
  hallBad : Bool := false
  ssi : BitVec 40 := 0
  ssiBad : Bool := false
  /-- A frame runs: its first falling edge, and whether SSD was low there. -/
  ssiRun : Option (W64 × Bool) := none
  stuck : BitVec 3 := 0
  /-- Until when the comparator signal SDCn is high (R279). -/
  sdcUntil : W64 := 0
  /-- The latest hinge point that restarted the filters (R277). -/
  sdRestart : Option W64 := none
  lineOpen : BitVec 4 := 0
  lineShort : BitVec 4 := 0
  linePol : BitVec 4 := 0
  stepCnt : W32 := 0
  deriving DecidableEq, Repr

/-! ## PWM (chapter 7) -/

/-- The states of a PWM module (R313). -/
inductive PwmSt where
  | disabled | run | fault
  deriving DecidableEq, Repr

/-- One phase of a module; times in units of 125 ps (R302 to R305). -/
structure PwmPhase where
  shadow : Nat := 0
  req : Nat := 0
  on : Nat := 0
  /-- The start of its window (R291), the leading half, and that of the request. -/
  start : Nat := 0
  lead : Nat := 0
  rlead : Nat := 0
  carry : Int := 0
  /-- The end of the previous period's window, from this period's zero. -/
  prevEnd : Int := 0
  diff : W32 := 0
  sat : W32 := 0
  deriving DecidableEq, Repr

/-- A PWM module. -/
structure Pwm where
  st : PwmSt := .disabled
  /-- ENABLE; a module that it names enters RUN at the next hinge point. -/
  enable : Bool := false
  calOk : Bool := false
  /-- DL_CAL_FAIL was posted since CAL_OK last rose (R318). -/
  calFail : Bool := false
  /-- A calibration result that loads at the next zero (R317). -/
  calNew : Option Bool := none
  /-- The instant of the latest zero in ns of BT, the length of the running period in units of
  125 ps of CLK_CORE, and the open remainder (R308). -/
  zero : Rat := 0
  len : Nat := 250000
  rem : Int := 0
  /-- The zero and the length of the period before, and the latest SYNC_IN pulse taken (R32, R307). -/
  prevZero : Rat := 0
  prevLen : Nat := 250000
  lastSync : Rat := -1
  /-- A set landed since the previous reload point; when it did. -/
  landed : Bool := false
  /-- A set that goes to the shadow after the reload of this clock (R297). -/
  defer : Option (Nat × Nat × Nat) := none
  reloadAt : Option W64 := none
  /-- When it left RUN, and the low sides that were active then (R312). -/
  actAt : W64 := 0
  lowWas : BitVec 3 := 0
  /-- The sample instant of the run whose set it took (R197), and of the one that waits. -/
  sample : W64 := 0
  u : PwmPhase := {}
  v : PwmPhase := {}
  w : PwmPhase := {}
  deriving DecidableEq, Repr

/-! ## Axes (chapters 5, 8 and 9) -/

/-- A commanded or measured state: position, velocity and acceleration, exact. -/
structure Kin where
  p : Rat := 0
  v : Rat := 0
  a : Rat := 0
  deriving DecidableEq, Repr

/-- The limits of a trajectory (R326). -/
structure Lims where
  v : Rat := 0
  a : Rat := 0
  d : Rat := 0
  j : Rat := 0
  deriving DecidableEq, Repr

/-- Where a jerk-limited trajectory leads: to a position at rest, or to a velocity. -/
inductive Goal where
  | pos (x : Rat)
  | vel (v : Rat)
  deriving DecidableEq, Repr

/-- A leg of a path (R358): where it ends, the velocity there, and its limits. -/
structure Leg where
  p : Rat
  v : Rat
  lims : Lims
  deriving DecidableEq, Repr

/-- A jerk-limited trajectory (R334 to R337): where it starts, where it leads, its limits and the
instant of BT, in nanoseconds, from which it runs; the pieces of constant jerk that come first (R326),
and the legs of a path before its goal (R358). -/
structure Plan where
  start : Kin := {}
  goal : Goal := .vel 0
  lims : Lims := {}
  t0 : Int := 0
  pre : List (Rat × Rat) := []
  legs : List Leg := []
  deriving DecidableEq, Repr

/-- The mode codes of R327. -/
inductive AxMode where
  | idle | ptp | vel | pvt | step | gear | cam | stop | group | homing
  deriving DecidableEq, Repr

/-- The code of a mode. -/
def AxMode.code : AxMode → Nat
  | .idle => 0
  | .ptp => 1
  | .vel => 2
  | .pvt => 3
  | .step => 4
  | .gear => 5
  | .cam => 6
  | .stop => 7
  | .group => 8
  | .homing => 9

/-- A queued Hermite segment (R338): its end, its runs, and the descriptor it is the last of. -/
structure PvtSeg where
  p : Rat
  v : Rat
  n : Nat
  cmd : Option Cmd := none
  deriving DecidableEq, Repr

/-- How an axis follows a master (R347, R352). -/
structure Follow where
  ms : Nat := 0
  num : Int := 1
  den : Nat := 1
  engage : Bool := false
  locked : Bool := false
  pEng : Rat := 0
  mEng : Rat := 0
  ct : Nat := 0
  mOfs : Int := 0
  cOfs : Rat := 0
  /-- The unwrapped master value and the POS it was last taken from (R346). -/
  m : Int := 0
  last : W64 := 0
  /-- The geared velocity of the latest run. -/
  vel : Rat := 0
  deriving DecidableEq, Repr

/-- The states of homing (R387), numbered from 1 in the table's order. -/
inductive HmSt where
  | search | reversed | clear | creep | indexSeek | push | backoff
  deriving DecidableEq, Repr

/-- The number of a homing state. -/
def HmSt.code : HmSt → Nat
  | .search => 1
  | .reversed => 2
  | .clear => 3
  | .creep => 4
  | .indexSeek => 5
  | .push => 6
  | .backoff => 7

/-- A homing run. -/
structure Homing where
  st : HmSt := .search
  method : Nat := 0
  neg : Bool := false
  entry : Rat := 0
  /-- Runs for which the applied current has been at its threshold (R391). -/
  stall : Nat := 0
  /-- Its reference was found, and it completes at rest. -/
  found : Bool := false
  /-- CLEAR was entered from REVERSED: the axis goes on at HOME_SPEED (R387). -/
  fast : Bool := false
  rev : Option Rat := none
  deriving DecidableEq, Repr

/-- A move that waits for a compare slot (R372). -/
structure Held where
  op : BitVec 8
  d : Desc
  cmd : Option Cmd
  slot : Nat
  deriving DecidableEq, Repr

/-- The quick stop of R235. -/
inductive StopSt where
  | none
  /-- Decelerating since the instant. -/
  | decel (since : W64)
  /-- At standstill speed since the instant, within the 5 ms. -/
  | still (since began : W64)
  /-- The brake was requested at the instant. -/
  | brake (since : W64)
  | off
  deriving DecidableEq, Repr

/-- The oscillation detector (R230 to R232). -/
structure Osc where
  s1 : Table Rat := []
  s2 : Table Rat := []
  n : Nat := 0
  overs : Nat := 0
  quiet : Nat := 0
  active : Bool := false
  /-- Steps taken (bit 0 NOTCH, 1 GAIN, 2 STOP), and blocks since the last one. -/
  taken : BitVec 3 := 0
  blocks : Nat := 0
  cut : Rat := 1
  /-- Runs left in which the gains regain their full values, and of how many; they rise from the cut. -/
  rise : Nat := 0
  span : Nat := 1
  /-- The frequency toward which N3 moves, in Hz. -/
  target : Nat := 0
  deriving DecidableEq, Repr

/-- The state of an axis's laws (R203 to R232). -/
structure Law where
  pMeas : Rat := 0
  vMeas : Rat := 0
  wPrev : Rat := 0
  pPrev : Rat := 0
  pFb : Rat := 0
  vFb : Rat := 0
  ip : Rat := 0
  iv : Rat := 0
  xd : Rat := 0
  xq : Rat := 0
  pHat : Rat := 0
  wHat : Rat := 0
  dHat : Rat := 0
  vf : Rat := 0
  tqPrev : Rat := 0
  ep : Rat := 0
  ev : Rat := 0
  vout : Rat := 0
  tqRaw : Rat := 0
  tff : Rat := 0
  tql : Rat := 0
  iqApplied : Rat := 0
  vdc : Rat := 0
  feN : Nat := 0
  ocN : Nat := 0
  csN : Nat := 0
  vsN : Nat := 0
  plN : Nat := 0
  /-- The running streak has posted FOLLOW_ERR, PLAUSIBILITY or VOLT_SAT. -/
  feTold : Bool := false
  plTold : Bool := false
  vsTold : Bool := false
  /-- Notches ([3:0]) and detector bands ([11:4]) reported beyond 0.45 R (R221). -/
  nRange : BitVec 12 := 0
  osc : Osc := {}
  /-- The duties of the latest CURRENT run (R215), and its sector. -/
  duty : List W24 := []
  sector : Nat := 1
  idAct : Rat := 0
  iqAct : Rat := 0
  deriving DecidableEq, Repr

/-- One axis input: positive limit, negative limit or home (R378 to R383). -/
structure AxIn where
  raw : Bool := false
  filt : Bool := false
  /-- Since when, or for how many runs, the raw level has been stable. -/
  stable : Nat := 0
  chat : Bool := false
  /-- The filtered level that a chatter latch on the home input holds (R380). -/
  hold : Bool := false
  wb : Bool := false
  /-- Instants of the raw transitions of the last 100 ms. -/
  trans : List W64 := []
  deriving DecidableEq, Repr

/-- An axis (CTX 1 to 128). -/
structure Axis where
  enabled : Bool := false
  /-- A fault is latched until an AX_ENABLE with CLEAR (R239, R331). -/
  faulted : Bool := false
  stop : StopSt := .none
  /-- The library requests the brake to engage (R235, R237). -/
  engage : Bool := false
  /-- The axis applies no torque: a far axis's cells carry output-disable (R237). -/
  od : Bool := true
  homed : Bool := false
  /-- The commanded state, and the instant of BT to which it refers. -/
  kin : Kin := {}
  kinT : Int := 0
  mode : AxMode := .idle
  /-- The uncompleted descriptor that entered the mode (R327). -/
  cmd : Option Cmd := none
  rev : Option Rat := none
  plan : Option Plan := none
  pvt : List PvtSeg := []
  pvtFrom : Kin := {}
  pvtK : Nat := 0
  stepSrc : Nat := 0
  stepP : Rat := 0
  stepS : Int := 0
  stepLast : W32 := 0
  stepQ : Rat := 0
  follow : Follow := {}
  held : Option Held := none
  hm : Homing := {}
  /-- The torque limit of PUSH (R390). -/
  pushing : Bool := false
  group : Option Nat := none
  /-- What the group computed for this run, and in this cycle for the next one (R355). -/
  next : Option Kin := none
  nextNew : Option Kin := none
  law : Law := {}
  /-- Peepholes PH0 to PH31 (R240). -/
  ph : Table W24 := []
  faults : BitVec 12 := 0
  /-- CASCADE ran the loops in the running run, which SUPERVISE still looks at (R238). -/
  ran : Bool := false
  /-- OUT_AGE of the latest output of a far axis, for the next run (R197). -/
  outAge : Option W24 := none
  /-- The library stage that last wrote the library's state words of the drawer (R196). -/
  libDraw : Option Nat := none
  /-- The state words that a loop program has written since (R106). -/
  libOwn : List Nat := []
  /-- The 64-bit extension of the measured position (R128). -/
  pos : Int := 0
  posLast : W32 := 0
  /-- The offset that homing gave the position scale (R389). -/
  ofs : Rat := 0
  inP : AxIn := { raw := true, filt := true }
  inN : AxIn := { raw := true, filt := true }
  inH : AxIn := {}
  homeLatch : W32 := 0
  homePend : W32 := 0
  /-- The home level that AXIN showed at the previous run (R384). -/
  homeWas : Bool := false
  /-- The latest valid UP record: its ENC_FAULT and DRV_FAULT (R331), and its index. -/
  encFault : Bool := false
  drvFault : Bool := false
  /-- Consecutive runs on an invalid master (R345). -/
  msHeld : Nat := 0
  /-- The holding-torque test commands this torque (R587). -/
  sbt : Option Rat := none
  /-- The levels of LIMP, LIMN and HOME at the previous run (R387, R397). -/
  inPrev : BitVec 3 := 0
  deriving DecidableEq, Repr

/-! ## Masters, cams, groups and compare slots (chapter 8) -/

/-- A master value (R343): POS and VEL in Q32.32, and the instant they refer to. -/
structure MsVal where
  pos : W64 := 0
  vel : W64 := 0
  tref : W32 := 0
  valid : Bool := false
  deriving DecidableEq, Repr

/-- A master source: the value its producer writes, the frozen value and the consumer's count. -/
structure Ms where
  live : MsVal := {}
  /-- Written during the running cycle. -/
  fresh : Bool := false
  froz : MsVal := {}
  held : Nat := 0
  /-- A virtual master (R344): its target velocity and acceleration, its state when VM_SET applied, and
  the nanoseconds since. -/
  vmV : W64 := 0
  vmA : W64 := 0
  vmStart : Kin := {}
  vmT : Int := 0
  cmd : Option Cmd := none
  /-- The velocity of the value before, and its instant (R364). -/
  prevVel : W64 := 0
  prevRef : W32 := 0
  deriving DecidableEq, Repr

/-- A cam table (R349, R350). -/
structure Cam where
  load : Table W64 := []
  pts : Table W64 := []
  n : Nat := 0
  xlen : W64 := 0
  cyclic : Bool := false
  ready : Bool := false
  computing : Bool := false
  cmd : Option Cmd := none
  deriving DecidableEq, Repr

/-- A path segment of a group (R356, R357). -/
structure Seg where
  arc : Bool
  lims : Lims
  blend : Nat
  mask : BitVec 16
  /-- End positions by member index. -/
  ends : Table Rat := []
  cx : Rat := 0
  cy : Rat := 0
  x : Nat := 0
  y : Nat := 0
  h : Option Nat := none
  cw : Bool := false
  cmd : Option Cmd := none
  deriving DecidableEq, Repr

/-- The states of PRF_GRP_STATUS. -/
inductive GrpSt where
  | idle | run | hold | stopping
  deriving DecidableEq, Repr

/-- A segment descriptor that waits for its GRP_POS descriptors (R362). -/
structure SegOpen where
  seg : Seg
  sq : BitVec 6
  need : List Nat
  /-- The GRP_POS descriptors that wait for the segment to apply. -/
  cmds : List (Option Cmd) := []
  deriving DecidableEq, Repr

/-- A group. -/
structure Grp where
  members : List Nat := []
  queue : List Seg := []
  st : GrpSt := .idle
  open_ : Option SegOpen := none
  /-- Where the running segment began, per member; how far along the path it began; and the
  trajectory along the path. -/
  from_ : Table Rat := []
  gone : Rat := 0
  path : Option Plan := none
  /-- BLEND, the length and MASK of the segment that ended last on the running path. -/
  back : Option (Nat × Rat × BitVec 16) := none
  deriving DecidableEq, Repr

/-- A scheduled fire of a slot (R366, R367): the crossing, the edge instant, whether it is late, and
whether its edge has been driven. -/
structure EvFire where
  at_ : W64
  edge : W64
  late : Bool := false
  driven : Bool := false
  deriving DecidableEq, Repr

/-- A compare slot (R363 to R371). -/
structure Ev where
  armed : Bool := false
  owner : Nat := 0
  tokCtx : Nat := 0
  x : W64 := 0
  step : W64 := 0
  width : W32 := 0
  ofs : Int := 0
  source : Nat := 0
  dir : Nat := 0
  policy : Nat := 0
  action : Nat := 0
  arg : Nat := 0
  repeat_ : Bool := false
  notify : Bool := false
  value : Nat := 0
  point : W32 := 0
  /-- The first evaluation after arming has not happened. -/
  first : Bool := false
  behind : Bool := false
  /-- The previous evaluation found the source past X. -/
  past : Bool := false
  /-- The fires that are scheduled, the earliest first. -/
  sched : List EvFire := []
  cmd : Option Cmd := none
  deriving DecidableEq, Repr

/-- A GO pulse that ends at an instant. -/
structure GoPulse where
  ball : Nat
  slot : Nat
  until_ : W64
  deriving DecidableEq, Repr

/-- An edge of a GO ball that a slot has still to drive (R370): PULSE of a width, or TOGGLE. -/
structure GoEdge where
  slot : Nat
  at_ : W64
  ball : Nat
  width : Option Nat
  deriving DecidableEq, Repr

/-- A FAR_SET whose cell has not been placed (R371). -/
structure FarSet where
  slot : Nat
  owner : Nat
  edge : W64
  point : W32
  value : Nat
  deriving DecidableEq, Repr

/-- The general outputs (R371, R776). -/
structure Go where
  /-- The level that toggles give a ball of the event unit. -/
  level : BitVec 16 := 0
  pulses : List GoPulse := []
  edges : List GoEdge := []
  fars : List FarSet := []
  /-- Outputs in current limit ([15:0]) and in thermal shutdown ([31:16]) (R776, R789). -/
  ovl : BitVec 32 := 0
  /-- The filtered levels of the general inputs (R776). -/
  giF : BitVec 16 := 0
  deriving DecidableEq, Repr

end Sys2Proof.Machine
end

