-- ==== Sys2Proof/Machine/Parts4.lean ====
section
/-! DEFINITION. The pieces of the block's state, fourth part: time. -/

namespace Sys2Proof.Machine

/-- The servo's states (R514). -/
inductive ServoSt where
  | free | acquire | locked | holdover | refused
  deriving DecidableEq, Repr

/-- The code of TIME_STATE.STATE. -/
def ServoSt.code : ServoSt → Nat
  | .free => 0
  | .acquire => 1
  | .locked => 2
  | .holdover => 3
  | .refused => 4

/-- What TIME_INFO tells of the master (R527). -/
structure GmInfo where
  utc : BitVec 16 := 0
  leap : BitVec 3 := 0
  cls : BitVec 8 := 0
  deriving DecidableEq, Repr

/-- Time (chapter 12). The servo's output and integrator are in 2^-8 ppb (R512). -/
structure TimeSt where
  servo : ServoSt := .free
  out : Int := 0
  i : Int := 0
  /-- Consecutive accepted measurements below LOCK_THR. -/
  run : Nat := 0
  lastAcc : W64 := 0
  /-- θ_eff of the latest measurement, when it was refused (R513). -/
  refusedTheta : Option Int := none
  /-- A slew, or a change of master, since the servo entered REFUSED. -/
  changed : Bool := false
  theta : Option Int := none
  /-- SLEW_LEFT in ns, the rate in ppm with its sign, and the descriptor (R516). -/
  slewLeft : Rat := 0
  slewRate : Int := 0
  slewCmd : Option Cmd := none
  slewing : Bool := false
  /-- A step that waits for the sill (R518). -/
  step : Option Int := none
  stepFlag : Bool := false
  btHi : W32 := 0
  /-- Bits [63:32] of BT at the latest BT_WRAP. -/
  wrapHi : W32 := 0
  mpd : W32 := 0
  /-- The plant port's measurements (R524, R529), stamps and differences in 2^-16 ns: a two-step Sync that
  waits for its Follow_Up, with its arrival; what the latest Sync took; the latest delay request with its
  departure; a two-step Pdelay_Resp with its arrival and the peer's stamp. -/
  ptpSync : Option (BitVec 16 × Int) := none
  ptpMs : Int := 0
  ptpReq : Option (BitVec 16 × Int) := none
  ptpResp : Option (BitVec 16 × Int × Int) := none
  ptpSeq : BitVec 16 := 0
  ptpReqAt : Option W64 := none
  gm : W64 := 0
  info : GmInfo := {}
  /-- When TIME_INFO was last broadcast, and its content then (R527). -/
  infoAt : W64 := 0
  infoSent : Option (BitVec 192) := none
  deriving DecidableEq, Repr

end Sys2Proof.Machine
end

