-- ==== Sys2Proof/Machine/Parts5.lean ====
section
/-! DEFINITION. The pieces of the block's state, fifth part: link ports and directions, rings and
the twin. -/

namespace Sys2Proof.Machine

/-! ## Link (chapter 10) -/

/-- An I2C transaction of a cage (R410). -/
structure I2c where
  read : Bool
  dev : BitVec 7
  reg : BitVec 8
  data : BitVec 8
  deriving DecidableEq, Repr

/-- A port: P0 to P3, and the twin port 4 (R475, R808). -/
structure Port where
  modabs : Bool := false
  los : Bool := false
  lock : Bool := false
  hiBer : Bool := false
  up : Bool := false
  nack : Bool := false
  data : BitVec 8 := 0
  i2c : Option I2c := none
  deriving DecidableEq, Repr

/-- An acyclic cell that waits (R449): class 0 ADMIN request, 1 ADMIN empty, 2 TUNNEL segment,
3 empty TUNNEL. -/
structure Acyc where
  cls : Nat
  cell : Cell
  /-- Sent ahead of every other acyclic cell (R495). -/
  ahead : Bool := false
  deferred : Bool := false
  deriving DecidableEq, Repr

/-- An item that a flow's consumer has accepted and whose cell has not started (R802): the cell of
FL0 to FL3, or the bytes for the twin link (FL4); the context, whether its slot was the first of a stage
with OUT = 1, and when the cell starts, in tenths of a nanosecond of BT. -/
structure TxItem where
  cell : Option Cell
  bytes : List Byte := []
  ctx : Nat
  first : Bool
  at_ : Nat
  deriving DecidableEq, Repr

/-- A ring direction (R446 to R450), and the twin port's transmitter. -/
structure Dir where
  /-- The cyclic transmit queue, and when the transmitter is free, in tenths of a nanosecond (R802). -/
  txq : List TxItem := []
  txFree : Nat := 0
  credits : Nat := 0
  sent : Nat := 0
  used : Nat := 0
  wait : List Acyc := []
  /-- The node served last in each class. -/
  rr : Table Nat := []
  deriving DecidableEq, Repr

/-- What an ADMIN transaction is for. -/
inductive AdmFor where
  | host (cmd : Option Cmd)
  /-- RING_STATE of a node in ENUM (R488). -/
  | enumState
  /-- RING_STATE of a gap node (R499). -/
  | gap
  /-- MIX_COUNT and MIX_SLOTS of a node (R546). -/
  | mixCount
  | mixSlots (count : W32)
  /-- A write whose answer nothing awaits. -/
  | plain
  deriving DecidableEq, Repr

/-- An outstanding ADMIN transaction (R443). -/
structure Adm where
  ring : Nat
  node : Nat
  seq : BitVec 16
  write : Bool
  count : Nat
  /-- Cycles since the request. -/
  age : Nat := 0
  what : AdmFor
  deriving DecidableEq, Repr

/-- The carrier sent for a node in a cycle (R432). -/
structure Carrier where
  axs : BitVec 4
  sub : BitVec 8
  ctxs : List Nat
  deriving DecidableEq, Repr

/-- A frame that arrives in segments (R445). -/
structure Tun where
  frame : BitVec 16 := 0
  next : Nat := 0
  bytes : List Byte := []
  /-- The frame is discarded; its further segments are not counted again. -/
  bad : Bool := false
  deriving DecidableEq, Repr

/-- The link (chapter 10). Node keys are `ring * 256 + node`. -/
structure Lnk where
  ports : Table Port := []
  dirs : Table Dir := []
  adm : List Adm := []
  seq : BitVec 16 := 0
  carriers : Table (Option Carrier) := []
  /-- FAULT, MISS and STOPPED of the latest UP of a node. -/
  nodeFlags : Table (BitVec 3) := []
  /-- The I/O images by `ring * 65536 + 32 n + 8 k + j` (R441). -/
  ioOut : Table W32 := []
  ioIn : Table W32 := []
  tuns : Table Tun := []
  deriving DecidableEq, Repr

/-! ## Rings (chapter 11) -/

/-- The states of a ring (R481). -/
inductive RingSt where
  | off | intake | enum | measure | closed | twoEnded
  deriving DecidableEq, Repr

/-- The code of RING_STATUS.STATE. -/
def RingSt.code : RingSt → Nat
  | .off => 0
  | .intake => 1
  | .enum => 2
  | .measure => 3
  | .closed => 4
  | .twoEnded => 5

/-- What a JOIN tells of a node (R482). -/
structure Join where
  id : W32
  caps : W32
  prep : W32
  fwd : BitVec 8
  nonce : BitVec 16
  deriving DecidableEq, Repr

/-- A change of a node's serving direction and path delay that waits for its T0 (R492, R495). -/
structure NodePend where
  seq : BitVec 16
  second : Bool
  pd : W32
  /-- Sent again in every cycle until the node's UP cell arrives (R495). -/
  repeat_ : Bool
  deriving DecidableEq, Repr

/-- A node of a ring's node table. -/
structure Node where
  id : W32 := 0
  caps : W32 := 0
  prep : W32 := 0
  fwd : BitVec 8 := 0
  pd : W32 := 0
  /-- Served from the second port. -/
  second : Bool := false
  lost : Bool := false
  pend : Option NodePend := none
  deriving DecidableEq, Repr

/-- A search for a break (R493): when LOCATE left, and what each end has found. -/
structure Locate where
  at_ : W64
  max : Option Nat := none
  min : Option Nat := none
  deriving DecidableEq, Repr

/-- What an ECHO is for: the delay table (R489), a healed segment (R501), or the tail's path delay
(R540). -/
inductive EchoFor where
  | measure | heal | tail
  deriving DecidableEq, Repr

/-- An ECHO that waits for its answer (R489, R501): its node, when it left, its end. -/
structure Echo where
  node : Nat
  at_ : W64
  second : Bool
  what : EchoFor
  deriving DecidableEq, Repr

/-- A ring. Delays are in ns × 2^8. -/
structure Ring where
  st : RingSt := .off
  /-- The ring has been in INTAKE since the reset (R480). -/
  begun : Bool := false
  nodes : Nat := 0
  max : Nat := 0
  min : Nat := 0
  loopCw : W32 := 0
  loopCcw : W32 := 0
  seg : Table W32 := []
  tbl : Table Node := []
  joins : List Join := []
  /-- The latest admission on the first and the second port (R484), and the latest JOIN. -/
  admAt0 : Option W64 := none
  admAt1 : Option W64 := none
  joinAt : W64 := 0
  /-- Enumeration: the number of the probe's transaction, when the running probe left, its DIR,
  and the final HOP of each probe with its port of return (`true`: the second). -/
  enumSeq : BitVec 16 := 0
  probeAt : W64 := 0
  probeDir : Nat := 0
  hop0 : Option (Nat × Bool) := none
  hop1 : Option (Nat × Bool) := none
  foundClosed : Bool := false
  enumLeft : List Nat := []
  echo : Option Echo := none
  /-- The echoes still to make. -/
  echoLeft : List (Nat × Bool) := []
  /-- Path delays by node: clockwise and counter-clockwise. -/
  pdCw : Table W32 := []
  pdCcw : Table W32 := []
  markSeen : Bool := false
  locate : Option Locate := none
  restoreReq : Bool := false
  /-- The gap's nodes show lock since (R499), and whether the latest reads did. -/
  gapSince : Option W64 := none
  gapLow : Bool := false
  gapHigh : Bool := false
  pollAt : W64 := 0
  unfold : Option (BitVec 16) := none
  unfolded : Bool := false
  deriving DecidableEq, Repr

/-! ## Twin (chapter 13) -/

/-- The twin states (R559). -/
inductive TwinSt where
  | off | joining | standby | active | refused | diverged | detached
  deriving DecidableEq, Repr

/-- The code of TWIN_STATUS.STATE. -/
def TwinSt.code : TwinSt → Nat
  | .off => 0
  | .joining => 1
  | .standby => 2
  | .active => 3
  | .refused => 4
  | .diverged => 5
  | .detached => 6

/-- A mirrored descriptor, on its way or waiting for its hinge point (R549, R551). -/
structure Mirror where
  mseq : BitVec 16
  applySeq : BitVec 16
  op : BitVec 8
  d : Desc
  deriving DecidableEq, Repr

/-- A part of a TW_DESC that has arrived (R564). -/
structure DescPart where
  mseq : BitVec 16
  sq : BitVec 6
  applySeq : BitVec 16
  /-- Descriptor bytes received so far, little-endian, and how many parts. -/
  bytes : BitVec 512
  parts : Nat
  deriving DecidableEq, Repr

/-- The twin. -/
structure Twin where
  st : TwinSt := .off
  claim : BitVec 8 := 0
  partner : BitVec 8 := 0
  partnerSt : BitVec 3 := 0
  partnerOk : Bool := false
  /-- The partner's PF bit and the nodes it reaches (R564). -/
  partnerPf : Bool := false
  reach : BitVec 32 := 0
  cause : Nat := 0
  pcfg : W32 := 0
  /-- Contexts synced on this unit (R555), and those whose copy has completed. -/
  synced : List Nat := []
  copied : List Nat := []
  mseq : BitVec 16 := 0
  theta : Int := 0
  misses : Nat := 0
  /-- A heartbeat arrived since the latest T0, and cells of the partner's claim since then. -/
  hbSeen : Bool := false
  cellSeen : Bool := false
  prevHb : Bool := false
  heartAt : W64 := 0
  joinAt : W64 := 0
  lastRx : W32 := 0
  /-- TXS of this unit's latest heartbeat, and of the one before. -/
  lastTx : W32 := 0
  prevTx : W32 := 0
  queue : List Mirror := []
  part : Option DescPart := none
  /-- Own digests of the cycle, by context (R557). -/
  own : Table (Option W32) := []
  mism : Table Nat := []
  /-- Words that mirrored descriptors wrote since the copy began, by `ctx * 1024 + word`. -/
  written : List Nat := []
  /-- A switch that waits for its APPLY_SEQ, whether this unit becomes ACTIVE, the new claim
  and the descriptor. -/
  switch : Option (BitVec 16 × Bool × BitVec 8 × Option Cmd) := none
  mixAt : W64 := 0
  /-- MIX_COUNT at the latest poll, by node key. -/
  mix : Table W32 := []
  /-- A cell of another claim was seen on a ring since the unit entered JOINING. -/
  otherSeen : Bool := false
  /-- Contexts that the partner reports synced, the miss of this cycle is counted, and the index
  of the next copy cell. -/
  pSynced : Nat := 0
  missDone : Bool := false
  copySeq : BitVec 16 := 0
  deriving DecidableEq, Repr

end Sys2Proof.Machine
end

