-- ==== Sys2Proof/Machine/Parts6.lean ====
section
/-! DEFINITION. The pieces of the block's state, sixth part: the Brake Guard and the acquisition
units. -/

namespace Sys2Proof.Machine

/-! ## Brake Guard (chapter 14) -/

/-- The states of a channel (R590). -/
inductive GuardSt where
  | selftest | run | sealed | unconfirmed | safe
  deriving DecidableEq, Repr

/-- The code of GUARD_x_STATE.STATE. -/
def GuardSt.code : GuardSt → Nat
  | .selftest => 0
  | .run => 1
  | .sealed => 2
  | .unconfirmed => 3
  | .safe => 4

/-- A brake switch as its own channel drives and senses it (R580 to R585). -/
structure BrkSw where
  /-- The switch is driven conducting. -/
  on : Bool := false
  /-- A test pulse runs since. -/
  pulse : Option W64 := none
  /-- A withdrawal fell inside the pulse (R584). -/
  wins : Bool := false
  /-- SHORT, STUCK, OPEN, LOAD, OVERLOAD: latched, and present now. -/
  latch : BitVec 5 := 0
  cond : BitVec 5 := 0
  deriving DecidableEq, Repr

/-- A parameter write that waits for the channel's next decision (R600). -/
structure GWrite where
  id : Nat
  val : W32
  /-- It was accepted in sealed mode, and the descriptor that it completes. -/
  sealed_ : Bool := false
  cmd : Option Cmd := none
  deriving DecidableEq, Repr

/-- A channel of the Brake Guard. -/
structure Guard where
  st : GuardSt := .selftest
  cause : Nat := 0
  /-- The channel's copy of the safety parameters, by ID (R601). -/
  params : Table W32 := []
  writes : List GWrite := []
  /-- Parameters changed in sealed mode and not yet confirmed (R597). -/
  unconf : List Nat := []
  /-- The password, byte 0 lowest; 0: none set. -/
  password : BitVec 128 := 0
  /-- The instants of the latest mismatches, and whether the channel is locked (R595). -/
  fails : List W64 := []
  locked : Bool := false
  log : List (BitVec 128) := []
  /-- The axes of the channel's own grant, at its latest decision. -/
  grants : List Nat := []
  /-- Axes whose grant item 4 or 5 withdrew, until RQ has been 0 (R572, item 7). -/
  blocked : List Nat := []
  cnt : BitVec 8 := 0
  /-- The axes of the release bits of the latest guard train (R574). -/
  rel : List Nat := []
  demand : BitVec 8 := 0
  discrep : BitVec 8 := 0
  /-- Pairs whose inputs have demanded together since the discrepancy was latched (R579). -/
  together : BitVec 8 := 0
  sw : Table BrkSw := []
  /-- Axes with a mapping that differs, and the SRC fields found (R577). -/
  mapBad : Table Nat := []
  sbtFault : List Nat := []
  /-- No heartbeat of the other channel is seen (R570). -/
  xmonLost : Bool := false
  deriving DecidableEq, Repr

/-- A holding-torque test in progress (R587). -/
structure Sbt where
  ctx : Nat
  step : Nat
  /-- The hinge point at which it began. -/
  at_ : W64
  p0 : W32 := 0
  cmd : Option Cmd
  deriving DecidableEq, Repr

/-- What both channels share: the seal inputs and the holding-torque test. -/
structure Seals where
  a : Bool := false
  b : Bool := false
  mism : Bool := false
  sbt : Option Sbt := none
  sbtLast : Nat := 0
  /-- Operating minutes of the latest passing test of an axis, and of the latest SBT_DUE look. -/
  sbtPass : Table W32 := []
  deriving DecidableEq, Repr

/-! ## Acquisition (chapter 16) -/

/-- The states of an acquisition unit (R664). -/
inductive AcqSt where
  | idle | run | armed
  deriving DecidableEq, Repr

/-- The code of ACQ_STATUS.STATE. -/
def AcqSt.code : AcqSt → Nat
  | .idle => 0
  | .run => 1
  | .armed => 2

/-- A row of raw channel values, by channel, with the channels that are stale. -/
structure Row where
  at_ : W64
  vals : Table W24 := []
  stale : List Nat := []
  deriving DecidableEq, Repr

/-- What a dec lane has gathered of a channel (R658). -/
structure DecAcc where
  sum : Int := 0
  mn : Int := 0
  mx : Int := 0
  stale : Bool := false
  deriving DecidableEq, Repr

/-- A level trigger (R660). -/
structure LvlTrig where
  up : Bool := false
  down : Bool := false
  deriving DecidableEq, Repr

/-- A fire that was detected: its stamp in units of 2^-8 ns, cause and lane or slot. -/
structure Fire where
  stamp : Nat
  cause : Nat
  origin : Nat
  sfrac : Nat := 0
  lane : Nat := 0xFF
  slot : Nat := 0xFFFF
  deriving DecidableEq, Repr

/-- An acquisition unit. -/
structure AcqU where
  st : AcqSt := .idle
  rearm : Bool := false
  /-- Rows since START, and the instant of the latest. -/
  rows : W32 := 0
  lastRow : W64 := 0
  holdoff : Nat := 0
  /-- The previous row's raw values, by channel. -/
  prev : Option Row := none
  dec : Table DecAcc := []
  decN : Nat := 0
  patWas : Bool := false
  lt0 : LvlTrig := {}
  lt1 : LvlTrig := {}
  /-- No row has been seen since arming. -/
  fresh : Bool := false
  fires : W32 := 0
  /-- Fires of the outside paths that wait for the unit's next row (R663). -/
  outside : List Fire := []
  /-- Values captured for a CYCLE row, and the row that waits for the unit's stage (R652, R653). -/
  vals : Table W24 := []
  row : Option Row := none
  prod : W32 := 0
  wr : W32 := 0
  gap : W32 := 0
  deriving DecidableEq, Repr

/-- The ball TRIG_IO (R662, R666). -/
structure Trig where
  /-- The device drives it low since. -/
  low : Option W64 := none
  deriving DecidableEq, Repr

end Sys2Proof.Machine
end

