-- ==== Sys2Proof/Machine/State.lean ====
section
/-! DEFINITION. The state of the block, its faults and refusals, and the state after reset. -/

namespace Sys2Proof.Machine

/-- Everything the spec gives the block. -/
structure State where
  /-- The commands that wait, first in, first out. -/
  pending : List Instr := []
  /-- Backbone time: its nanoseconds and their fraction in units of 2^-32 ns (R505). -/
  bt : W64 := 0
  frac : W32 := 0
  /-- The active values of the registers that hold a value of their own, by `regKey`; a
  register that is not listed holds its reset value. -/
  regs : Table W32 := []
  /-- The staged values that differ from the active ones, by `regKey` (R763, R764). -/
  stage : Table W32 := []
  /-- The staging state of the 18 blocks (R766). -/
  blks : Table Blk := []
  tm : TimeSt := {}
  cyc : Cyc := {}
  ctxs : Table CtxSt := []
  runs : Table (Option CtxRun) := []
  flows : Table Flow := []
  disp : Disp := {}
  engs : Table Engine := []
  host : HostSt := {}
  fw : Fw := {}
  streams : Table Stream := []
  recd : RecSt := {}
  pwr : Pwr := {}
  boot : Boot := {}
  fbs : Table Fb := []
  pwms : Table Pwm := []
  /-- Fault inputs NA0_FLT_N to NA7_FLT_N found active by their filter (R309). -/
  pwmFlt : BitVec 8 := 0
  /-- The torque-off demands of Brake Guard channels A ([7:0]) and B ([15:8]) (R309, R591); in SELFTEST both
  demand for every axis whose TO_EN is 1, its reset value (R601). -/
  bgTo : BitVec 16 := 0xFFFF
  axes : Table Axis := []
  mss : Table Ms := []
  cams : Table Cam := []
  grps : Table Grp := []
  evs : Table Ev := []
  go : Go := {}
  lnk : Lnk := {}
  rings : Table Ring := []
  twin : Twin := {}
  /-- The Brake Guard's channels A and B, and what they share. -/
  gA : Guard := {}
  gB : Guard := {}
  seals : Seals := {}
  acqs : Table AcqU := []
  trig : Trig := {}
  /-- The cabinet: 8 MiB of bytes (R610). -/
  cab : List Host.Cell := []
  outputs : List Output := []
  /-- The model's own: counts the free values drawn so far. -/
  free : Nat := 0
  deriving DecidableEq, Repr

/-- The reasons a step can fault. No meaning of this block faults: the spec gives every
command an effect, and a read of an address that does not exist returns 0 (R3). -/
inductive Fault where
  deriving DecidableEq, Repr

/-- The reasons a command can be refused. -/
inductive Refusal where
  /-- The command of this mnemonic has no meaning yet; raised by `exec`. Safe. -/
  | notModelled (mnemonic : String)
  deriving DecidableEq, Repr

/-- The block at the release instant (R735): every register at its reset value, every domain
ON, BT at 0 (R746, step 3). -/
def State.reset : State := {}

end Sys2Proof.Machine
end

