-- ==== Sys2Proof/Machine/Ops.lean ====
section
/-! DEFINITION. The named operations over registers, the cabinet, drawers, events, completions
and the stream rings, which every meaning shares. -/

namespace Sys2Proof.Machine

/-! ## Registers -/

/-- The key of a register's instance. -/
def regKey (r : Reg) (sel : Nat) : Nat := r.addr * 0x100000 + sel

/-- The active value of a register's instance. -/
def State.rg (s : State) (r : Reg) (sel : Nat := 0) : W32 := tget r.reset s.regs (regKey r sel)

/-- The active value of a field `[hi:lo]` of a register's instance. -/
def State.rf (s : State) (r : Reg) (sel hi lo : Nat) : Nat := bitsOf (s.rg r sel) hi lo

/-- The state with the active value of a register's instance set. -/
def State.setRg (s : State) (r : Reg) (sel : Nat) (v : W32) : State :=
  { s with regs := tset r.reset s.regs (regKey r sel) v }

/-- Adding to a 32-bit counter that saturates at 0xFFFF_FFFF. -/
def satAdd (v : W32) (n : Nat) : W32 := BitVec.ofNat 32 (min (v.toNat + n) 0xFFFFFFFF)

/-- An RC counter rises by `n` (R58, R99, R158 and the like). -/
def State.bump (s : State) (r : Reg) (sel : Nat := 0) (n : Nat := 1) : State :=
  s.setRg r sel (satAdd (s.rg r sel) n)

/-- An RC register keeps the larger of its value and `n`. -/
def State.keepMax (s : State) (r : Reg) (sel n : Nat) : State :=
  s.setRg r sel (BitVec.ofNat 32 (max (s.rg r sel).toNat n))

/-- The staged value of a register's instance (R764). -/
def State.stg (s : State) (r : Reg) (sel : Nat := 0) : W32 :=
  tget (s.rg r sel) s.stage (regKey r sel)

/-- A 64-bit register pair. -/
def State.rg64 (s : State) (lo hi : Reg) (sel : Nat) : W64 := s.rg hi sel ++ s.rg lo sel

/-! ## Time -/

/-- BT32 (R8). -/
def State.bt32 (s : State) : W32 := s.bt.setWidth 32

/-- `a` lies after `b` (R8). -/
def bt32After (a b : W32) : Bool := let d := (a - b).toNat; 1 ≤ d && d ≤ 2 ^ 31 - 1

/-- The rate correction y (R506): the servo's output and the rate of a slew, within ±250 ppm. -/
def State.rateY (s : State) : Rat :=
  let y := (s.tm.out : Rat) / 256000000000 + (if s.tm.slewing then (s.tm.slewRate : Rat) / 1000000 else 0)
  max (-(250 / 1000000)) (min (250 / 1000000) y)

/-- What is left of a slew after `dt` ns of CLK_CORE (R511, R516). -/
def TimeSt.slewAfter (t : TimeSt) (dt : Rat) : TimeSt :=
  if !t.slewing then t
  else
    let l := t.slewLeft - dt * t.slewRate / 1000000
    { t with slewLeft := if 0 ≤ t.slewRate then max 0 l else min 0 l }

/-- BT moved up to the instant at which an event falls, when it lies before it. -/
def State.upTo (s : State) (t : W64) : State :=
  if s.bt < t then
    { s with bt := t, frac := 0,
             tm := s.tm.slewAfter (((t - s.bt).toNat : Rat) / (1 + s.rateY)) }
  else s

/-- One CLK_CORE edge (R505): INC = (1 + y) ns is added to BT. -/
def State.clockEdge (s : State) : State :=
  let inc := (2 ^ 32 + (s.rateY * 2 ^ 32).floor).toNat
  let t := s.frac.toNat + inc
  { s with bt := s.bt + BitVec.ofNat 64 (t / 2 ^ 32), frac := BitVec.ofNat 32 t,
           tm := s.tm.slewAfter 1 }

/-- A fresh index for a free value. -/
def State.draw (s : State) : Nat × State := (s.free, { s with free := s.free + 1 })

/-! ## What leaves -/

/-- The state with one more output. -/
def State.out (s : State) (o : Output) : State := { s with outputs := s.outputs ++ [o] }

/-! ## The cabinet -/

/-- The byte at cabinet address `a` (R610); memory at reset reads 0. -/
def State.cabByte (s : State) (a : Nat) : Byte := tget 0 s.cab a

/-- The 32-bit little-endian word at cabinet byte address `a` (R4, R610). -/
def State.cabWord (s : State) (a : Nat) : W32 :=
  s.cabByte (a + 3) ++ s.cabByte (a + 2) ++ s.cabByte (a + 1) ++ s.cabByte a

/-- The recorder buffer's region of the cabinet (R679). -/
def recBase : Nat := 0x300000

/-- The page of the recorder buffer that a cabinet address lies in. -/
def recPage (a : Nat) : Option Nat :=
  if recBase ≤ a && a < recBase + 0x40000 then some ((a - recBase) / 4096) else none

/-- A page becomes dirty when one of its bytes changes (R690). -/
def State.markDirty (s : State) (a : Nat) : State :=
  match recPage a with
  | some p => if p ∈ s.recd.dirty then s else { s with recd.dirty := s.recd.dirty ++ [p] }
  | none => s

/-- The state with one cabinet byte written. -/
def State.setCabByte (s : State) (a : Nat) (v : Byte) : State :=
  if s.cabByte a = v then s
  else ({ s with cab := tset 0 s.cab a v }).markDirty a

/-- The state with a little-endian 32-bit cabinet word written. -/
def State.setCabWord (s : State) (a : Nat) (v : W32) : State :=
  (((s.setCabByte a (v.extractLsb' 0 8)).setCabByte (a + 1) (v.extractLsb' 8 8)).setCabByte
    (a + 2) (v.extractLsb' 16 8)).setCabByte (a + 3) (v.extractLsb' 24 8)

/-- The cabinet bank of a byte address, and its power domain (R715). -/
def bankDom (a : Nat) : Nat := 7 + a / 0x100000

/-! ## Power domains -/

/-- A power domain. -/
def State.dom (s : State) (d : Nat) : Dom := tget {} s.pwr.dom d

/-- The state with a power domain set. -/
def State.setDom (s : State) (d : Nat) (x : Dom) : State :=
  { s with pwr.dom := tset {} s.pwr.dom d x }

/-- The domain is ON. -/
def State.isOn (s : State) (d : Nat) : Bool := (s.dom d).st == .on

/-- The domain of the cluster of an engine (R102, R715). -/
def engDom (e : Nat) : Nat := 3 + e / 6

/-- The domains that placement can own (R726). -/
def placeable (d : Nat) : Bool := (3 ≤ d && d ≤ 6) || (11 ≤ d && d ≤ 14)

/-- Placement owns the domain now (R726). -/
def State.auto (s : State) (d : Nat) : Bool := placeable d && !(s.dom d).hostOwned

/-! ## Message signalled interrupts and the recorder's counters -/

/-- A vector signals (R608, R639). -/
def State.signal (s : State) (v : Nat) : State :=
  if !s.host.msixEnable then s
  else if s.host.msixFMask || s.host.msixMask.getLsbD v then
    { s with host.msixPend := s.host.msixPend ||| BitVec.ofNat 64 (2 ^ v) }
  else s.out (.msix v)

/-- A counter of the recorder buffer rises by 1 and saturates (R682). -/
def State.recBump (s : State) (off : Nat) : State :=
  s.setCabWord (recBase + off) (satAdd (s.cabWord (recBase + off)) 1)

/-- The record of an axis in the recorder buffer (R679). -/
def axisRec (n : Nat) : Nat := 0x10000 + (n - 1) * 1024

/-- Whether the pages of flush cause `b` cover those of cause `a` (R692): PERIODIC and HOST go on
until no page is dirty. -/
def flushCovers (b a : Nat) : Bool := b == 4 || b == 5 || !(a == 4 || a == 5)

/-- A flush is requested (R692, R694): it waits, and only one held flush waits. -/
def State.askFlush (s : State) (cause : Nat) (cmds : List Cmd) : State :=
  match s.recd.held with
  | none => { s with recd.held := some ⟨cause, cmds⟩ }
  | some h =>
    let c := if flushCovers h.cause cause then h.cause else cause
    { s with recd.held := some ⟨c, h.cmds ++ cmds⟩ }

/-- The event log takes an entry (R689). -/
def State.logEvent (s : State) (code : BitVec 16) (src : Nat) (sev : Sev) (pay : Payload) :
    State :=
  let next := (s.cabWord (recBase + 328)).toNat % 4096
  let a := recBase + 0x30000 + 16 * next
  let w2 : W32 := BitVec.ofNat 8 sev.code ++ BitVec.ofNat 8 src ++ code
  let s := (((s.setCabWord a (s.cabWord (recBase + 4))).setCabWord (a + 4) s.bt32).setCabWord
    (a + 8) w2).setCabWord (a + 12) (pay.setWidth 32)
  (s.setCabWord (recBase + 328) (BitVec.ofNat 32 ((next + 1) % 4096))).recBump 332

/-! ## Completion buffers -/

/-- A completion ring's buffer. -/
def State.cq (s : State) (n : Nat) : Cq := tget {} s.host.cqs n

/-- The state with a completion ring's buffer set. -/
def State.setCq (s : State) (n : Nat) (c : Cq) : State :=
  { s with host.cqs := tset {} s.host.cqs n c }

/-- A submission ring. -/
def State.sq (s : State) (n : Nat) : Sq := tget {} s.host.sqs n

/-- The state with a submission ring set. -/
def State.setSq (s : State) (n : Nat) (q : Sq) : State :=
  { s with host.sqs := tset {} s.host.sqs n q }

/-- The selector value of a ring: KIND in [9:8], number in [5:0] (R646). -/
def ringSel (kind n : Nat) : Nat := kind * 256 + n

/-- A ring's EN, LOG2SIZE and BIND (R646). -/
def State.ringEn (s : State) (kind n : Nat) : Bool := bitOf (s.rg HOST_RING_CFG (ringSel kind n)) 0
def State.ringSize (s : State) (kind n : Nat) : Nat :=
  2 ^ s.rf HOST_RING_CFG (ringSel kind n) 8 4
def State.ringBind (s : State) (kind n : Nat) : Nat := s.rf HOST_RING_CFG (ringSel kind n) 21 16

/-- An entry that an event or item merges into (R635). -/
def sameEntry (a b : CqEntry) : Bool := a.ty == b.ty && a.status == b.status && a.src == b.src

/-- An occurrence merged into an entry (R635): COUNT rises and the latest values stand. -/
def mergeInto (old new : CqEntry) : CqEntry :=
  { old with count := satAdd old.count new.count.toNat, occ := old.occ + new.occ,
             bt := new.bt, payload := new.payload, severe := old.severe || new.severe }

/-- The buffer with the first entry that `p` holds of replaced. -/
def updFirst (p : CqEntry → Bool) (u : CqEntry → CqEntry) : List CqEntry → List CqEntry
  | [] => []
  | e :: es => if p e then u e :: es else e :: updFirst p u es

/-- The payload of a SUMMARY entry for an occurrence (R636, R758). -/
def summaryPayload (e : CqEntry) : Payload :=
  let sev : Nat := if e.ty == .event then bitsOf e.payload 121 120 else 0
  BitVec.ofNat 128 (e.status.toNat + e.src.toNat * 2 ^ 16 + sev * 2 ^ 24 +
    (if e.ty == .event then 1 else 2) * 2 ^ 32)

/-- An event or item enters a completion buffer (R634 to R636). -/
def State.postEntry (s : State) (n : Nat) (e : CqEntry) : State :=
  let c := s.cq n
  let s := { s with host.ledger.posted := s.host.ledger.posted + e.occ }
  if c.buf.any (sameEntry · e) then
    s.setCq n { c with buf := updFirst (sameEntry · e) (mergeInto · e) c.buf }
  else if (c.buf.filter (fun x => x.ty == .event || x.ty == .item)).length < 31 then
    s.setCq n { c with buf := c.buf ++ [e] }
  else
    let m : CqEntry :=
      { ty := .summary, status := 0x0E03, bt := e.bt, payload := summaryPayload e,
        severe := e.severe, count := e.count, occ := e.occ }
    let s := s.bump HOST_SUMMARY
    if c.buf.any (fun x => x.ty == .summary) then
      s.setCq n { c with buf := updFirst (fun x => x.ty == .summary) (mergeInto · m) c.buf }
    else s.setCq n { c with buf := c.buf ++ [m] }

/-- A block posts an event (R633, R756 to R758): the completion entry, the counters of the
global record and of the axis, the event log and the FAULT flush. -/
def State.post (s : State) (code : BitVec 16) (sev : Sev) (src : Nat) (pay : Payload := 0) :
    State :=
  let pay : Payload := BitVec.ofNat 8 sev.code ++ pay.setWidth 120
  let cls := code.toNat / 256
  let hi := sev == .severe || sev == .stop
  let e : CqEntry :=
    { ty := .event, src := BitVec.ofNat 8 src, status := code, bt := s.bt32, payload := pay,
      severe := hi }
  let s := s.postEntry (s.rf HOST_EVT_CQ src 5 0) e
  let s := s.recBump (48 + 16 * (cls - 1) + 4 * sev.code)
  let s := if 1 ≤ src && src ≤ 128 then s.recBump (axisRec src + 420 + 4 * sev.code) else s
  let s := if hi || cls == 0x0A then s.logEvent code src sev pay else s
  if hi then s.askFlush 2 [] else s

/-- A descriptor completes (R629, R631): its COMMAND entry becomes complete in the buffer of
the CQ bound to its SQ. One whose reserved entry was emptied by a host-interface reset has none
left (R644). -/
def State.complete (s : State) (c : Option Cmd) (status : BitVec 16) (pay : Payload := 0) :
    State :=
  match c with
  | none => s
  | some c =>
    if c.epoch ≠ s.host.epoch then s else
    let n := s.ringBind 0 c.sq.toNat
    let q := s.cq n
    let e : CqEntry :=
      { ty := .command, src := c.src, status := status, tag := c.tag, sq := c.sq.setWidth 8,
        op := c.op, bt := s.bt32, payload := pay, irq := c.irq }
    let s := s.setCq n { q with buf := q.buf ++ [e], reserved := q.reserved - 1 }
    s.setSq c.sq.toNat { s.sq c.sq.toNat with opened := (s.sq c.sq.toNat).opened - 1 }

/-! ## Payload helpers -/

/-- A payload from bytes, byte 0 first. -/
def payOf : List Nat → Payload
  | [] => 0
  | b :: bs => (payOf bs <<< 8) ||| BitVec.ofNat 128 (b % 256)

/-- Little-endian bytes of a number. -/
def leBytes (n v : Nat) : List Nat := (List.range n).map (fun i => v / 2 ^ (8 * i) % 256)

/-- The number that little-endian bytes spell. -/
def leNum : List Nat → Nat
  | [] => 0
  | b :: bs => b + 256 * leNum bs

/-- The bytes of a 32-bit word in host memory (R4). -/
def w32Bytes (v : W32) : List Byte := (leBytes 4 v.toNat).map (BitVec.ofNat 8)

/-- The code of an entry type (R629). -/
def EntTy.code : EntTy → Nat
  | .command => 0
  | .event => 1
  | .item => 2
  | .summary => 3

/-- The 32 bytes of a completion entry with a PHASE (R4, R629). -/
def CqEntry.bytes (e : CqEntry) (phase : Bool) : List Byte :=
  ([e.ty.code + 128 * b2n phase, e.src.toNat] ++ leBytes 2 e.status.toNat ++ leBytes 2 e.tag.toNat ++
    [e.sq.toNat, e.op.toNat] ++ leBytes 4 e.count.toNat ++ leBytes 4 e.bt.toNat ++
    leBytes 16 e.payload.toNat).map (BitVec.ofNat 8)

/-- Big-endian bytes of a number. -/
def beBytes (n v : Nat) : List Nat := (leBytes n v).reverse

end Sys2Proof.Machine

namespace Sys2Proof

/-- Payload bytes `[lo, lo + n)` of a descriptor as a little-endian number; `lo` counts from
byte 0 of the descriptor, as the opcode tables do. -/
def Desc.le (d : Desc) (lo n : Nat) : Nat := bitsOf d.payload (8 * (lo - 16 + n) - 1) (8 * (lo - 16))

/-- The same bytes as a signed number. -/
def Desc.les (d : Desc) (lo n : Nat) : Int :=
  sbitsOf d.payload (8 * (lo - 16 + n) - 1) (8 * (lo - 16))

end Sys2Proof

namespace Sys2Proof.Machine

/-! ## Stream rings -/

/-- A stream ring's writer. -/
def State.strm (s : State) (k : Nat) : Stream := tget {} s.streams k

/-- The state with a stream ring's writer set. -/
def State.setStrm (s : State) (k : Nat) (x : Stream) : State :=
  { s with streams := tset {} s.streams k x }

/-- The token bucket filled up to now (R670): BW MB/s is BW thousandths of a byte each ns. -/
def State.fillStrm (s : State) (k : Nat) : State :=
  let x := s.strm k
  let dt := (s.bt - x.filledAt).toNat
  s.setStrm k { x with tokens := min 16384000 (x.tokens + dt * s.rf (ACQ_BW k) 0 9 0),
                       filledAt := s.bt }

/-- The bytes of a page that records take. -/
def recBytes (rs : List Rec) : Nat := (rs.map Rec.size).sum

/-- A page can go to the ring: it is enabled and not full (R619, R671). -/
def State.strmOpen (s : State) (k : Nat) : Bool :=
  let x := s.strm k
  s.isOn 20 && s.ringEn 2 k && decide ((x.tail + 1) % s.ringSize 2 k ≠ x.head)

/-- The ring can take `n` more bytes now (R671): enabled, not full, within its tokens and its
writer buffer. -/
def State.strmRoom (s : State) (k n : Nat) : Bool :=
  let x := s.strm k
  s.strmOpen k && decide (n * 1000 ≤ x.tokens) && decide (recBytes x.page + n ≤ 16384)

/-- The samples of a page have been written (R673). -/
def State.countPage (s : State) (k : Nat) : State :=
  if 8 ≤ k then s
  else
    let u := tget {} s.acqs k
    let n := ((s.strm k).page.map Rec.samples).sum
    { s with acqs := tset {} s.acqs k { u with wr := u.wr + BitVec.ofNat 32 n } }

/-- The unused part of a page is filled with PAD records (R667, R669). -/
def padPage (rs : List Rec) : List Rec :=
  let n := 4096 - recBytes rs
  rs ++ List.replicate (n / 32) { size := 32, data := 0 } ++
    (if n % 32 = 0 then [] else [{ size := n % 32, data := 0 }])

/-- A page is completed (R669): padded, written, SR_TAIL advanced and the vector signalled. -/
def State.closePage (s : State) (k : Nat) : State :=
  let s := s.countPage k
  let x := s.strm k
  let t := (x.tail + 1) % s.ringSize 2 k
  let s := s.out (.page k x.tail (padPage x.page))
  let s := s.setStrm k { x with page := [], tail := t }
  (s.out (.doorbell (0x600 + 4 * k) (w32Bytes (BitVec.ofNat 32 t)))).signal (s.ringBind 2 k)

/-- One record enters the writer buffer and spends its tokens; a full page is completed. -/
def State.putRec (s : State) (k : Nat) (r : Rec) : State :=
  let x := s.strm k
  let x := { x with page := x.page ++ [r], tokens := x.tokens - r.size * 1000,
                    pageAt := if x.page = [] then s.bt else x.pageAt }
  let s := s.setStrm k x
  if 4096 ≤ recBytes x.page then s.closePage k else s

/-! ## Contexts and templates -/

/-- The header of a context's template (R66); context 0 has none. -/
def State.hdr (s : State) (c : Nat) : W64 :=
  if c = 0 then 0 else s.rg64 DISP_TPL_HDR_LO DISP_TPL_HDR_HI c

/-- A stage word of a context's template (R67). -/
def State.stw (s : State) (c i : Nat) : W64 := s.rg64 (DISP_TPL_ST_LO i) (DISP_TPL_ST_HI i) c

/-- A context is enabled while its template has EN = 1 (R332). -/
def State.ctxEn (s : State) (c : Nat) : Bool := bitOf (s.hdr c) 63

/-- The stages of a template (R66, NST). -/
def State.nst (s : State) (c : Nat) : Nat := bitsOf (s.hdr c) 48 45 + 1

/-- DIV as a number (R66). -/
def hdrDiv (h : W64) : Nat := 2 ^ bitsOf h 59 58

/-- A context with this header runs in the cycle of this count (R19). -/
def hdrRuns (h : W64) (count : Nat) : Bool := bitOf h 63 && decide (count % hdrDiv h = bitsOf h 57 55)

/-- What the dispatcher keeps of a context. -/
def State.ctx (s : State) (c : Nat) : CtxSt := tget {} s.ctxs c

/-- The state with it set. -/
def State.setCtx (s : State) (c : Nat) (x : CtxSt) : State := { s with ctxs := tset {} s.ctxs c x }

/-- An engine. -/
def State.eng (s : State) (e : Nat) : Engine := tget {} s.engs e

/-- The state with an engine set. -/
def State.setEng (s : State) (e : Nat) (x : Engine) : State :=
  { s with engs := tset {} s.engs e x }

/-! ## Drawers -/

/-- The drawer slot of an engine that holds a context's drawer. -/
def Engine.slotOf (x : Engine) (c : Nat) : Option Nat :=
  (List.range 12).find? (fun k => tget 0 x.slots k == c)

/-- Where a context's drawer is resident (R64, R805). -/
def State.resident (s : State) (c : Nat) : Option (Nat × Nat) :=
  (List.range 24).findSome? (fun e => (s.eng e).slotOf c |>.map (fun k => (e, k)))

/-- The cabinet home of a drawer word (R63, R64). -/
def drawerHome (c w : Nat) : Nat := c * 4096 + 4 * w

/-- A word of a context's drawer, at its current copy (R64). -/
def State.drawer (s : State) (c w : Nat) : W24 :=
  match s.resident c with
  | some (e, k) => tget 0 (s.eng e).ldm (k * 1024 + w)
  | none => (s.cabWord (drawerHome c w)).setWidth 24

/-- A drawer word that holds loop, supervision, detector or generator state of the library (R196, R326),
in a layout that the spec does not give. -/
def libStateWord (w : Nat) : Bool :=
  (w < 0x080 && !(decide (0x040 ≤ w) && decide (w < 0x046))) || (0x1A0 ≤ w && w < 0x200) ||
    (0x211 ≤ w && w < 0x300)

/-- The library stage that last wrote the state words of a context's drawer, on an axis that runs the
library (R195, R196). -/
def State.libDraw (s : State) (c : Nat) : Option Nat :=
  if 1 ≤ c && c ≤ 128 && bitsOf (s.hdr c) 62 60 ≤ 2 then (tget {} s.axes c).libDraw else none

/-- The library's state words of a context's drawer that a loop program has written since, in the running
stage too. -/
def State.libOwn (s : State) (c : Nat) : List Nat :=
  (tget {} s.axes c).libOwn ++ s.engs.flatMap (fun p =>
    match p.2.run with
    | some r => if r.ctx = c && r.lib == s.libDraw c then r.libOwn else []
    | none => [])

/-- A drawer word as it is read from outside the library: the library's own state is a free value,
until a loop program writes the word. -/
def State.drawerSeen (s : State) (c w : Nat) : W24 :=
  match s.libDraw c with
  | some e =>
    if libStateWord w && decide (w ∉ s.libOwn c) then Config.libState e w else s.drawer c w
  | none => s.drawer c w

/-- An ON request or a wake event reaches a domain (R720, R724): it starts a wake or a cold
start, or is latched while a transition is in progress. -/
def State.wakeDom (s : State) (d : Nat) (cmds : List (Option Cmd)) : State :=
  let x := s.dom d
  match x.st with
  | .on => s
  | .ret => s.setDom d { x with st := .waking, startAt := s.bt, wakeCmds := x.wakeCmds ++ cmds }
  | .off =>
    s.setDom d { x with st := .leavingOff, startAt := s.bt, wakeCmds := x.wakeCmds ++ cmds }
  | _ => s.setDom d { x with latched := some .on, latchedCmds := x.latchedCmds ++ cmds }

/-- A cabinet access to the bank of a byte address (R718): one to a bank that is not ON is
counted, reported once, and wakes a bank that placement owns; one to a bank that is ON restarts
its idle time (R727). -/
def State.touchBank (s : State) (a : Nat) : State :=
  let d := bankDom a
  let x := s.dom d
  if x.st == .on then s.setDom d { x with idle := 0 }
  else
    let s := s.bump PWR_ACC_OFF d
    let s := if x.accPosted then s
      else (s.setDom d { x with accPosted := true }).post 0x0902 .warn 0 (payOf [d])
    if s.auto d then s.wakeDom d [] else s

/-- The state with a drawer word written at its current copy; CAB0 takes nothing while
it is not ON (R718). -/
def State.setDrawer (s : State) (c w : Nat) (v : W24) : State :=
  match s.resident c with
  | some (e, k) => s.setEng e { s.eng e with ldm := tset 0 (s.eng e).ldm (k * 1024 + w) v }
  | none =>
    if s.isOn 7 then s.setCabWord (drawerHome c w) (v.setWidth 32)
    else s.touchBank (drawerHome c w)

end Sys2Proof.Machine
end

