-- ==== Sys2Proof/Machine/Tokens.lean ====
section
/-! DEFINITION. The dispatcher's shared operations: runs, tokens, ready lists, shelves, cancels and
the decision trace (R61 to R97). -/

namespace Sys2Proof.Machine

/-- The run of a context in this cycle. -/
def State.run (s : State) (c : Nat) : Option CtxRun := tget none s.runs c

/-- The state with a context's run set. -/
def State.setRun (s : State) (c : Nat) (r : CtxRun) : State :=
  { s with runs := tset none s.runs c (some r) }

/-- A stage of a context's run. -/
def State.stage? (s : State) (c i : Nat) : Option StageRun :=
  (s.run c).bind (fun r => tget none r.stages i)

/-- The state with a stage of a run set. -/
def State.setStage (s : State) (c i : Nat) (x : StageRun) : State :=
  match s.run c with
  | some r => s.setRun c { r with stages := tset none r.stages i (some x) }
  | none => s

/-! ## Fields of a stage word (R67) -/

def stwEntry (w : W64) : BitVec 13 := w.extractLsb' 51 13
def stwInit (w : W64) : Nat := bitsOf w 50 47
def stwSucc (w : W64) : BitVec 16 := w.extractLsb' 31 16
def stwFlow (w : W64) : Nat := bitsOf w 30 25
def stwFlowEn (w : W64) : Bool := bitOf w 24
def stwItems (w : W64) : Nat := bitsOf w 23 22 + 1
def stwPrio (w : W64) : Nat := bitsOf w 21 19
def stwRoc (w : W64) : Bool := bitOf w 18
def stwTok (w : W64) : Nat := bitsOf w 17 15
def stwOut (w : W64) : Bool := bitOf w 14
def stwBg (w : W64) : Bool := bitOf w 13

/-- The stages that a mask names, in ascending order. -/
def maskList (m : BitVec 16) : List Nat := (List.range 16).filter (fun j => m.getLsbD j)

/-! ## Decision trace (R96, R97) -/

/-- The types of trace records. -/
inductive TrcTy where
  | dispatch | complete | cancel | abort | migrate
  deriving DecidableEq, Repr

/-- The code of a trace record, and its bit in TYPES. -/
def TrcTy.code : TrcTy → Nat
  | .dispatch => 1
  | .complete => 2
  | .cancel => 3
  | .abort => 4
  | .migrate => 5

/-- A 16-byte trace record. -/
def trcRec (bt : W32) (code ctx stFl eng arg0 arg1 cyc : Nat) (rseq : BitVec 16) : Rec :=
  { size := 16
    data := BitVec.ofNat 256 (bt.toNat + (code * 16) * 2 ^ 32 + ctx * 2 ^ 40 + stFl * 2 ^ 48 +
      eng * 2 ^ 56 + (arg0 % 65536) * 2 ^ 64 + (arg1 % 65536) * 2 ^ 80 + (cyc % 65536) * 2 ^ 96 +
      rseq.toNat * 2 ^ 112) }

/-- The trace writes a record to SR8, or withholds it (R96, R97). -/
def State.trace (s : State) (ty : TrcTy) (ctx stage flags eng arg0 arg1 : Nat) : State :=
  let ctl := s.rg DISP_TRC_CTL
  let sel := bitOf ctl 0 && bitOf ctl ty.code &&
    bitOf (s.rg (DISP_TRC_MASK (ctx / 32))) (ctx % 32)
  if !sel then s else
  let s := s.fillStrm 8
  let gap := s.disp.withheld ≠ 0
  if s.strmRoom 8 (if gap then 32 else 16) then
    let s := if gap then
        let n := s.disp.withheld.toNat
        let r := trcRec s.bt32 15 0 0 0xFF n (n / 65536) s.cyc.count.toNat s.disp.rseq
        ({ s with disp.withheld := 0, disp.rseq := s.disp.rseq + 1 }).putRec 8 r
      else s
    let r := trcRec s.bt32 ty.code ctx (stage * 16 + flags) eng arg0 arg1 s.cyc.count.toNat
      s.disp.rseq
    ({ s with disp.rseq := s.disp.rseq + 1 }).putRec 8 r
  else { s with disp.withheld := s.disp.withheld + 1 }

/-! ## The token ledger (R74, R99) -/

def State.issue (s : State) (n : Nat) : State :=
  { s with disp.tok.issued := satAdd s.disp.tok.issued n }
def State.retire (s : State) (n : Nat) : State :=
  { s with disp.tok.retired := satAdd s.disp.tok.retired n }
def State.dropTok (s : State) (n : Nat) : State :=
  { s with disp.tok.dropped := satAdd s.disp.tok.dropped n }

/-- A stage is dispatched or resolved as cancelled: its delivered tokens move to RETIRED, and
those of a background stage enter ISSUED in the same step (R74). -/
def State.retireStage (s : State) (c i : Nat) (x : StageRun) : State :=
  let s := if stwBg (s.stw c i) then s.issue x.delivered else s
  s.retire x.delivered

/-- A stray token is counted, and the first one of a cycle posted (R72, R803). -/
def State.strayTok (s : State) (c i kind src : Nat) : State :=
  let s := { s with disp.tok.stray := satAdd s.disp.tok.stray 1 }
  if s.cyc.straySeen then s
  else
    let n := s.cyc.count.toNat % 65536
    ({ s with cyc.straySeen := true }).post 0x0C33 .info c
      (payOf [i, kind, src, 0, n % 256, n / 256])

/-! ## Shelves (R86 to R90) -/

/-- A flow. -/
def State.flow (s : State) (f : Nat) : Flow := tget {} s.flows f

/-- The state with a flow set. -/
def State.setFlow (s : State) (f : Nat) (x : Flow) : State :=
  { s with flows := tset {} s.flows f x }

/-- H passes the holes that it stands at (R90). -/
def passHoles : Nat → Flow → Flow
  | 0, x => x
  | n + 1, x =>
    match tget none x.slots x.h with
    | some t => if t.hole then passHoles n { x with h := x.h + 1, slots := terase x.slots x.h } else x
    | none => x

/-- The output of a context's run is lost (R47). -/
def State.loseRun (s : State) (c : Nat) : State :=
  match s.run c with
  | some r => s.setRun c { r with lost := true }
  | none => s

/-- The slot of a tag is released as a hole (R89): counted, and the output of the run is lost
when it is the first slot of an OUT stage (R47). -/
def State.holeSlot (s : State) (f t : Nat) : State :=
  let x := s.flow f
  match tget none x.slots t with
  | none => s
  | some sl =>
    if sl.hole then s else
    let x := { x with slots := tset none x.slots t (some { sl with hole := true, item := none }) }
    let s := (s.setFlow f (passHoles 2048 x)).bump DISP_FLOW_HOLE f
    if sl.first then s.loseRun sl.ctx else s

/-- The tags of a stage's slots from its `k`th on. -/
def tagsFrom (s : State) (c i : Nat) (x : StageRun) (k : Nat) : List Nat :=
  let w := s.stw c i
  if stwFlowEn w then (List.range (stwItems w - k)).map (fun j => x.tag + k + j) else []

/-- The slots of a stage that hold no item are released as holes. -/
def State.holeEmpty (s : State) (c i : Nat) (x : StageRun) : State :=
  (tagsFrom s c i x x.placed).foldl (fun s t => s.holeSlot (stwFlow (s.stw c i)) t) s

/-- A stage places an item in its next slot, or beyond its slots (R89, R139). -/
def State.putItem (s : State) (c i : Nat) (bytes : List Byte) : State :=
  match s.stage? c i with
  | none => s
  | some x =>
    let w := s.stw c i
    let f := stwFlow w
    if x.placed < stwItems w then
      let fl := s.flow f
      let t := x.tag + x.placed
      let s := match tget none fl.slots t with
        | some sl =>
          if sl.hole then s
          else s.setFlow f { fl with slots := tset none fl.slots t (some { sl with item := some bytes }) }
        | none => s
      s.setStage c i { x with placed := x.placed + 1 }
    else
      let n := s.cyc.count.toNat % 65536
      (s.bump DISP_FLOW_OVERPUT f).post 0x0C30 .warn c (payOf [f, i, n % 256, n / 256])

/-- A stage holds its shelf credit (R88). -/
def State.hasCredit (s : State) (c i : Nat) (x : StageRun) : Bool :=
  let w := s.stw c i
  !stwFlowEn w || decide (x.tag + stwItems w ≤ (s.flow (stwFlow w)).h + 64)

/-! ## Readiness and tokens -/

/-- A stage whose counter has reached 0 becomes ready: it enters its ready list, or waits outside for
its credit, which counts once (R73, R88). -/
def State.makeReady (s : State) (c i : Nat) (x : StageRun) : State :=
  let x := { x with cancelRun := x.cancelTok, readyAt := s.bt }
  if s.hasCredit c i x then s.setStage c i { x with st := .ready }
  else (s.bump DISP_FLOW_CWAIT (stwFlow (s.stw c i))).setStage c i { x with st := .credit }

/-- A stage is resolved as cancelled (R92): its tokens retire, its slots become holes. The cancel
tokens to its successors are the caller's. Its trace record has FLAGS 0 and ARG0 0, which R96 leaves open
(DESIGN CHOICE, log 150). -/
def State.markCancelled (s : State) (c i : Nat) (x : StageRun) : State :=
  let s := s.retireStage c i x
  let s := s.setStage c i { x with st := .cancelled, delivered := 0 }
  let s := s.holeEmpty c i x
  let tag := if stwFlowEn (s.stw c i) then x.tag else 0xFFFF
  s.trace .cancel c i 0 0xFF 0 tag

/-- A stage that has been resolved takes no token (R72). -/
def StageRun.resolved (x : StageRun) : Bool :=
  x.st == .complete || x.st == .cancelled || x.st == .killed || x.st == .running

/-- A completion or cancel token reaches a stage (R69, R70, R92, R93). A cancel of a stage goes on
to its successors, which have higher numbers (R68); `n` bounds their depth. -/
def State.token : Nat → State → Nat → Nat → Bool → State
  | 0, s, _, _, _ => s
  | n + 1, s, c, i, cancel =>
    match s.stage? c i with
    | none => s.strayTok c i (if cancel then 1 else 0) 0
    | some x =>
      if x.resolved || x.cnt = 0 then s.strayTok c i (if cancel then 1 else 0) 0 else
      let w := s.stw c i
      let s := if stwBg w then s else s.issue 1
      let x := { x with cnt := x.cnt - 1, delivered := x.delivered + 1,
                        cancelTok := x.cancelTok || cancel }
      if cancel && !stwRoc w then
        let s := (s.setStage c i x).markCancelled c i x
        (maskList (stwSucc w)).foldl (fun s j => State.token n s c j true) s
      else if x.cnt = 0 then (s.setStage c i x).makeReady c i x
      else s.setStage c i x

/-- A stage is resolved as cancelled without running and its successors receive cancel tokens. -/
def State.cancelStage (s : State) (c i : Nat) (x : StageRun) : State :=
  let s := s.markCancelled c i x
  (maskList (stwSucc (s.stw c i))).foldl (fun s j => s.token 17 c j true) s

/-- An external token reaches one stage (R71). -/
def State.extStage (s : State) (c i kind : Nat) : State :=
  match s.stage? c i with
  | none => s.strayTok c i 2 kind
  | some x =>
    if x.resolved || x.extSeen || x.cnt = 0 then s.strayTok c i 2 kind else
    let s := if stwBg (s.stw c i) then s else s.issue 1
    let x := { x with cnt := x.cnt - 1, delivered := x.delivered + 1, extSeen := true }
    let s := s.setStage c i x
    if x.cnt = 0 then s.makeReady c i x else s

/-- An external token of a kind reaches a context (R71, R72): one for each stage of the context
with the matching TOKSRC; a stray when the context does not run or has no such stage. -/
def State.extTok (s : State) (c kind : Nat) : State :=
  let ts := (List.range (s.nst c)).filter (fun i => stwTok (s.stw c i) == kind)
  match s.run c with
  | none => s.strayTok c 0xFF 2 kind
  | some _ =>
    if ts = [] then s.strayTok c 0xFF 2 kind
    else ts.foldl (fun s i => s.extStage c i kind) s

/-- DEADLINE in effect (R41). -/
def State.deadline (s : State) : Nat :=
  let d := s.rf DISP_CYC_DEADLINE 0 19 0
  if d = 0 then 4 * s.rf DISP_CYC_PERIOD 0 19 0 / 5 else d

/-- The instant lies between T0 + DEADLINE and the next T0 (R30). -/
def State.pastDeadline (s : State) : Bool :=
  match s.cyc.phase with
  | .idle => false
  | .active => decide (s.cyc.t0 + BitVec.ofNat 64 s.deadline ≤ s.bt)
  | _ => true

/-- An external token other than an UP cell (R30): held between the deadline and the next T0. -/
def State.extArrive (s : State) (c kind : Nat) : State :=
  if s.pastDeadline then
    { s with cyc.held := s.cyc.held ++ [⟨c, kind⟩] }
  else s.extTok c kind

/-! ## Ends of stages -/

/-- A stage has completed (R69, R70, R89, R93): empty slots become holes and each successor gets
its token; a cancel run gives cancel tokens to all. -/
def State.endStage (s : State) (c i : Nat) (mask : BitVec 16) : State :=
  match s.stage? c i with
  | none => s
  | some x =>
    let w := s.stw c i
    let s := s.setStage c i { x with st := .complete }
    let s := s.holeEmpty c i x
    (maskList (stwSucc w)).foldl
      (fun s j => s.token 17 c j (x.cancelRun || mask.getLsbD j)) s

/-- Insertion into a list ordered by a key, after the entries of the same key. -/
def insertBy {α : Type} (key : α → Nat) (a : α) : List α → List α
  | [] => [a]
  | b :: bs => if key a < key b then a :: b :: bs else b :: insertBy key a bs

/-- A list in the order of a key; entries of one key keep their order. -/
def sortBy {α : Type} (key : α → Nat) (l : List α) : List α :=
  l.foldl (fun acc a => insertBy key a acc) []

/-- The stages that stand in the ready lists, in the order of R76: by priority, then in the order they
became ready, then by context and stage (R75). -/
def State.readyList (s : State) : List (Nat × Nat × StageRun) :=
  let all := s.runs.flatMap (fun p => match p.2 with
    | some r => r.stages.filterMap (fun q => match q.2 with
      | some x => if x.st == .ready then some (p.1, q.1, x) else none
      | none => none)
    | none => [])
  let key (t : Nat × Nat × StageRun) : Nat :=
    ((stwPrio (s.stw t.1 t.2.1) * 2 ^ 64 + t.2.2.readyAt.toNat) * 256 + t.1) * 16 + t.2.1
  sortBy key all

/-- Some stage of the context is running (R805). -/
def CtxRun.running (r : CtxRun) : Bool :=
  r.stages.any (fun q => match q.2 with
    | some x => x.st == .running
    | none => false)

/-- Some stage of the context is running or ready, be it without its credit (R73, R79). -/
def CtxRun.busy (r : CtxRun) : Bool :=
  r.stages.any (fun q => match q.2 with
    | some x => x.st == .running || x.st == .ready || x.st == .credit
    | none => false)

end Sys2Proof.Machine
end

