-- ==== Sys2Proof/Machine/Axes.lean ====
section
/-! DEFINITION. The shared operations on axes, near-axis feedback, PWM modules and groups: their
accessors, completions of motion descriptors, and the stop reactions (R233 to R239, R328, R361). -/

namespace Sys2Proof.Machine

/-! ## Accessors -/

/-- An axis. -/
def State.ax (s : State) (c : Nat) : Axis := tget {} s.axes c

/-- The state with an axis set. -/
def State.setAx (s : State) (c : Nat) (x : Axis) : State := { s with axes := tset {} s.axes c x }

/-- The feedback of a near axis. -/
def State.fb (s : State) (n : Nat) : Fb := tget {} s.fbs n

/-- The state with it set. -/
def State.setFb (s : State) (n : Nat) (x : Fb) : State := { s with fbs := tset {} s.fbs n x }

/-- A PWM module. -/
def State.pwm (s : State) (m : Nat) : Pwm := tget {} s.pwms m

/-- The state with it set. -/
def State.setPwm (s : State) (m : Nat) (x : Pwm) : State := { s with pwms := tset {} s.pwms m x }

/-- A group. -/
def State.grp (s : State) (g : Nat) : Grp := tget {} s.grps g

/-- The state with it set. -/
def State.setGrp (s : State) (g : Nat) (x : Grp) : State := { s with grps := tset {} s.grps g x }

/-- A compare slot. -/
def State.ev (s : State) (k : Nat) : Ev := tget {} s.evs k

/-- The state with it set. -/
def State.setEv (s : State) (k : Nat) (x : Ev) : State := { s with evs := tset {} s.evs k x }

/-- The near axis that a header names (R66). -/
def hdrNear (h : W64) : Option Nat := if bitOf h 31 then some (bitsOf h 20 18) else none

/-- The near axis of an axis context. -/
def State.nearOf (s : State) (c : Nat) : Option Nat :=
  if 1 ≤ c && c ≤ 128 then hdrNear (s.hdr c) else none

/-- The axis contexts. -/
def axisCtxs : List Nat := (List.range 128).map (· + 1)

/-- The axis context whose template names a near axis, CTX 0 when none does (R288, R322): the
enabled one when one is. -/
def State.ctxOfNear (s : State) (n : Nat) : Nat :=
  let cs := axisCtxs.filter (fun c => s.nearOf c == some n)
  ((cs.find? s.ctxEn).or cs.head?).getD 0

/-- The PROF of a context (R66). -/
def State.prof (s : State) (c : Nat) : Nat := bitsOf (s.hdr c) 62 60

/-! ## Numbers of the drawer -/

/-- A drawer word as a signed number. -/
def State.dws (s : State) (c w : Nat) : Int := (s.drawer c w).toInt

/-- A drawer word as a natural number. -/
def State.dwn (s : State) (c w : Nat) : Nat := (s.drawer c w).toNat

/-- A Q1.23 drawer word. -/
def State.dwq (s : State) (c w : Nat) : Rat := (s.dws c w : Rat) / 2 ^ 23

/-- The 64-bit value of three consecutive drawer words (R128): bits [23:0], [47:24], [63:48]. -/
def State.dw64 (s : State) (c w : Nat) : W64 :=
  (s.drawer c (w + 2)).setWidth 16 ++ s.drawer c (w + 1) ++ s.drawer c w

/-- A Q48.16 value of three consecutive drawer words (R323). -/
def State.dw48 (s : State) (c w : Nat) : Rat := ((s.dw64 c w).toInt : Rat) / 2 ^ 16

/-- An unsigned 48-bit integer of two consecutive drawer words. -/
def State.dwu48 (s : State) (c w : Nat) : Nat := s.dwn c w + s.dwn c (w + 1) * 2 ^ 24

/-- The value of an SG parameter (R202). -/
def sgVal (w : W24) : Rat :=
  let m : Rat := (bitsOf w 23 5 : Nat)
  let e := sbitsOf w 4 0
  if 0 ≤ e then m / 2 ^ 18 * 2 ^ e.toNat else m / 2 ^ 18 / 2 ^ (-e).toNat

/-- An SG drawer word. -/
def State.dwsg (s : State) (c w : Nat) : Rat := sgVal (s.drawer c w)

/-- A number as Q48.16, rounded down to 2^-16 and reduced to 64 bits. -/
def q48 (r : Rat) : W64 := BitVec.ofInt 64 (r * 2 ^ 16).floor

/-- The value of a Q48.16 word. -/
def ofQ48 (w : W64) : Rat := (w.toInt : Rat) / 2 ^ 16

/-- A law's value in Q1.23, saturated (R240); between two steps the library's rounding decides. -/
def q23 (r : Rat) : W24 :=
  let f : Int := (r * 2 ^ 23).floor
  let up : Int := if (Rat.ofInt f) ≠ r * 2 ^ 23 ∧ Config.lawRoundUp r then 1 else 0
  let n : Int := f + up
  BitVec.ofInt 24 (max (-(2 ^ 23)) (min (2 ^ 23 - 1) n))

/-! ## Completions of motion descriptors (R328, R329) -/

/-- No reversal (R329). -/
def noReversal : W64 := 0x8000000000000000

/-- The payload of a motion completion (R329). -/
def motionPay (p : Rat) (rev : Option Rat) : Payload :=
  ((rev.map q48).getD noReversal) ++ q48 p

/-- A motion descriptor of an axis completes. -/
def State.completeMotion (s : State) (c : Nat) (cmd : Option Cmd) (status : BitVec 16) : State :=
  s.complete cmd status (motionPay (s.ax c).kin.p (s.ax c).rev)

/-- The payload of a motion descriptor's completion that concerns no one axis (R329): bytes 0 to 7 are
free, and nothing reversed. `c` is the group context, or 0. -/
def noAxisPay (c : Nat) : Payload := noReversal ++ Config.noPcmd c

/-- A motion descriptor that concerns no one axis completes. -/
def State.reply (s : State) (c : Nat) (cmd : Option Cmd) (status : BitVec 16) : State :=
  s.complete cmd status (noAxisPay c)

/-- A motion descriptor completes without a motion of its own (R329). -/
def State.answer (s : State) (c : Nat) (cmd : Option Cmd) (st : BitVec 16) : State :=
  s.complete cmd st (motionPay (s.ax c).kin.p none)

/-- The uncompleted descriptor of an axis completes, if there is one. -/
def State.endMotion (s : State) (c : Nat) (status : BitVec 16) : State :=
  let x := s.ax c
  match x.cmd with
  | none => s
  | some _ => (s.completeMotion c x.cmd status).setAx c { s.ax c with cmd := none, rev := none }

/-- A queued segment's descriptor ends. -/
def State.endSeg (s : State) (c : Nat) (g : PvtSeg) (status : BitVec 16) : State :=
  match g.cmd with
  | some m => s.completeMotion c (some m) status
  | none => s

/-- Every descriptor of an axis that has not completed completes: the one that entered the mode,
those of queued segments and one that waits for a slot. -/
def State.endAllMotion (s : State) (c : Nat) (status : BitVec 16) : State :=
  let x := s.ax c
  let s := x.pvt.foldl (fun s g => s.endSeg c g status) (s.endMotion c status)
  let s := match x.held with
    | some h => s.completeMotion c h.cmd status
    | none => s
  s.setAx c { s.ax c with pvt := [], held := none }

/-! ## Homing failures (R392) -/

/-- HM_RESULT (R385). -/
def State.hmResult (s : State) (c cause st : Nat) : State :=
  let x := s.ax c
  s.setDrawer c 0x31A (BitVec.ofNat 24
    (cause + st * 16 + b2n x.homed * 256 + b2n x.hm.rev.isSome * 512))

/-- HOMED of an axis, which HM_RESULT shows (R385, R389, R396). -/
def State.setHomed (s : State) (c : Nat) (b : Bool) : State :=
  let s := s.setAx c { s.ax c with homed := b }
  s.setDrawer c 0x31A ((s.drawer c 0x31A &&& ~~~ (0x100 : W24)) ||| BitVec.ofNat 24 (b2n b * 256))

/-- Homing fails (R392): HOMED is 0, HM_RESULT names the cause and the state, and HM_START
completes with HOMING_FAILED and the reversal of the search (R394). -/
def State.homingEnd (s : State) (c cause : Nat) : State :=
  let x := s.ax c
  let s := s.setAx c { x with homed := false, rev := x.hm.rev, pushing := false }
  (s.hmResult c cause x.hm.st.code).endMotion c 0x0340

/-- The axis decelerates to rest at a rate under JMAX and enters IDLE with its loops closed. -/
def State.stopAt (s : State) (c : Nat) (d : Rat) : State :=
  let x := s.ax c
  let pl : Plan := { start := x.kin, goal := .vel 0, lims := ⟨0, d, d, s.dw48 c 0x209⟩, t0 := x.kinT }
  s.setAx c { x with mode := .stop, plan := some pl }

/-- A homing failure with the stop of R392. -/
def State.homingFail (s : State) (c cause : Nat) : State :=
  (s.homingEnd c cause).stopAt c (s.dw48 c 0x20C)

/-! ## PWM modules (R290 to R293, R305, R313) -/

/-- The phases of a module. -/
def Pwm.phase (x : Pwm) (k : Nat) : PwmPhase := if k = 0 then x.u else if k = 1 then x.v else x.w

/-- The module with every phase changed. -/
def Pwm.mapPh (x : Pwm) (f : PwmPhase → PwmPhase) : Pwm := { x with u := f x.u, v := f x.v, w := f x.w }

/-- The instant `n` units of 125 ps of CLK_CORE after a module's zero, in ns of BT. -/
def State.pwmInstant (s : State) (m n : Nat) : Rat := (s.pwm m).zero + (n : Rat) / 8 * (1 + s.rateY)

/-- TPER of a module in units of 125 ps. -/
def State.pwmPer (s : State) (m : Nat) : Nat := 8 * s.rf PWM_PER m 19 0

/-- LIM of R308: the larger of 8 ns and TPER / 2,500, rounded down. -/
def State.pwmLim (s : State) (m : Nat) : Nat := max 64 (s.pwmPer m / 2500)

/-- sat() of R302. -/
def satTo (b : Nat) (v : Int) : Int := max (-(b : Int)) (min (b : Int) v)

/-- The length of a module's running period with the open remainder that its zero takes (R308). -/
def State.pwmSpan (s : State) (m : Nat) : Nat :=
  let x := s.pwm m
  ((x.len : Int) + satTo (s.pwmLim m) x.rem).toNat

/-- The rate correction changes with the servo or a slew; the counters, on CLK_CORE, keep their
positions (R290). -/
def State.withRate (s : State) (tm : TimeSt) : State :=
  let k := 1 + s.rateY
  let t := { s with tm := tm }
  let k' := 1 + t.rateY
  if k = k' then t
  else (List.range 8).foldl (fun t m =>
    let x := t.pwm m
    t.setPwm m { x with zero := (t.bt.toNat : Rat) - ((t.bt.toNat : Rat) - x.zero) * k' / k }) t

/-- The position of a module's counter now, in units of 125 ps. -/
def State.pwmPos (s : State) (m : Nat) : Nat :=
  let x := s.pwm m
  (((s.bt.toNat : Rat) - x.zero) * 8 / (1 + s.rateY)).floor.toNat % max 1 (s.pwmSpan m)

/-- The grid of a module's edges in units of 125 ps (R293). -/
def State.pwmGrid (s : State) (m : Nat) : Nat :=
  if bitOf (s.rg PWM_CTL m) 7 && (s.pwm m).calOk then 1 else 8

/-- The delivered on-time and the start of a phase's window, on the grid (R291, R293). -/
def State.pwmWindow (s : State) (m : Nat) (p : PwmPhase) : Nat × Nat :=
  let g := s.pwmGrid m
  (p.start / g * g, p.on / g * g)

/-- The high side is active at a position (R292). -/
def State.pwmHighOn (s : State) (m k pos : Nat) : Bool :=
  let w := s.pwmWindow m ((s.pwm m).phase k)
  decide (w.1 + 8 * s.rf PWM_DT m 11 0 ≤ pos) && decide (pos < w.1 + w.2)

/-- The low side is active at a position (R292). -/
def State.pwmLowOn (s : State) (m k pos : Nat) : Bool :=
  let p := (s.pwm m).phase k
  let w := s.pwmWindow m p
  let dl := 8 * s.rf PWM_DT m 27 16
  decide (w.1 + w.2 + dl ≤ pos) || (decide (pos < w.1) && decide (p.prevEnd + dl ≤ (pos : Int)))

/-- A phase's carry is counted as lost. -/
def PwmPhase.leave (p : PwmPhase) : PwmPhase :=
  { p with sat := p.sat + BitVec.ofInt 32 p.carry, carry := 0 }

/-- A module leaves RUN for a state (R305, R312). -/
def State.pwmLeave (s : State) (m : Nat) (t : PwmSt) : State :=
  let x := s.pwm m
  let low (k : Nat) : Nat := b2n (s.pwmLowOn m k (s.pwmPos m)) * 2 ^ k
  s.setPwm m { x.mapPh PwmPhase.leave with
    st := t, enable := false, landed := false, defer := none, actAt := s.bt,
    lowWas := BitVec.ofNat 3 (low 0 + low 1 + low 2) }

/-- TORQUE_OFF disables a near axis's module at once (R237, R313). -/
def State.pwmOff (s : State) (m : Nat) : State :=
  match (s.pwm m).st with
  | .run => s.pwmLeave m .disabled
  | _ => s.setPwm m { s.pwm m with enable := false }

/-! ## Stop reactions (R234 to R238, R361) -/

/-- A slot is disarmed without firing; an EV_ARM whose check has not happened completes. -/
def State.disarm (s : State) (k : Nat) : State :=
  let e := s.ev k
  if e.armed then
    (s.setEv k { e with armed := false, sched := [], cmd := none }).answer e.owner e.cmd 0x0333
  else s

/-- The slots of a disabled owner are disarmed without firing (R363). -/
def State.disarmAll (s : State) (c : Nat) : State :=
  (List.range 256).foldl (fun s k => if (s.ev k).owner == c then s.disarm k else s) s

/-- TORQUE_OFF (R237) of an axis alone: no torque, brake engaged, disabled (R239, R332). -/
def State.axisOff (s : State) (c : Nat) : State :=
  let x := s.ax c
  let s := s.setAx c { x with enabled := false, stop := .off, engage := true, od := true,
                              plan := none, next := none, nextNew := none, pushing := false, mode := .idle,
                              group := none }
  let s := s.disarmAll c
  match s.nearOf c with
  | some n => s.pwmOff n
  | none => s

/-- The generator of an axis begins the quick stop of R235. -/
def State.axisQstop (s : State) (c : Nat) : State :=
  let x := s.ax c
  let q := s.dw48 c 0x20C
  let pl : Plan :=
    { start := x.kin, goal := .vel 0, lims := ⟨0, q, q, s.dw48 c 0x209⟩, t0 := x.kinT }
  s.setAx c { x with mode := .stop, plan := some pl, stop := .decel s.bt, pushing := false,
                     next := none, nextNew := none, group := none }

/-- The other members of a group take QSTOP on their own axes, and the queued segments complete
with MOVE_ABORTED (R361). -/
def State.groupFault (s : State) (g c : Nat) : State :=
  let x := s.grp g
  let s := x.queue.foldl (fun s sg => s.reply (129 + g) sg.cmd 0x0321) s
  let s := match x.open_ with
    | some o => (o.seg.cmd :: o.cmds).foldl (fun (s : State) m => s.reply (129 + g) m 0x0321) s
    | none => s
  let s := s.setGrp g {}
  let s := s.post 0x0331 .severe (129 + g)
  x.members.foldl (fun s m =>
    if m = c || !(s.ax m).enabled then s
    else if (s.ax m).stop = .none then s.axisQstop m else s) s

/-- A stop reaction of an axis (R238): TORQUE_OFF when `off`, else QSTOP. A TORQUE_OFF ends a
QSTOP; a QSTOP leaves a stop in progress as it is. -/
def State.react (s : State) (c : Nat) (off : Bool) : State :=
  let x := s.ax c
  if !x.enabled then s
  else if !off && x.stop ≠ .none then (s.setAx c { x with faulted := true }).endAllMotion c 0x0321
  else
    let s := (s.setAx c { x with faulted := true }).endAllMotion c 0x0321
    let s := if off then s.axisOff c else s.axisQstop c
    match x.group with
    | some g => s.groupFault g c
    | none => s

/-- The stop reaction that STOP_REACT selects (R234). -/
def State.stopReact (s : State) (c : Nat) : State := s.react c (bitOf (s.drawer c 0x080) 5)

/-- TORQUE_OFF as a fault's reaction. -/
def State.torqueOff (s : State) (c : Nat) : State := s.react c true

end Sys2Proof.Machine
end

