-- ==== Sys2Proof/Machine/Feedback.lean ====
section
/-! DEFINITION. The near axes' feedback inputs: quadrature, index, Hall, SSI, sigma-delta, lines,
step and direction, and the latch into the inbox (R241 to R288). -/

namespace Sys2Proof.Machine

/-! ## Shared operations -/

/-- The near-axis logic and the field receivers are ON (R715). -/
def State.nearOn (s : State) : Bool := s.isOn 21 && s.isOn 22

/-- A sticky bit of FB_STATUS is set. -/
def State.fbSticky (s : State) (n bit : Nat) : State :=
  s.setRg FB_STATUS n (s.rg FB_STATUS n ||| BitVec.ofNat 32 (2 ^ bit))

/-- POS_SRC of a near axis. -/
def State.posSrc (s : State) (n : Nat) : Nat := s.rf FB_CFG n 1 0

/-- A fault of R283: SEVERE with TORQUE_OFF when it concerns an input that an enabled axis uses,
whose HOMED it clears (R396) and whose homing it fails (R392); WARN otherwise. -/
def State.fbFault (s : State) (code : BitVec 16) (n : Nat) (used : Bool) (pay : Payload) : State :=
  let c := s.ctxOfNear n
  if used && (s.ax c).enabled then
    let s := s.post code .severe c pay
    let s := if (s.ax c).mode == .homing then s.homingEnd c 6 else s
    (s.setHomed c false).torqueOff c
  else s.post code .warn c pay

/-- Nanoseconds since an instant, saturated at 0xFF_FFFF (R242). -/
def ageOf (now : W64) : Option W64 → W24
  | some t => BitVec.ofNat 24 (min (now - t).toNat 0xFFFFFF)
  | none => 0xFFFFFF

/-! ## Quadrature (R248 to R264) -/

/-- The quotient of two whole numbers rounded to the nearest, halves up. -/
def roundDiv (a b : Int) : Int := (2 * a + b) / (2 * b)

/-- The counter takes a value that no edge gave it (R254). -/
def Fb.setCnt (x : Fb) (v : W32) : Fb := { x with cnt := v, adj := x.adj + (x.cnt - v) }

/-- An index in ALWAYS mode after the first (R261, R262). -/
def State.indexAgain (s : State) (n : Nat) (r : W32) : State :=
  let x := s.fb n
  let cpr : Int := (s.rg FB_IDX_CPR n).toNat
  let delta := (x.cnt - r).toInt
  let e := delta - cpr * roundDiv delta cpr
  let x := { x with indexErr := BitVec.ofInt 32 e }
  if e.natAbs ≤ s.rf FB_IDX_TOL n 15 0 then
    let v := x.cnt - BitVec.ofInt 32 e
    s.setFb n { x.setCnt v with idxRef := some v }
  else
    let s := s.setFb n { x with idxMism := true }
    let s := ((s.fbSticky n 3).fbSticky n 4).bump FB_INDEX_MISM n
    s.post 0x0403 .warn (s.ctxOfNear n) ((BitVec.ofInt 32 e).setWidth 128)

/-- An index is taken (R258 to R262). -/
def State.index (s : State) (n : Nat) : State :=
  let x := s.fb n
  let x := { x with idxLatch := x.cnt, idx := true }
  let s := s.setFb n x
  let val := s.rg FB_IDX_VAL n
  match s.rf FB_CFG n 3 2 with
  | 1 =>
    match x.idxRef with
    | none => s.setFb n { x.setCnt val with idxRef := some val }
    | some r => s.indexAgain n r
  | 2 => if x.armed then s.setFb n { x.setCnt val with armed := false } else s
  | _ => s

/-- An accepted edge turns DIR after DIR_HYST + 1 edges against it (R264). -/
def State.turnDir (s : State) (n : Nat) (up : Bool) : State :=
  let x := s.fb n
  if up != x.dir then s.setFb n { x with against := 0 }
  else if x.against < s.rf FB_EDGE n 27 20 then s.setFb n { x with against := x.against + 1 }
  else
    let s := (s.setFb n { x with dir := !x.dir, against := 0, dirChg := true }).fbSticky n 2
    if bitOf (s.rg FB_CFG n) 16 && !x.dirPosted then
      (s.setFb n { s.fb n with dirPosted := true }).post 0x0404 .info (s.ctxOfNear n)
    else s

/-- The counter's step for an accepted edge, its ledger and its wraps (R252, R253, R255); `t` is the
instant of the edge. -/
def State.countEdge (s : State) (n : Nat) (up : Bool) (t : W64) : State :=
  let x := s.fb n
  let x := { x with obs := x.obs + 1, acc := x.acc + 1, lastAcc := some t }
  if up then
    let w := x.cnt = 0xFFFFFFFF
    let s := s.setFb n { x with cnt := x.cnt + 1, up := x.up + 1, wrapUp := x.wrapUp || w }
    if w then s.fbSticky n 0 else s
  else
    let w := x.cnt = 0
    let s := s.setFb n { x with cnt := x.cnt - 1, dn := x.dn + 1, wrapDn := x.wrapDn || w }
    if w then s.fbSticky n 1 else s

/-- An edge of the instant `t` is accepted (R252 to R264); `a` and `b` are the state it enters, `z` the
filtered Z. -/
def State.acceptEdge (s : State) (n : Nat) (up a b z : Bool) (t : W64) : State :=
  let s := (s.countEdge n up t).turnDir n up
  let cfg := s.rg FB_CFG n
  if z && a == bitOf cfg 4 && b == bitOf cfg 5 then s.index n else s

/-- A quarantined edge is accepted after all (R250). -/
def State.acceptQuar (s : State) (n : Nat) (q : QEdge) (z : Bool) : State :=
  let s := s.setFb n { s.fb n with quar := none }
  let s := ((s.acceptEdge n q.up q.a q.b z q.at_).bump FB_EDGE_FAULT n).fbSticky n 3
  s.post 0x0401 .warn (s.ctxOfNear n)

/-- MIN_EDGE in nanoseconds. -/
def State.minEdge (s : State) (n : Nat) : Nat := 10 * s.rf FB_EDGE n 9 0

/-- Whether a change of one line counts up: A leading B is one direction, and CNT_REV inverts
the sign (R248). -/
def State.edgeUp (s : State) (n : Nat) (lineB a b : Bool) : Bool :=
  let lead := if lineB then a == b else a != b
  (lead == Config.quadForward) != bitOf (s.rg FB_CFG n) 12

/-- A change of one line is tested (R248): quarantined or accepted at once. -/
def State.testEdge (s : State) (n : Nat) (lineB a b z : Bool) : State :=
  let x := s.fb n
  let up := s.edgeUp n lineB a b
  let close := match x.lastEdge with
    | some t => decide ((s.bt - t).toNat < s.minEdge n)
    | none => false
  let s := s.setFb n { x with a := a, b := b, lastEdge := some s.bt }
  if close then s.setFb n { s.fb n with quar := some ⟨lineB, s.bt, up, a, b⟩ }
  else s.acceptEdge n up a b z s.bt

/-- A glitch pair is discarded (R249). -/
def State.glitch (s : State) (n : Nat) (a b : Bool) : State :=
  let x := s.fb n
  (s.setFb n { x with a := a, b := b, quar := none, lastEdge := some s.bt, obs := x.obs + 2,
                      disc := x.disc + 2 }).bump FB_GLITCH n 2

/-- A double change (R251): an edge in quarantine is accepted as the next edge has arrived. -/
def State.quadErr (s : State) (n : Nat) (a b z : Bool) : State :=
  let s := match (s.fb n).quar with
    | some q => s.acceptQuar n q z
    | none => s
  let x := s.fb n
  let s := s.setFb n { x with a := a, b := b, lastEdge := some s.bt, obs := x.obs + 2,
                              disc := x.disc + 2 }
  ((s.bump FB_QUAD_ERR n).fbSticky n 3).fbFault 0x0402 n (s.posSrc n == 1) 0

/-- The new levels of A and B (R248 to R251). -/
def State.quadEdge (s : State) (n : Nat) (a b z : Bool) : State :=
  let x := s.fb n
  let da := a != x.a
  let db := b != x.b
  if !da && !db then s
  else if da && db then s.quadErr n a b z
  else
    match x.quar with
    | some q =>
      if q.lineB == db && decide ((s.bt - q.at_).toNat < s.minEdge n) then s.glitch n a b
      else (s.acceptQuar n q z).testEdge n db a b z
    | none => s.testEdge n db a b z

/-- QUAD_EDGE (R248): A and B of a near axis read `a` and `b`; `z` is the filtered Z line. -/
def execQuadEdge (n : Fin 8) (a b z : Bool) (s : State) : Host.Outcome State Fault Refusal :=
  if s.nearOn then .next (s.quadEdge n a b z) else .next s

/-- EDGE_QUARANTINE_EXPIRE (R250): MIN_EDGE has passed since the quarantined edge. -/
def execEdgeQuarantineExpire (n : Fin 8) (z : Bool) (s : State) : Host.Outcome State Fault Refusal :=
  match (s.fb n).quar with
  | some q => .next ((s.upTo (q.at_ + BitVec.ofNat 64 (s.minEdge n))).acceptQuar n q z)
  | none => .next s

/-! ## Writes to feedback registers -/

/-- The near axis that FB_AXIS_SEL selects. -/
def State.fbSel (s : State) : Nat := s.rf FB_AXIS_SEL 0 2 0

/-- FB_IDX_ARM (R260). -/
def State.idxArm (s : State) (v : W32) : State :=
  if !s.isOn 1 then s
  else
    let n := s.fbSel
    if bitOf v 0 then (s.setFb n { s.fb n with armed := true }) else s

/-- The command (the write of its register). -/
def execFbIdxArm (v : W32) (s : State) : Host.Outcome State Fault Refusal :=
  .next (s.idxArm v)

/-- FB_CNT_SET (R257, R396). -/
def State.cntSet (s : State) (v : W32) : State :=
  if !s.isOn 1 then s
  else
    let n := s.fbSel
    let c := s.ctxOfNear n
    if s.ctxEn c then (s.fbSticky n 14)
    else
      let s := s.setFb n { s.fb n with cntSet := some v }
      (if c = 0 then s else s.setHomed c false)

/-- The command (the write of its register). -/
def execFbCntSet (v : W32) (s : State) : Host.Outcome State Fault Refusal :=
  .next (s.cntSet v)

/-- FB_LATCH (R256): the ledger and the counter are copied in one step. -/
def State.fbLatch (s : State) (v : W32) : State :=
  if !s.isOn 1 then s
  else
    let n := s.fbSel
    let x := s.fb n
    if bitOf v 0 then
      let s := ((s.setRg FB_CNT_L n x.cnt).setRg FB_UP_ACC n x.up).setRg FB_DN_ACC n x.dn
      ((((s.setRg FB_CNT_ADJ n x.adj).setRg FB_OBS n x.obs).setRg FB_ACC n x.acc).setRg
        FB_DISC n x.disc)
    else s

/-- The command (the write of its register). -/
def execFbLatch (v : W32) (s : State) : Host.Outcome State Fault Refusal :=
  .next (s.fbLatch v)

/-- FB_STATUS_CLEAR (R6, R263): each 1 clears its sticky bit. -/
def State.fbStatusClear (s : State) (v : W32) : State :=
  if !s.isOn 1 then s
  else
    let n := s.fbSel
    (s.setRg FB_STATUS n (s.rg FB_STATUS n &&& ~~~ v))

/-- The command (the write of its register). -/
def execFbStatusClear (v : W32) (s : State) : Host.Outcome State Fault Refusal :=
  .next (s.fbStatusClear v)

/-! ## Hall (R265 to R267) -/

/-- The sector of a Hall code (R266). -/
def hallSector (c : BitVec 3) : Nat :=
  match c.toNat with
  | 1 => 1
  | 3 => 2
  | 2 => 3
  | 6 => 4
  | 4 => 5
  | 5 => 6
  | _ => 0

/-- Two valid sectors that are neither equal nor neighbours (R267). -/
def hallSkips (a b : Nat) : Bool :=
  a != 0 && b != 0 && a != b && (a % 6 + 1 != b) && (b % 6 + 1 != a)

/-- The instant of a Hall change that has been stable for HALL_FLT (R242, R265). -/
def State.hallFrom (s : State) (n : Nat) : W64 :=
  BitVec.ofNat 64 (s.bt.toNat - 10 * s.rf FB_HALL n 9 0)

/-- HALL_ACCEPT (R265, R267): a code has been stable for HALL_FLT; its age counts from the change. -/
def execHallAccept (n : Fin 8) (code : BitVec 3) (s : State) : Host.Outcome State Fault Refusal :=
  let x := s.fb n
  if !s.nearOn || !bitOf (s.rg FB_CFG n) 6 || code == x.hall then .next s
  else
    let old := hallSector x.hall
    let new := hallSector code
    let s := s.setFb n { x with hall := code, hallAt := some (s.hallFrom n), hallBad := new == 0 }
    if new = 0 then
      .next (((s.bump FB_HALL_INV n).fbSticky n 5).fbFault 0x0405 n true 0)
    else if hallSkips old new then
      .next (((s.setFb n { s.fb n with hallSkip := true }).fbSticky n 6).post 0x0406 .warn
        (s.ctxOfNear n))
    else .next s

/-! ## SSI (R268 to R271) -/

/-- Binary from Gray: each bit is the sum of the Gray bits from it up. -/
def grayToBin : Nat → BitVec 40 → BitVec 40
  | 0, w => w
  | k + 1, w => let r := grayToBin k w; r ^^^ (r >>> (2 ^ k))

/-- The first falling edge of SCK of the cycle that begins at `t0` (R268). -/
def State.ssiStart (s : State) (n : Nat) (t0 : W64) : W64 :=
  BitVec.ofNat 64 (t0.toNat + s.rf DISP_CYC_SAMPLE 0 19 0 - s.rf FB_SSI_LEAD n 19 0)

/-- SSI_FRAME_START (R268): the first falling edge of SCK of the cycle; `ssdLow` is SSD there. -/
def execSsiFrameStart (n : Fin 8) (ssdLow : Bool) (s : State) : Host.Outcome State Fault Refusal :=
  if s.nearOn && s.posSrc n == 2 && s.cyc.running then
    let t0 := s.ssiStart n s.cyc.t0
    let s := s.upTo (if s.cyc.phase != .idle && decide (s.bt ≤ t0) then t0 else s.ssiStart n s.cyc.nextT0)
    .next ((s.setFb n { s.fb n with ssiRun := some (s.bt, ssdLow) }).out (.ball (.ssiClk n) .low))
  else .next s

/-- One clock period of SCK after a falling edge at `t`: high half a period later, low a period later. -/
def State.ssiPulse (s : State) (n : Fin 8) (tclk : Nat) (t : W64) : State :=
  let s := (s.upTo (t + BitVec.ofNat 64 (tclk / 2))).out (.ball (.ssiClk n) .high)
  (s.upTo (t + BitVec.ofNat 64 tclk)).out (.ball (.ssiClk n) .low)

/-- SCK after the first falling edge at `t` (R269): falling edges 2 to `nb` + 1, then high again. -/
def State.ssiClock (s : State) (n : Fin 8) (nb tclk : Nat) (t : W64) : State :=
  let s := (List.range nb).foldl (fun s k => s.ssiPulse n tclk (t + BitVec.ofNat 64 (k * tclk))) s
  (s.upTo (t + BitVec.ofNat 64 (nb * tclk + tclk / 2))).out (.ball (.ssiClk n) .high)

/-- SSI_FRAME_END (R269, R270): `bits` are the data bits read, the first one highest; `stopHigh`
is SSD one clock period after the last of them. -/
def execSsiFrameEnd (n : Fin 8) (bits : BitVec 40) (stopHigh : Bool) (s : State) :
    Host.Outcome State Fault Refusal :=
  let x := s.fb n
  match x.ssiRun with
  | none => .next s
  | some (t, low) =>
    let cfg := s.rg FB_CFG n
    let tclk := s.rf FB_SSI_CFG n 21 8
    let nb := s.rf FB_SSI_CFG n 5 0
    let tail := if bitOf cfg 14 then tclk else 0
    let s := (s.ssiClock n nb tclk t).upTo
      (t + BitVec.ofNat 64 (nb * tclk + 10 * s.rf FB_SSI_CFG n 31 24 + tail))
    let x := { x with ssiRun := none }
    if low || (bitOf cfg 14 && stopHigh) then
      let s := s.setFb n { x with ssiBad := true }
      .next (((s.bump FB_SSI_ERR n).fbSticky n 7).fbFault 0x0407 n (s.posSrc n == 2) 0)
    else
      let w := bits &&& BitVec.ofNat 40 (2 ^ nb - 1)
      let w := if bitOf cfg 15 then grayToBin 6 w else w
      .next (s.setFb n { x with ssi := w, ssiBad := false })

/-! ## Sigma-delta (R272 to R280) -/

/-- A value in Q1.23, rounded half up and saturated (R273). -/
def q23HalfUp (r : Rat) : W24 :=
  BitVec.ofInt 24 (max (-(2 ^ 23)) (min (2 ^ 23 - 1) (r * 2 ^ 23 + 1 / 2).floor))

/-- SD_EN of a channel. -/
def State.sdEn (s : State) (n k : Nat) : Bool := bitOf (s.rg FB_CFG n) (7 + k)

/-- Some sigma-delta channel of the near axis is enabled. -/
def State.sdAny (s : State) (n : Nat) : Bool := s.sdEn n 0 || s.sdEn n 1 || s.sdEn n 2

/-- The result of a channel from its raw sinc3 sum (R273, R280). -/
def State.sdResult (s : State) (n k : Nat) (raw : Int) : W24 :=
  if !s.sdEn n k || (s.fb n).stuck.getLsbD k then 0
  else
    let osr : Rat := (s.rf FB_SD_CFG n 8 0 : Nat)
    let ofs : Rat := ((s.rg (FB_SD_OFS k) n).setWidth 24).toInt / (2 : Rat) ^ 23
    let gain : Rat := (s.rf (FB_SD_GAIN k) n 23 0 : Nat) / (2 : Rat) ^ 22
    q23HalfUp (((raw : Rat) / (osr * osr * osr) - ofs) * gain)

/-- The negative of the sum of two results, saturated (R274). -/
def sdDerive (a b : W24) : W24 :=
  BitVec.ofInt 24 (max (-(2 ^ 23)) (min (2 ^ 23 - 1) (-(a.toInt + b.toInt))))

/-- CNT_HI's flags of the sigma-delta inputs: SD_BAD, SD_CMP and SD_SETTLE (R242). -/
def State.sdFlags (s : State) (n : Nat) (settle : Bool) : Nat :=
  let x := s.fb n
  b2n (decide (x.stuck ≠ 0)) * 2 ^ 19 + b2n (decide (s.bt < x.sdcUntil)) * 2 ^ 20 +
    b2n settle * 2 ^ 21

/-- The modulator clock period of a near axis, ns. -/
def State.sdPeriod (s : State) (n : Nat) : Nat :=
  if bitOf (s.rg FB_CFG n) 11 then s.rf FB_SD_CLK 0 15 8 else s.rf FB_SD_CLK 0 7 0

/-- SAMPLE_OFS after T0. -/
def State.sampleInstant (s : State) : W64 := s.cyc.t0 + BitVec.ofNat 64 (s.rf DISP_CYC_SAMPLE 0 19 0)

/-- The nearest whole number, halves up. -/
def nearest (r : Rat) : Int := (r + 1 / 2).floor

/-- The PWM centre of module 0 that lies nearest to the sample instant (R32), ns. The running period
and the one before it are known exactly; those further off are counted in periods of TPER. -/
def State.sdCentre (s : State) : Rat :=
  let x := s.pwm 0
  let y := 1 + s.rateY
  let per : Rat := (max 1 (8 * s.rf PWM_PER 0 19 0) : Nat) / 8 * y
  let now := x.zero + (x.len / 2 : Nat) / 8 * y
  let last := x.prevZero + (x.prevLen / 2 : Nat) / 8 * y
  let k := nearest (((s.sampleInstant.toNat : Rat) - now) / per)
  if 0 ≤ k then now + k * per
  else
    let l := nearest (((s.sampleInstant.toNat : Rat) - last) / per)
    let b := last + min 0 l * per
    if ((s.sampleInstant.toNat : Rat) - now).abs < ((s.sampleInstant.toNat : Rat) - b).abs then now else b

/-- The window of a frame (R272): its start, the clock edge nearest to the centre less half the
window, and its length, in ns. A rising edge of the modulator clock lies at `edge`. -/
def State.sdWindow (s : State) (n : Nat) (edge : Int) : Rat × Rat :=
  let tsd : Rat := (max 1 (s.sdPeriod n) : Nat) * (1 + s.rateY)
  let span : Rat := (3 * s.rf FB_SD_CFG n 8 0 : Nat) * tsd
  (edge + nearest ((s.sdCentre - span / 2 - edge) / tsd) * tsd, span)

/-- The results of a frame are written to the inbox (R272 to R275); of the flags only SD_SETTLE
changes (R243, R277). -/
def State.sdWrite (s : State) (n c : Nat) (r0 r1 r2 ctr : Int) (settle : Bool) : State :=
  let ia := s.sdResult n 0 r0
  let ib := s.sdResult n 1 r1
  let ic := if bitOf (s.rg FB_CFG n) 10 && !s.sdEn n 2 then sdDerive ia ib else s.sdResult n 2 r2
  let hi := s.drawer c 0x3E1 &&& ~~~ (0x200000 : W24)
  let s := ((s.setDrawer c 0x3EA ia).setDrawer c 0x3EB ib).setDrawer c 0x3EC ic
  (s.setDrawer c 0x3EE (BitVec.ofInt 24 ctr)).setDrawer c 0x3E1
    (hi ||| BitVec.ofNat 24 (b2n settle * 2 ^ 21))

/-- SD_FRAME_READY (R272 to R277): the frame of a near axis is complete. `r0` to `r2` are the raw
sinc3 sums, and a rising edge of the modulator clock lies at `edge`. -/
def State.sdFrameReady (s : State) (n : Fin 8) (r0 r1 r2 edge : Int) : State :=
  let c := s.ctxOfNear n
  if !s.nearOn || !s.sdAny n || !s.cyc.running then s
  else
    let w := s.sdWindow n edge
    let ctr := (w.1 + w.2 / 2 - (s.sampleInstant.toNat : Rat)).floor
    let settle := match (s.fb n).sdRestart with
      | some t => decide (w.1 < (t.toNat : Rat))
      | none => false
    let s := s.setFb n { s.fb n with sdRestart := none }
    let at_ := max ((w.1 + w.2).ceil + 60) ((s.sampleInstant.toNat : Int) + 40)
    let s := s.upTo (BitVec.ofInt 64 at_)
    if c = 0 then s
    else
      let s := s.sdWrite n c r0 r1 r2 ctr settle
      (if hdrRuns (s.hdr c) s.cyc.count.toNat then s.extArrive c 2 else s)

/-- SD_FRAME_READY. -/
def execSdFrameReady (n : Fin 8) (r0 r1 r2 edge : Int) (s : State) : Host.Outcome State Fault Refusal :=
  .next (s.sdFrameReady n r0 r1 r2 edge)

/-- A sinc2 sum of OSR 16 lies above CMP_H or below CMP_L of its channel (R278). -/
def State.sdOutside (s : State) (n k : Nat) (y : Int) : Bool :=
  decide (((s.rg (FB_SD_CMPH k) n).setWidth 24).toInt < y * 2 ^ 15) ||
    decide (y * 2 ^ 15 < ((s.rg (FB_SD_CMPL k) n).setWidth 24).toInt)

/-- MOD_STUCK (R280): the bitstream of channel `k` has not changed for SD_STUCK clocks, or
(`stuck` false) has changed again. -/
def execModStuck (n : Fin 8) (k : Fin 3) (stuck : Bool) (s : State) :
    Host.Outcome State Fault Refusal :=
  let x := s.fb n
  let m : BitVec 3 := BitVec.ofNat 3 (2 ^ k.val)
  if !s.nearOn || !s.sdEn n k then .next s
  else if !stuck then .next (s.setFb n { x with stuck := x.stuck &&& ~~~ m })
  else if x.stuck.getLsbD k then .next s
  else
    let s := (s.setFb n { x with stuck := x.stuck ||| m }).fbSticky n (8 + k)
    .next (s.fbFault 0x040B n true (payOf [k]))

/-! ## Lines (R281, R282) -/

/-- An enabled axis uses a line (EA, EB, EZ, SSD in that order): the quadrature lines with POS_SRC
ABZ, SSD with SSI. -/
def State.lineUsed (s : State) (n line : Nat) : Bool :=
  if line = 3 then s.posSrc n == 2 else s.posSrc n == 1

/-- LINE_FAULT (R281): a receiver is open, or shorted, for 10 µs; `present` false says that the
condition has ended. -/
def execLineFault (n : Fin 8) (line : Fin 4) (short present : Bool) (s : State) :
    Host.Outcome State Fault Refusal :=
  let x := s.fb n
  let m : BitVec 4 := BitVec.ofNat 4 (2 ^ line.val)
  let old := if short then x.lineShort else x.lineOpen
  let v := if present then old ||| m else old &&& ~~~ m
  if !s.nearOn then .next s
  else
    let s := s.setFb n (if short then { x with lineShort := v } else { x with lineOpen := v })
    if present && !old.getLsbD line then
      .next (s.fbFault (if short then 0x0409 else 0x0408) n (s.lineUsed n line) (payOf [line]))
    else .next s

/-- DIFF_POLARITY (R282): EZ, or SSD, has rested at the level opposite to its idle level for more
than 10 ms; `present` false says that it rests so no more. -/
def execDiffPolarity (n : Fin 8) (ssd present : Bool) (s : State) :
    Host.Outcome State Fault Refusal :=
  let x := s.fb n
  let line := if ssd then 3 else 2
  let m : BitVec 4 := BitVec.ofNat 4 (2 ^ line)
  if !s.nearOn || (!ssd && s.rf FB_CFG n 18 17 == 0) then .next s
  else if !present then .next (s.setFb n { x with linePol := x.linePol &&& ~~~ m })
  else if x.linePol.getLsbD line then .next s
  else .next ((s.setFb n { x with linePol := x.linePol ||| m }).post 0x040A .warn (s.ctxOfNear n))

/-! ## Step and direction (R284) -/

/-- STEP_EDGE (R284): a rising edge of STEP after a low level of STEP_FLT; `dir` is DIR then. -/
def execStepEdge (n : Fin 8) (dir : Bool) (s : State) : Host.Outcome State Fault Refusal :=
  let x := s.fb n
  let up := (dir == Config.stepUpLevel) != bitOf (s.rg FB_CFG n) 13
  if !s.nearOn then .next s
  else .next (s.setFb n { x with stepCnt := if up then x.stepCnt + 1 else x.stepCnt - 1 })

/-! ## The latch (R241 to R244) -/

/-- CNT_HI (R242). -/
def State.cntHi (s : State) (n : Nat) : W24 :=
  let x := s.fb n
  let abz := s.posSrc n == 1
  let f (b : Bool) (k : Nat) : Nat := b2n b * 2 ^ k
  BitVec.ofNat 24 ((if abz then x.cnt.toNat / 2 ^ 24 + f x.wrapUp 8 + f x.wrapDn 9 + f x.dir 10 +
      f x.dirChg 11 + f (bitOf (s.rg FB_STATUS n) 3) 12 + f x.quar.isSome 13 + f x.idx 14 +
      f x.idxMism 15 else 0) +
    f (decide (x.lineOpen ||| x.lineShort ≠ 0)) 16 +
    (if bitOf (s.rg FB_CFG n) 6 then f x.hallBad 17 else 0) +
    (if s.posSrc n == 2 then f x.ssiBad 18 else 0) +
    (if s.sdAny n then s.sdFlags n false else 0))

/-- The inbox words 0x3E0 to 0x3EF but those of the sigma-delta inputs, at the sample instant. -/
def State.inboxWords (s : State) (n : Nat) : List (Nat × W24) :=
  let x := s.fb n
  let abz := s.posSrc n == 1
  let hall := bitOf (s.rg FB_CFG n) 6
  let ssi := s.posSrc n == 2
  let on (b : Bool) (v : W24) : W24 := if b then v else 0
  [(0x3E0, on abz (x.cnt.setWidth 24)), (0x3E1, s.cntHi n),
   (0x3E2, on abz (x.idxLatch.setWidth 24)), (0x3E3, on abz ((x.idxLatch >>> 24).setWidth 24)),
   (0x3E4, on hall (BitVec.ofNat 24
      (x.hall.toNat + hallSector x.hall * 16 + b2n x.hallSkip * 256))),
   (0x3E5, on hall (ageOf s.bt x.hallAt)),
   (0x3E6, on ssi (x.ssi.setWidth 24)), (0x3E7, on ssi ((x.ssi >>> 24).setWidth 24)),
   (0x3E8, x.stepCnt.setWidth 24), (0x3E9, (x.stepCnt >>> 24).setWidth 24),
   (0x3ED, on abz (ageOf s.bt x.lastAcc)), (0x3EF, 0),
   (0x3F0, on ssi ((s.rg FB_SSI_LEAD n).setWidth 24))]

/-- The latch of one near axis into its context's inbox (R241 to R244); the flags of what happened
since the previous latch begin anew. -/
def State.latchNear (s : State) (n : Nat) : State :=
  let c := s.ctxOfNear n
  let ws := s.inboxWords n
  let s := if c = 0 then s else ws.foldl (fun s w => s.setDrawer c w.1 w.2) s
  let s := if c ≠ 0 && !s.sdAny n then
      [0x3EA, 0x3EB, 0x3EC, 0x3EE].foldl (fun s w => s.setDrawer c w 0) s
    else s
  let x := s.fb n
  s.setFb n { x with wrapUp := false, wrapDn := false, dirChg := false, idx := false,
                     idxMism := false, hallSkip := false }

end Sys2Proof.Machine
end

