-- ==== Sys2Proof/Machine/Pwm.lean ====
section
/-! DEFINITION. The near-axis PWM modules: duty sets, minimum pulses and carries, synchronization,
faults and the state machine (R289 to R322). -/

namespace Sys2Proof.Machine

/-! ## Configuration of a module, in units of 125 ps -/

def State.pwmMinp (s : State) (m : Nat) : Nat := 8 * s.rf PWM_MINP m 11 0
def State.pwmMinH (s : State) (m : Nat) : Nat := 8 * s.rf PWM_DT m 11 0 + s.pwmMinp m
def State.pwmMinL (s : State) (m : Nat) : Nat := 8 * s.rf PWM_DT m 27 16 + s.pwmMinp m

/-! ## Fault sources (R309) -/

/-- A byte of the fault matrix: the modules that a source trips. -/
def State.fltRow (s : State) (src : Nat) : Nat :=
  let r := match src / 4 with
    | 0 => PWM_FLT_MAP0
    | 1 => PWM_FLT_MAP1
    | 2 => PWM_FLT_MAP2
    | _ => PWM_FLT_MAP3
  s.rf r 0 (8 * (src % 4) + 7) (8 * (src % 4))

/-- The comparator signal of a near axis is high (R279). -/
def State.sdcHigh (s : State) (n : Nat) : Bool := decide (s.bt < (s.fb n).sdcUntil)

/-- A source is active for a module (R309). -/
def State.srcActive (s : State) (m src : Nat) : Bool :=
  if src < 8 then s.pwmFlt.getLsbD src
  else match src with
    | 8 => s.sdcHigh m
    | 9 => (List.range 8).any s.sdcHigh
    | 10 => s.bgTo.getLsbD m
    | 11 => s.bgTo.getLsbD (8 + m)
    | 12 => s.pwr.failed
    | _ => false

/-- The active sources whose row names a module, as bits. -/
def State.mapped (s : State) (m : Nat) : Nat :=
  ((List.range 13).map (fun k =>
    b2n (s.srcActive m k && (s.fltRow k).testBit m) * 2 ^ k)).sum

/-- PWM_FLT_LATCH of a module. -/
def State.fltLatch (s : State) (m : Nat) : Nat := (s.rg PWM_FLT_LATCH m).toNat

/-- An enable is refused (R313, R803). -/
def State.enableRefused (s : State) (m : Nat) : State :=
  let a := s.mapped m
  let l := s.fltLatch m
  (s.setPwm m { s.pwm m with enable := false }).post 0x0D06 .warn (s.ctxOfNear m)
    (payOf [a % 256, a / 256, l % 256, l / 256, m])

/-- A running module enters FAULT (R311). -/
def State.pwmTrip (s : State) (m : Nat) : State :=
  if (s.pwm m).st ≠ .run || s.mapped m = 0 then s
  else
    let l := BitVec.ofNat 32 (s.fltLatch m ||| s.mapped m)
    let s := ((s.pwmLeave m .fault).setRg PWM_FLT_LATCH m l).bump PWM_FAULTS m
    s.post 0x0D01 .severe (s.ctxOfNear m) (payOf [l.toNat % 256, l.toNat / 256, m])

/-- Every running module with a mapped active source enters FAULT. -/
def State.tripAll (s : State) : State := (List.range 8).foldl State.pwmTrip s

/-- SD_COMP_TRIP (R278, R279): the sinc2 filter of a channel gives its raw sum. A trip drives SDCn, a
source of the fault matrix. -/
def execSdCompTrip (n : Fin 8) (k : CompSum) (s : State) : Host.Outcome State Fault Refusal :=
  if !s.nearOn || !s.sdEn n k.comp || !s.sdOutside n k.comp k.y then .next s
  else
    let s := s.setFb n { s.fb n with sdcUntil := s.bt + 1000 }
    .next ((s.fbSticky n (11 + k.comp)).post 0x040C .warn (s.ctxOfNear n) (payOf [k.comp])).tripAll

/-! ## Duty sets (R294 to R301) -/

/-- The requested on-time of a duty (R295). -/
def dutyReq (d : W24) (per : Nat) : Nat :=
  if d = 0x7FFFFF then per
  else if d.msb then 0
  else (d.toNat * per + 2 ^ 22) / 2 ^ 23

/-- The reload points of a module that lie ahead (R297), in ns of BT. -/
def State.pwmAhead (s : State) (m : Nat) : List Rat :=
  let x := s.pwm m
  let c := s.rg PWM_CTL m
  let z := s.pwmInstant m (s.pwmSpan m)
  if bitOf c 0 && bitOf c 1 then [s.pwmInstant m (x.len / 2), z] else [z]

/-- A reload point falls in the present CLK_CORE cycle and is still to come. -/
def State.reloadNow (s : State) (m : Nat) : Bool :=
  (s.pwmAhead m).any (fun t => decide ((s.bt.toNat : Rat) ≤ t) && decide (t < (s.bt.toNat : Rat) + 1))

/-- The shadows of the three phases set. -/
def Pwm.setShadow (x : Pwm) (u v w : Nat) : Pwm :=
  { x with u := { x.u with shadow := u }, v := { x.v with shadow := v },
           w := { x.w with shadow := w }, landed := true }

/-- A duty set lands in a module's shadow (R40, R294 to R298, R301). -/
def State.landDuty (s : State) (m : Nat) (ws : List W24) : State :=
  let x := s.pwm m
  let c := s.ctxOfNear m
  if x.st ≠ .run then s
  else match ws with
    | [u, v, w] =>
      let p := s.pwmPer m
      let q (d : W24) : Nat := dutyReq d p
      let past := x.reloadAt = some s.bt
      let soon := !past && s.reloadNow m
      let s := if past || soon then (s.bump PWM_LATE_WRITE m).post 0x0D02 .info c else s
      let s := if x.landed && !soon then s.bump PWM_REPLACED m else s
      let x := { s.pwm m with sample := s.cyc.t0 + BitVec.ofNat 64 (s.rf DISP_CYC_SAMPLE 0 19 0) }
      s.setPwm m (if soon then { x with defer := some (q u, q v, q w) }
        else x.setShadow (q u) (q v) (q w))
    | _ => (s.bump PWM_BAD_SET m).post 0x0D05 .warn c (payOf [ws.length, m])

/-- The copy of a reload point of the instant `t` (R296, R297); `true` when a set was loaded. -/
def State.reload (s : State) (m : Nat) (t : Rat) : State × Bool :=
  let x := s.pwm m
  let got := x.landed
  let x := if got then x.mapPh (fun p => { p with req := p.shadow }) else x
  let x := { x with landed := false, reloadAt := some (BitVec.ofInt 64 t.floor) }
  let x := match x.defer with
    | some (u, v, w) => { x.setShadow u v w with defer := none }
    | none => x
  let s := s.setPwm m x
  let c := s.ctxOfNear m
  let s := if got && c ≠ 0 then
      s.setDrawer c 0x3F1 (BitVec.ofNat 24 (min (s.bt - x.sample).toNat 0xFFFFFF))
    else s
  (s, got)

/-! ## Decisions (R302 to R304) -/

/-- A phase of a module replaced. -/
def Pwm.setPhase (x : Pwm) (k : Nat) (p : PwmPhase) : Pwm :=
  if k = 0 then { x with u := p } else if k = 1 then { x with v := p } else { x with w := p }

/-- A phase takes a new carry from an argument of sat() (R303). -/
def State.satCarry (s : State) (m k : Nat) (p : PwmPhase) (arg : Int) : State :=
  let c := satTo (2 * s.pwmMinp m) arg
  let cut := arg - c
  let s := s.setPwm m ((s.pwm m).setPhase k
    { p with carry := c, sat := p.sat + BitVec.ofInt 32 cut })
  if cut = 0 then s
  else (s.bump PWM_CARRY_SAT m).post 0x0D03 .warn (s.ctxOfNear m)
    (((BitVec.ofInt 32 cut).setWidth 128 <<< 32) ||| payOf [k, m])

/-- The on-time that a request delivers in a period (R302): dropped, made full, or as asked. -/
def pwmOn (r : Int) (per minH minL : Nat) : Nat :=
  if r < minH then 0 else if (per : Int) - r < minL then per else r.toNat

/-- The decision of a phase at a zero (R302, R304). -/
def State.decideZero (s : State) (m k : Nat) : State :=
  let x := s.pwm m
  let p := x.phase k
  let per := s.pwmPer m
  let r : Int := p.req + p.carry
  let on := pwmOn r per (s.pwmMinH m) (s.pwmMinL m)
  let s := if r < s.pwmMinH m then s.bump PWM_DROP m
    else if (per : Int) - r < s.pwmMinL m then s.bump PWM_FULL m else s
  let w := s.pwmWindow m p
  let start := if bitOf (s.rg PWM_CTL m) 0 then (per - on) / 2 else 0
  let p := { p with on := on, start := start, lead := on / 2, rlead := (r / 2).toNat,
                    prevEnd := ((w.1 + w.2 : Nat) : Int) - (x.len : Int),
                    diff := p.diff + BitVec.ofInt 32 (p.req - on) }
  s.satCarry m k p (r - on)

/-- The decision of a phase at a centre at which a set was loaded (R300, R302): only the trailing
half moves, and the ledger with the carry. -/
def State.decideCentre (s : State) (m k : Nat) : State :=
  let p := (s.pwm m).phase k
  let per := s.pwmPer m
  if p.on = 0 || p.on = per then s
  else
    let h : Int := p.req - p.req / 2
    let trail := max ((s.pwmMinH m : Int) - p.lead) (min ((per : Int) - s.pwmMinL m - p.lead) h)
    let arg := ((p.rlead : Int) - p.lead) + (h - trail)
    s.satCarry m k { p with on := (p.lead + trail).toNat,
                            diff := p.diff + BitVec.ofInt 32 (arg - p.carry) } arg

/-- A period of a running module begins at the instant `t`: reload and decisions. -/
def State.beginPeriod (s : State) (m : Nat) (t : Rat) : State :=
  let s := (s.reload m t).1
  let s := ((s.decideZero m 0).decideZero m 1).decideZero m 2
  s.setPwm m { s.pwm m with len := s.pwmPer m }

/-- PWM_ZERO (R296, R302, R308, R317): a module's zero. The period that ends is lengthened by the
open remainder, within ±LIM; a new tap table loads. -/
def execPwmZero (m : Fin 8) (s : State) : Host.Outcome State Fault Refusal :=
  if !s.isOn 21 then .next s
  else
    let x := s.pwm m
    let lim := s.pwmLim m
    let d := satTo lim x.rem
    let len := s.pwmSpan m
    let z := s.pwmInstant m len
    let s := s.upTo (BitVec.ofInt 64 z.ceil)
    let s := if x.rem.natAbs > lim then s.bump PWM_SYNC_SLEW m else s
    let cal := x.calNew.getD x.calOk
    let s := s.setPwm m { x with prevZero := x.zero, prevLen := x.len, zero := z, len := len, rem := x.rem - d, calNew := none, calOk := cal,
                                 calFail := x.calFail && !cal }
    .next (if x.st = .run then s.beginPeriod m z
      else s.setPwm m { s.pwm m with len := s.pwmPer m })

/-- PWM_CENTRE (R296, R300, R302): a module's centre. -/
def State.pwmCentre (s : State) (m : Fin 8) : State :=
  if !s.isOn 21 then s
  else
    let t := s.pwmInstant m ((s.pwm m).len / 2)
    let s := s.upTo (BitVec.ofInt 64 t.ceil)
    let c := s.rg PWM_CTL m
    if (s.pwm m).st = .run && bitOf c 0 && bitOf c 1 then
      let (s, got) := s.reload m t
      (if got then ((s.decideCentre m 0).decideCentre m 1).decideCentre m 2 else s)
    else s

/-- PWM_CENTRE. -/
def execPwmCentre (m : Fin 8) (s : State) : Host.Outcome State Fault Refusal :=
  .next (s.pwmCentre m)

/-! ## Synchronization (R306 to R308) -/

/-- A module stands at an expected position: outside RUN its counter is set, in RUN the error
becomes its open remainder (R308). -/
def State.pwmSync (s : State) (m : Nat) (now : Rat) : State :=
  let x := s.pwm m
  let ph := 8 * s.rf PWM_SYNC m 19 0
  let per := s.pwmPer m
  if x.st = .run then
    let act := ((now - x.zero) * 8 / (1 + s.rateY)).floor
    let e := (act - ph) % (per : Int)
    let e := if 2 * e ≤ per then e else e - per
    s.setPwm m { x with rem := e }
  else
    let z := now - (ph : Rat) / 8 * (1 + s.rateY)
    s.setPwm m { x with zero := z, rem := 0, len := per, prevLen := per,
                        prevZero := z - (per : Rat) / 8 * (1 + s.rateY) }

/-- The SYNC_OUT pulses of a module in the period before, the running one and the next: SYNC_DLY
after each zero, or each centre (R307). -/
def State.syncPulses (s : State) (k : Nat) : List Rat :=
  let x := s.pwm k
  let y := 1 + s.rateY
  let mid := bitOf (s.rg PWM_CTL k) 6
  let out (zero : Rat) (len : Nat) : Rat :=
    zero + ((if mid then len / 2 else 0) + 8 * s.rf PWM_SYNC_DLY k 19 0 : Nat) / 8 * y
  [out x.prevZero x.prevLen, out x.zero x.len, out (s.pwmInstant k (s.pwmSpan k)) (s.pwmPer k)]

/-- The pulse that arrives: the first that lies ahead and was not taken, else the latest. -/
def State.syncPulse (s : State) (k : Nat) : Rat :=
  let l := (s.syncPulses k).filter (fun t => decide ((s.pwm (k + 1)).lastSync < t))
  ((l.find? (fun t => decide ((s.bt.toNat : Rat) ≤ t))).or l.getLast?).getD (s.pwmInstant k 0)

/-- PWM_SYNC_IN (R306, R307): the SYNC_OUT pulse of module `k` reaches module `k + 1`. -/
def execPwmSyncIn (k : Fin 7) (s : State) : Host.Outcome State Fault Refusal :=
  let m := k.val + 1
  if !s.isOn 21 || !bitOf (s.rg PWM_CTL m) 5 then .next s
  else
    let t := s.syncPulse k
    let s := s.upTo (BitVec.ofInt 64 t.ceil)
    let s := s.setPwm m { s.pwm m with lastSync := t }
    .next (s.pwmSync m t)

/-- A module enters RUN (R299, R305, R313): half duties, carries 0, and the period in progress is
decided at once. -/
def State.pwmEnter (s : State) (m : Nat) : State :=
  let x := s.pwm m
  let h := s.pwmPer m / 2
  let start := if bitOf (s.rg PWM_CTL m) 0 then (s.pwmPer m - h) / 2 else 0
  let x := x.mapPh (fun p => { p with shadow := h, req := h, on := h, start := start, carry := 0 })
  let s := s.setPwm m { x with st := .run, landed := false, defer := none, rem := 0,
                               len := s.pwmPer m }
  ((s.decideZero m 0).decideZero m 1).decideZero m 2

/-- The modules that ENABLE names enter RUN at a hinge point, or are refused there (R313). -/
def State.pwmEnters (s : State) : State :=
  (List.range 8).foldl (fun s m =>
    let x := s.pwm m
    if x.enable && x.st ≠ .run then
      if s.mapped m ≠ 0 || s.fltLatch m ≠ 0 then s.enableRefused m else s.pwmEnter m
    else s) s

/-- What a hinge point does to the modules (R27 step 4, R306, R313). -/
def State.pwmHinge (s : State) : State :=
  if s.isOn 21 then (s.pwmSync 0 (s.cyc.t0.toNat : Rat)).pwmEnters else s

/-! ## Register writes -/

/-- The module that PWM_MOD_SEL selects. -/
def State.pwmSel (s : State) : Nat := s.rf PWM_MOD_SEL 0 2 0

/-- PWM_FAULT_TRIP (R309, R311): the fault balls found active by their filter are `flt`; every
running module with a mapped active source enters FAULT. -/
def State.pwmFaultTrip (s : State) (flt : BitVec 8) : State :=
  if !s.isOn 21 then s
  else
    ({ s with pwmFlt := flt } : State).tripAll

/-- PWM_FAULT_TRIP. -/
def execPwmFaultTrip (flt : BitVec 8) (s : State) : Host.Outcome State Fault Refusal :=
  .next (s.pwmFaultTrip flt)

/-- PWM_ENABLE (R313): ENABLE of the selected module is written 1. -/
def State.pwmEnable (s : State) : State :=
  if !s.isOn 1 then s
  else
    let m := s.pwmSel
    let x := s.pwm m
    if x.st = .run || x.enable then s
    else if x.st = .disabled && s.mapped m = 0 && s.fltLatch m = 0 then
      (s.setPwm m { x with enable := true })
    else (s.enableRefused m)

/-- The command (the write of its register). -/
def execPwmEnable (s : State) : Host.Outcome State Fault Refusal :=
  .next (s.pwmEnable)

/-- PWM_DISABLE (R313): ENABLE of the selected module is written 0. -/
def State.pwmDisable (s : State) : State :=
  if !s.isOn 1 then s else (s.pwmOff s.pwmSel)

/-- The command (the write of its register). -/
def execPwmDisable (s : State) : Host.Outcome State Fault Refusal :=
  .next (s.pwmDisable)

/-- PWM_FLT_LATCH_CLEAR (R313): each 1 clears its latch bit, which latches again while its source is
still active; with no bit and no mapped source left the module leaves FAULT. -/
def State.fltLatchClear (s : State) (v : W32) : State :=
  if !s.isOn 1 then s
  else
    let m := s.pwmSel
    let x := s.pwm m
    let old := s.rg PWM_FLT_LATCH m
    let again := if x.st = .fault then old &&& v &&& BitVec.ofNat 32 (s.mapped m) else 0
    let l := (old &&& ~~~ v) ||| again
    let s := s.setRg PWM_FLT_LATCH m l
    (if x.st = .fault && l = 0 && s.mapped m = 0 then s.setPwm m { x with st := .disabled } else s)

/-- The command (the write of its register). -/
def execPwmFltLatchClear (v : W32) (s : State) : Host.Outcome State Fault Refusal :=
  .next (s.fltLatchClear v)

/-- A signed quantity in the low 18 bits. -/
def carryBits (c : Int) : W32 := (BitVec.ofInt 18 c).setWidth 32

/-- PWM_LATCH (R319): the live ledger and carries of all three phases are copied in one step. -/
def State.pwmLatch (s : State) (v : W32) : State :=
  if !s.isOn 1 then s
  else
    let m := s.pwmSel
    if bitOf v 0 then
      ((List.range 3).foldl (fun s k =>
        let p := (s.pwm m).phase k
        ((s.setRg (PWM_DIFF k) m p.diff).setRg (PWM_SATSUM k) m p.sat).setRg (PWM_CARRY_L k) m
          (carryBits p.carry)) s)
    else s

/-- The command (the write of its register). -/
def execPwmLatch (v : W32) (s : State) : Host.Outcome State Fault Refusal :=
  .next (s.pwmLatch v)

/-- DL_CALIBRATION (R317, R318): a replica line is measured in the sill; `ok` says that it spans
1 ns. -/
def execDlCalibration (m : Fin 8) (ok : Bool) (s : State) : Host.Outcome State Fault Refusal :=
  let x := s.pwm m
  if !s.isOn 21 || (s.cyc.running && s.cyc.phase ≠ .sill) then .next s
  else if ok then .next (s.setPwm m { x with calNew := some true })
  else
    let s := s.setPwm m { x with calOk := false, calNew := none, calFail := true }
    .next (if x.calFail then s else s.post 0x0D04 .warn (s.ctxOfNear m))

/-! ## Output states (R312, R315) -/

/-- A side that is active, as a level of its ball. -/
def sideLevel (active pol : Bool) : Level := if active != pol then .high else .low

/-- The level of an output of a module (R315). -/
def State.pwmLevel (s : State) (m k : Nat) (high : Bool) : Level :=
  let x := s.pwm m
  let c := s.rg PWM_CTL m
  let pol := bitOf c (if high then 3 else 4)
  let asc := bitOf c 2 && (x.st == .fault || (s.fltRow 13).testBit m)
  if s.pwr.vioFail.getLsbD (m / 4) || s.boot.resetN || s.boot.st == .held ||
      s.boot.st == .aon then .hiz
  else if !s.isOn 21 then sideLevel false pol
  else if x.st = .run then
    sideLevel (if high then s.pwmHighOn m k (s.pwmPos m) else s.pwmLowOn m k (s.pwmPos m)) pol
  else if high || !asc then sideLevel false pol
  else
    let due := decide ((s.bt - x.actAt).toNat ≥ s.rf PWM_DT m 27 16)
    sideLevel (x.lowWas.getLsbD k || due) pol

end Sys2Proof.Machine
end

