-- ==== Sys2Proof/Machine/AxInputs.lean ====
section
/-! DEFINITION. The axis inputs: limits and home, their filters, chatter latches and wire breaks
(R378 to R384). -/

namespace Sys2Proof.Machine

/-- An input of an axis: 0 LIMP, 1 LIMN, 2 HOME. -/
def Axis.inp (x : Axis) (k : Nat) : AxIn := if k = 0 then x.inP else if k = 1 then x.inN else x.inH

/-- The axis with an input replaced. -/
def Axis.setInp (x : Axis) (k : Nat) (i : AxIn) : Axis :=
  if k = 0 then { x with inP := i } else if k = 1 then { x with inN := i } else { x with inH := i }

/-- The active level of an input by POL (R382): 0 active at 24 V. -/
def State.inPol (s : State) (c k : Nat) : Bool := bitOf (s.rg PRF_LIM_CFG c) (16 + k)

/-- An input's filtered level by its filter alone, 1 = active. -/
def State.inFilt (s : State) (c k : Nat) : Bool := ((s.ax c).inp k).filt != s.inPol c k

/-- The level that an input reads (R380, R383): a wire break reads a limit active and home
inactive; a chatter latch holds a limit active and home at the level it had. -/
def State.inLevel (s : State) (c k : Nat) : Bool :=
  let i := (s.ax c).inp k
  if i.wb then k != 2
  else if i.chat then (if k = 2 then i.hold else true)
  else s.inFilt c k

/-- The transitions of the last 100 ms. -/
def recentTrans (now : W64) (l : List W64) : List W64 :=
  l.filter (fun t => decide ((now - t).toNat < 100000000))

/-- An input after one more raw sample, of which `need` equal ones change its filter (R379). -/
def AxIn.sample (i : AxIn) (raw : Bool) (need : Nat) (now : W64) : AxIn :=
  let n := if raw == i.raw then i.stable + 1 else 1
  { i with raw := raw, stable := min n 1000000,
           filt := if decide (need ≤ n) then raw else i.filt,
           trans := recentTrans now (if raw == i.raw then i.trans else i.trans ++ [now]) }

/-- CHATTER_MAX of an axis. -/
def State.chatMax (s : State) (c : Nat) : Nat := s.rf PRF_LIM_CFG c 15 8

/-- A chatter latch is set when the window holds too many transitions (R380). -/
def State.chatter (s : State) (c k : Nat) : State :=
  let i := (s.ax c).inp k
  if i.chat || i.trans.length ≤ s.chatMax c then s
  else
    let s := (s.setAx c ((s.ax c).setInp k { i with chat := true, hold := s.inFilt c k })).bump
      PRF_LIM_CHAT c
    if k = 2 then s.post 0x0345 .warn c else s.post 0x0344 .warn c (payOf [k])

/-- The input that serves as home (R387): the limit in DIR under METHOD LIMIT. -/
def Axis.homeIn (x : Axis) : Nat :=
  if x.mode == .homing && x.hm.method == 3 then (if x.hm.neg then 1 else 0) else 2

/-- One raw sample of one input; `cnt` is the position counter that a home transition notes
(R384). -/
def State.sampleInput (s : State) (c k : Nat) (raw : Bool) (need : Nat) (cnt : W32) : State :=
  let x := s.ax c
  let i := x.inp k
  let j := i.sample raw need s.bt
  let s := if raw != i.raw then s.bump PRF_LIM_TRANS c else s
  let x := x.setInp k j
  let x := if k = x.homeIn && raw != i.raw then { x with homePend := cnt } else x
  let x := if k = x.homeIn && j.filt != i.filt then { x with homeLatch := x.homePend } else x
  (s.setAx c x).chatter c k

/-- AXIS_INPUT_SAMPLE (R378 to R380): the inputs of near axis `n`, 1 = at 24 V. -/
def State.axisInputSample (s : State) (n : Fin 8) (limp limn home : Bool) : State :=
  let c := s.ctxOfNear n
  if !s.isOn 22 || c = 0 then s
  else
    let need := 10 * s.rf PRF_LIM_CFG c 7 0 + 1
    let cnt := (s.fb n).cnt
    (((s.sampleInput c 0 limp need cnt).sampleInput c 1 limn need cnt).sampleInput c 2 home
      need cnt)

/-- AXIS_INPUT_SAMPLE. -/
def execAxisInputSample (n : Fin 8) (limp limn home : Bool) (s : State) : Host.Outcome State Fault Refusal :=
  .next (s.axisInputSample n limp limn home)

/-- Ts of a context in ns (R201). -/
def State.tsNs (s : State) (c : Nat) : Nat := hdrDiv (s.hdr c) * s.rf DISP_CYC_PERIOD 0 19 0

/-- The three raw inputs of a far axis, once per run (R378, R379). -/
def State.farInputs (s : State) (c : Nat) (nst : BitVec 16) (pos : W32) : State :=
  let need := max 1 ((s.rf PRF_LIM_CFG c 7 0 * 100000 + s.tsNs c - 1) / max 1 (s.tsNs c))
  (List.range 3).foldl (fun s k => s.sampleInput c k (bitOf nst k) need pos) s

/-- A homing run in progress uses an input (R383, R392). The spec does not list the inputs of each
method; the model takes those that its states watch: both limits, and HOME under SWITCH and SWITCH_INDEX
(DESIGN CHOICE, log 164). -/
def State.homingUses (s : State) (c k : Nat) : Bool :=
  let x := s.ax c
  x.mode == .homing && (match x.hm.method with
    | 1 => true
    | 2 => true
    | 3 => k != 2
    | 4 => k != 2
    | 5 => k != 2
    | _ => false)

/-- WB of an input is set or cleared (R383). -/
def State.setWb (s : State) (c k : Nat) (wb : Bool) : State :=
  let i := (s.ax c).inp k
  let s := s.setAx c ((s.ax c).setInp k { i with wb := wb })
  if wb && !i.wb then
    s.post 0x034A (if s.homingUses c k then .severe else .warn) c (payOf [k])
  else s

/-- WIRE_BREAK (R383): the current of input `k` has been below the threshold for 10 ms; `present`
false says that it is so no more. -/
def execWireBreak (n : Fin 8) (k : Fin 3) (present : Bool) (s : State) :
    Host.Outcome State Fault Refusal :=
  let c := s.ctxOfNear n
  if !s.isOn 22 || c = 0 || !bitOf (s.rg PRF_LIM_CFG c) (19 + k) then .next s
  else .next (s.setWb c k present)

/-- The axis-input words of the drawer (R384), written before ST0 of a run becomes ready. -/
def State.writeAxin (s : State) (c : Nat) : State :=
  let x := s.ax c
  let near := (s.nearOf c).isSome
  let l (k : Nat) : Nat := b2n (s.inLevel c k)
  let v := l 0 + l 1 * 2 + l 2 * 4 + b2n x.inP.chat * 8 + b2n x.inN.chat * 16 +
    b2n x.inH.chat * 32 + b2n x.inP.wb * 64 + b2n x.inN.wb * 128 + b2n x.inH.wb * 256 +
    b2n (s.inLevel c 2 != x.homeWas) * 512
  let h : W32 := if near then x.homeLatch else 0
  let s := ((s.setDrawer c 0x37D (h.setWidth 24)).setDrawer c 0x37E ((h >>> 24).setWidth 24)).setDrawer
    c 0x37F (BitVec.ofNat 24 v)
  s.setAx c { s.ax c with homeWas := s.inLevel c 2 }

end Sys2Proof.Machine
end

