-- ==== Sys2Proof/Machine/LinkOps.lean ====
section
/-! DEFINITION. The shared operations of the link: check sums, cells, ports, directions, receiving
and the acyclic transmitter (R407 to R450). -/

namespace Sys2Proof.Machine

/-! ## Check sums (R416, R418, R438) -/

/-- The bits of a byte, most significant first. -/
def bitsMsb (b : Nat) : List Bool := [7, 6, 5, 4, 3, 2, 1, 0].map b.testBit

/-- The bits of a byte, least significant first. -/
def bitsLsb (b : Nat) : List Bool := (List.range 8).map b.testBit

/-- One bit of a CRC sent most significant bit first. -/
def crcStep {w : Nat} (poly : BitVec w) (r : BitVec w) (b : Bool) : BitVec w :=
  if r.msb != b then (r <<< 1) ^^^ poly else r <<< 1

/-- A CRC without reflection over octets. -/
def crcMsb {w : Nat} (poly init : BitVec w) (bs : List Nat) : BitVec w :=
  (bs.flatMap bitsMsb).foldl (crcStep poly) init

/-- One bit of a reflected CRC; the polynomial is reflected. -/
def crcStepR {w : Nat} (poly : BitVec w) (r : BitVec w) (b : Bool) : BitVec w :=
  if r.getLsbD 0 != b then (r >>> 1) ^^^ poly else r >>> 1

/-- HCRC (R416). -/
def crc8 (bs : List Nat) : BitVec 8 := crcMsb 0x07 0 bs

/-- CRC-32C (R418): the reflected polynomial of 0x1EDC_6F41. -/
def crc32c (bs : List Nat) : W32 := (bs.flatMap bitsLsb).foldl (crcStepR 0x82F63B78) 0xFFFFFFFF ^^^ 0xFFFFFFFF

/-- Octets 0 to 23 as a payload. -/
def octets : List Nat → BitVec 192
  | [] => 0
  | b :: bs => (octets bs <<< 8) ||| BitVec.ofNat 192 (b % 256)

end Sys2Proof.Machine

namespace Sys2Proof

/-! ## Cells -/

/-- The header octets 0 to 6 (R415). -/
def Cell.header (c : Cell) : List Nat :=
  [c.typ.toNat, c.node.toNat, c.axs.toNat * 16 + c.flags.toNat] ++ Machine.beBytes 2 c.seq.toNat ++
    [c.claim.toNat, c.sub.toNat]

/-- A payload octet (R417). -/
def Cell.oct (c : Cell) (i : Nat) : Nat := bitsOf c.payload (8 * i + 7) (8 * i)

/-- Payload octets `[i, i + n)`, most significant byte first. -/
def Cell.be (c : Cell) (i n : Nat) : Nat :=
  (List.range n).foldl (fun v j => v * 256 + c.oct (i + j)) 0

/-- The data octets 0 to 27 (R417). -/
def Cell.data (c : Cell) : List Nat :=
  (List.range 24).map c.oct ++ Machine.beBytes 2 c.fbAge.toNat ++ Machine.beBytes 2 c.ta.toNat

/-- The header check holds (R419). -/
def RxCell.hOk (r : RxCell) : Bool := r.hcrc == Machine.crc8 r.cell.header

/-- The payload check holds (R419). -/
def RxCell.ok (r : RxCell) : Bool := r.crc == Machine.crc32c (r.cell.header ++ r.cell.data)

/-- The cell as it is sent: with HCRC in octet 7 (R415, R416) and CRC (R418). -/
def Cell.sealed (c : Cell) : RxCell :=
  { cell := c, hcrc := Machine.crc8 c.header, crc := Machine.crc32c (c.header ++ c.data) }

/-- E, the empty flag (R421). -/
def Cell.empty (c : Cell) : Bool := c.flags.getLsbD 0

/-! ## Blocks (R407, R411 to R414) -/

/-- Octet `k` of a block (R411). -/
def Block.octet (b : Block) (k : Nat) : Nat := bitsOf b.payload (8 * k + 7) (8 * k)

/-- A block of eight octets. -/
def Block.of (sync : BitVec 2) (os : List Nat) : Block := ⟨sync, (Machine.octets os).setWidth 64⟩

/-- An idle block (R412). -/
def Block.idle : Block := .of 2 [0xAE]

/-- The blocks of a cell (R413, R415, R417): the header and four data blocks. -/
def RxCell.blocks (r : RxCell) : List Block :=
  let d := r.cell.data ++ Machine.beBytes 4 r.crc.toNat
  Block.of 2 (r.cell.header ++ [r.hcrc.toNat]) ::
    (List.range 4).map (fun j => Block.of 1 ((d.drop (8 * j)).take 8))

/-- A cell TYPE that R420 knows; 0xAE is an idle block's. -/
def knownType (t : BitVec 8) : Bool :=
  (0xA1 ≤ t.toNat && t.toNat ≤ 0xA9) || (0xB0 ≤ t.toNat && t.toNat ≤ 0xBF)

/-- What a receiver counts in LNK_RX_FRAMING over a run of blocks (R414): `left` data blocks of a cell are
still to come. -/
def framing (left : Nat) : List Block → Nat
  | [] => 0
  | b :: bs =>
    if b.sync = 1 then (if left = 0 then 1 + framing 0 bs else framing (left - 1) bs)
    else
      let cut := if left = 0 then 0 else 1
      if b.sync ≠ 2 then cut + 1 + framing 0 bs
      else
        let t := BitVec.ofNat 8 (b.octet 0)
        if knownType t then cut + framing 4 bs
        else if t = 0xAE then cut + framing 0 bs
        else cut + 1 + framing 0 bs

/-- One bit of the self-synchronizing scrambler x^58 + x^39 + 1 (R407): the bit sent, and the register of
the last 58 bits sent. -/
def scrambleBit (r : BitVec 58) (b : Bool) : Bool × BitVec 58 :=
  let o := b != (r.getLsbD 38 != r.getLsbD 57)
  (o, (r <<< 1) ||| BitVec.ofNat 58 o.toNat)

/-- One bit of the descrambler: the bit, and the register of the last 58 bits received. -/
def descrambleBit (r : BitVec 58) (o : Bool) : Bool × BitVec 58 :=
  (o != (r.getLsbD 38 != r.getLsbD 57), (r <<< 1) ||| BitVec.ofNat 58 o.toNat)

/-- The payload bits of a block on the line, least significant bit first (R411), scrambled. -/
def Block.scrambled (b : Block) (r : BitVec 58) : List Bool × BitVec 58 :=
  ((List.range 64).map b.payload.getLsbD).foldl (fun a x =>
    let y := scrambleBit a.2 x
    (a.1 ++ [y.1], y.2)) ([], r)

end Sys2Proof

namespace Sys2Proof.Machine

/-! ## Accessors -/

def State.port (s : State) (p : Nat) : Port := tget {} s.lnk.ports p
def State.setPort (s : State) (p : Nat) (x : Port) : State :=
  { s with lnk.ports := tset {} s.lnk.ports p x }
def State.dir (s : State) (d : Nat) : Dir := tget {} s.lnk.dirs d
def State.setDir (s : State) (d : Nat) (x : Dir) : State :=
  { s with lnk.dirs := tset {} s.lnk.dirs d x }
def State.ring (s : State) (r : Nat) : Ring := tget {} s.rings r
def State.setRing (s : State) (r : Nat) (x : Ring) : State := { s with rings := tset {} s.rings r x }
def Ring.node (x : Ring) (k : Nat) : Node := tget {} x.tbl k
def Ring.setNode (x : Ring) (k : Nat) (n : Node) : Ring := { x with tbl := tset {} x.tbl k n }

/-- The nodes of a ring, in ring order. -/
def Ring.order (x : Ring) : List Nat := (List.range x.nodes).map (· + 1)

/-- The key of a node. -/
def nodeKey (r n : Nat) : Nat := r * 256 + n

/-- The selector value of LNK_NODE_SEL for a node. -/
def nodeSel (r n : Nat) : Nat := r * 256 + n

/-! ## Ports and directions (R408, R479, R719, R808) -/

/-- The domain of a port. -/
def portDom (p : Nat) : Nat := if p < 2 then 15 else if p < 4 then 16 else 17

/-- EN of a port. -/
def State.portEn (s : State) (p : Nat) : Bool := bitOf (s.rg LNK_PORT_CTL p) 0

/-- The level of a TXDIS ball: 0 while EN is 1; high-impedance in reset and while VIOC fails (R409,
R713, R749). -/
def State.txdisLevel (s : State) (p : Nat) : Level :=
  if !s.isOn 1 || s.pwr.vioFail.getLsbD 2 then .hiz else if s.portEn p then .low else .high

/-- A TXDIS ball takes its level. -/
def State.driveTxdis (s : State) (p : Nat) : State := s.out (.ball (.txdis p) (s.txdisLevel p))

/-- TRIG_IO is an open drain: high-impedance but while it is held low (R666, R713). -/
def State.trigLevel (s : State) : Level :=
  if s.trig.low.isSome && !s.pwr.vioFail.getLsbD 2 then .low else .hiz

/-- The balls of bank VIOC take their levels (R713). -/
def State.driveVioc (s : State) : State :=
  let s := (List.range 5).foldl State.driveTxdis s
  if s.trig.low.isSome then s.out (.ball .trigIo s.trigLevel) else s

/-- A port reports its PCS: its EN is 1 and its domain is ON (R808). -/
def State.portOn (s : State) (p : Nat) : Bool := s.portEn p && s.isOn (portDom p)

/-- LINK_UP (R479, R719). -/
def State.linkUp (s : State) (p : Nat) : Bool := s.portOn p && (s.port p).up

/-- A unit whose power has failed beside a living twin partner sends no further cell (R563). -/
def State.silent (s : State) : Bool := s.pwr.failed && s.twin.prevHb && s.twin.st ≠ .off

/-- The low 16 bits of DISP_CYC_COUNT. -/
def State.cyc16 (s : State) : BitVec 16 := s.cyc.count.setWidth 16

/-- Now, in tenths of a nanosecond of BT. -/
def State.now10 (s : State) : Nat := (s.bt.toNat * 2 ^ 32 + s.frac.toNat) * 10 / 2 ^ 32

/-- A cell slot in tenths of a nanosecond (R34). -/
def slot10 : Nat := 384

/-- FB_AGE of a cell that leaves at an instant in tenths of a nanosecond (R37); before the sample
instant it is 0. -/
def State.fbAge (s : State) (at10 : Nat) : BitVec 16 :=
  let t := (s.cyc.t0 + BitVec.ofNat 64 (s.rf DISP_CYC_SAMPLE 0 19 0)).toNat
  BitVec.ofNat 16 (min (at10 / 10 - t) 0xFFFF)

/-- A cell leaves on a ring direction in the slot that begins at an instant, with the unit's claim
(R408, R543). A direction leaves on the port of its own number. -/
def State.sendAt (s : State) (d at10 : Nat) (c : Cell) : State :=
  if !s.portOn d || s.silent then s
  else
    let c := { c with claim := s.twin.claim }
    let c := if c.typ = 0xA1 ∨ c.typ = 0xA5 then { c with fbAge := s.fbAge at10 } else c
    let x := s.dir d
    ((s.setDir d { x with txFree := max x.txFree (at10 + slot10) }).bump LNK_TX_CELLS d).out
      (.cell d c.sealed)

/-- When the transmitter's next slot begins, in tenths of a nanosecond. -/
def State.nextSlot (s : State) (d : Nat) : Nat := max s.now10 (s.dir d).txFree

/-- The same in whole nanoseconds of BT. -/
def State.nextSlotBt (s : State) (d : Nat) : W64 := BitVec.ofNat 64 (s.nextSlot d / 10)

/-- A cell leaves on a ring direction in the transmitter's next slot. -/
def State.sendCell (s : State) (d : Nat) (c : Cell) : State := s.sendAt d (s.nextSlot d) c

/-- Cells leave in consecutive slots from an instant on. -/
def State.sendTrain (s : State) (d from10 : Nat) (cs : List Cell) : State :=
  cs.zipIdx.foldl (fun s p => s.sendAt d (from10 + slot10 * p.2) p.1) s

/-- The direction on which a cell that returns on a port left (R408); until a break has been
located, an own cell counts as returned where it was expected (R496). -/
def dirOfReturn (p : Nat) : Nat := p ^^^ 1

/-- This unit takes part in cyclic operation of the rings (R559). -/
def State.cyclicOk (s : State) : Bool :=
  s.twin.st == .off || s.twin.st == .standby || s.twin.st == .active

/-- The tail of a twin pair serves every node counter-clockwise (R538). -/
def State.tail (s : State) : Bool :=
  (s.twin.st == .standby || s.twin.st == .active) && bitOf (s.rg TWIN_CTL) 1

/-- A node is served from the ring's second port. -/
def State.second (s : State) (r n : Nat) : Bool := s.tail || ((s.ring r).node n).second

/-- The direction that serves a node. -/
def State.dirOf (s : State) (r n : Nat) : Nat := 2 * r + b2n (s.second r n)

/-- Cyclic cells reach the nodes of a ring (R481). -/
def State.ringUp (s : State) (r : Nat) : Bool :=
  (s.ring r).st == .closed || (s.ring r).st == .twoEnded

/-- A direction is active: its ring is CLOSED, and the direction is clockwise or serves a node, or
its ring is TWO_ENDED (R33). A twin unit sends in its serving direction alone (R538). -/
def State.dirActive (s : State) (d : Nat) : Bool :=
  let r := d / 2
  s.cyclicOk && s.ringUp r &&
    (if s.twin.st == .standby || s.twin.st == .active then decide (d % 2 = b2n s.tail)
     else d % 2 == 0 || (s.ring r).st == .twoEnded ||
      (s.ring r).order.any (fun n => s.second r n))

/-- The nodes of a ring that a direction serves, in ring order. -/
def State.served (s : State) (d : Nat) : List Nat :=
  let r := d / 2
  (s.ring r).order.filter (fun n => s.dirOf r n == d && !((s.ring r).node n).lost)

/-! ## Far axes (R66, R424 to R431) -/

/-- The ring, node and slot of a far-axis header. -/
def hdrFar (h : W64) : Option (Nat × Nat × Nat) :=
  if bitOf h 31 then none else some (b2n (bitOf h 30), bitsOf h 29 22, bitsOf h 21 18)

/-- The ring, node and slot of an axis context. -/
def State.farOf (s : State) (c : Nat) : Option (Nat × Nat × Nat) :=
  if 1 ≤ c && c ≤ 128 then hdrFar (s.hdr c) else none

/-- The cyclic profile of a context's slot is DUTY: Full, or a user program whose bit says so. -/
def State.isDuty (s : State) (c : Nat) : Bool :=
  match s.prof c with
  | 2 => true
  | 3 => match s.farOf c with
    | some (r, n, sl) => bitOf (s.rg LNK_NODE_PROF (nodeSel r n)) sl
    | none => false
  | _ => false

/-- The octets of a context's feedback record. -/
def State.recLen (s : State) (c : Nat) : Nat := if s.isDuty c then 24 else 12

/-- The axis contexts of a node that satisfy `p`, in slot order. -/
def State.ctxsOfNode (s : State) (r n : Nat) (p : Nat → Bool) : List Nat :=
  let cs := axisCtxs.filter (fun c => p c && match s.farOf c with
    | some (a, b, _) => a == r && b == n
    | none => false)
  sortBy (fun c => match s.farOf c with
    | some (_, _, sl) => sl
    | none => 0) cs

/-- The context of a node's first axis slot, for an event's source. -/
def State.firstCtx (s : State) (r n : Nat) : Nat := ((s.ctxsOfNode r n s.ctxEn).head?).getD 0

/-! ## Trains (R33, R34, R424, R439) -/

/-- TFLAGS (R515). -/
def State.tflags (s : State) : BitVec 8 :=
  let t := s.tm
  BitVec.ofNat 8 (b2n (t.servo == .locked) + b2n (t.servo == .holdover || t.servo == .refused) * 2 +
    b2n (s.rf TIME_CTL 0 2 1 == 0 || t.servo == .free) * 4 + b2n (decide (t.slewLeft ≠ 0)) * 8 +
    b2n t.stepFlag * 16)

/-- The CYCLE_MARK of this T0 (R424); TXS is the BT at which it leaves. -/
def State.markCell (s : State) : Cell :=
  { typ := 0xA7, node := 255, seq := s.cyc16
    payload := octets (beBytes 8 s.cyc.t0.toNat ++ beBytes 4 (s.rf DISP_CYC_PERIOD 0 19 0) ++
      beBytes 4 (s.rf DISP_CYC_SAMPLE 0 19 0) ++ beBytes 4 s.bt32.toNat ++ [s.tflags.toNat]) }

/-- The CYCLE_MARKs of this T0 (R33). -/
def State.sendMarks (s : State) : State :=
  (List.range 4).foldl (fun s d => if s.dirActive d then s.sendCell d s.markCell else s) s

/-- The running axis contexts of a node, in slot order (R425). -/
def State.runningOf (s : State) (r n : Nat) : List Nat := s.ctxsOfNode r n (fun c => (s.run c).isSome)

/-- The slot of a far axis. -/
def State.slotOf (s : State) (c : Nat) : Nat :=
  match s.farOf c with
  | some (_, _, sl) => sl
  | none => 0

/-- The carrier of a node, when it has a running slot (R34, R425). -/
def State.carrierOf (s : State) (r n : Nat) : Option (Carrier × Cell) :=
  match s.runningOf r n with
  | [] => none
  | c :: cs =>
    let sub : BitVec 8 := match cs with
      | [] => 0
      | e :: _ => BitVec.ofNat 8 (16 + s.slotOf e)
    let axs : BitVec 4 := BitVec.ofNat 4 (s.slotOf c)
    some (⟨axs, sub, (c :: cs).take 2⟩,
      { typ := 0xA2, node := BitVec.ofNat 8 n, axs := axs, seq := s.cyc16, sub := sub })

/-- What the carrier of a node will bring back is kept (R432). -/
def State.noteCarrier (s : State) (d n : Nat) : State :=
  match s.carrierOf (d / 2) n with
  | some (k, _) => { s with lnk.carriers := tset none s.lnk.carriers (nodeKey (d / 2) n) (some k) }
  | none => s

/-- The carriers of a direction, in ring order (R34). -/
def State.carriersOf (s : State) (d : Nat) : List Cell :=
  (s.served d).filterMap (fun n => (s.carrierOf (d / 2) n).map Prod.snd)

/-- The key of an I/O word (R441). -/
def ioKey (r n k j : Nat) : Nat := r * 65536 + 32 * n + 8 * k + j

/-- NIO_D, NIO_U and TUN_U of a node. -/
def State.nioD (s : State) (r n : Nat) : Nat := s.rf LNK_NODE_IO (nodeSel r n) 2 0
def State.nioU (s : State) (r n : Nat) : Nat := s.rf LNK_NODE_IO (nodeSel r n) 6 4
def State.tunU (s : State) (r n : Nat) : Nat := s.rf LNK_NODE_IO (nodeSel r n) 9 8

/-- The image cell `k` of a node (R440). -/
def State.ioCell (s : State) (r n k : Nat) : Cell :=
  { typ := 0xA5, node := BitVec.ofNat 8 n, axs := BitVec.ofNat 4 k, seq := s.cyc16
    payload := octets ((List.range 5).flatMap (fun j =>
      beBytes 4 (tget 0 s.lnk.ioOut (ioKey r n k j)).toNat)) }

/-- The cells of the I/O train of a direction (R439): the empty IO_UP cells, then the IO_DOWN images. -/
def State.ioTrain (s : State) (d : Nat) : List Cell :=
  let r := d / 2
  let up (n : Nat) : List Cell := (List.range (s.nioU r n)).map (fun k =>
    { typ := 0xA6, node := BitVec.ofNat 8 n, axs := BitVec.ofNat 4 k, flags := 1, seq := s.cyc16 })
  (s.served d).flatMap up ++
    (s.served d).flatMap (fun n => (List.range (s.nioD r n)).map (s.ioCell r n))

/-- The trains of a direction at T0 + CARRIER_OFS (R34, R37, R439): carriers, empty IO_UPs and IO_DOWNs
in consecutive slots. -/
def State.sendTrains (s : State) (d : Nat) : State :=
  ((s.served d).foldl (fun s n => s.noteCarrier d n) s).sendTrain d s.now10 (s.carriersOf d ++ s.ioTrain d)

/-- The number of cells in the trains of a direction. -/
def State.trainLen (s : State) (d : Nat) : Nat :=
  let ns := s.served d
  (ns.filter (fun n => decide (s.runningOf (d / 2) n ≠ []))).length +
    (ns.map (fun n => s.nioU (d / 2) n + s.nioD (d / 2) n)).sum

/-! ## The cyclic transmit queue (R37, R39, R86, R802) -/

/-- When the cell of an item accepted now starts: in the transmitter's next slot that lies clear of the
trains of this cycle. -/
def State.itemStart (s : State) (d : Nat) : Nat :=
  let t := max s.now10 (s.dir d).txFree
  let a := (s.cyc.t0.toNat + s.rf DISP_CYC_CARRIER 0 19 0) * 10
  let b := a + slot10 * s.trainLen d
  if decide (d < 4) && decide (t < b) && decide (a < t + slot10) then b else t

/-- A cell that starts at an instant would arrive after the one its TA names (R38, R39). -/
def State.taLate (s : State) (d at10 : Nat) (k : Cell) : Bool :=
  let pd := ((s.ring (d / 2)).node k.node.toNat).pd.toNat
  k.ta != 0 && decide ((s.cyc.t0.toNat + 8 * k.ta.toNat) * 2560 < at10 * 256 + 10 * pd)

/-- A cell counted under R39. -/
def State.countLate (s : State) (c : Nat) : State :=
  let s := s.bump DISP_CYC_TA_LATE
  if s.cyc.taSeen then s else { s with cyc.taSeen := true }.post 0x0C05 .warn c

/-- OUT_AGE of a DOWN cell that starts at an instant (R197): from its TA, else from its FB_AGE and the
node's path delay in whole nanoseconds. -/
def State.outAge (s : State) (d at10 : Nat) (k : Cell) : Nat :=
  let ofs := s.rf DISP_CYC_SAMPLE 0 19 0
  let pd := ((s.ring (d / 2)).node k.node.toNat).pd.toNat
  if k.ta = 0 then (s.fbAge at10).toNat + pd / 256 + 32 else 8 * k.ta.toNat - ofs

/-- The age of a far axis's output is kept for its next run (R197). -/
def State.noteAge (s : State) (d : Nat) (q : TxItem) (k : Cell) : State :=
  if k.typ = 0xA1 && decide (1 ≤ q.ctx) && decide (q.ctx ≤ 128) then
    let x := tget {} s.axes q.ctx
    let n := min (s.outAge d q.at_ k) 0xFFFFFF
    { s with axes := tset {} s.axes q.ctx { x with outAge := some (BitVec.ofNat 24 n) } }
  else s

/-- The cell of an accepted item starts. -/
def State.startItem (s : State) (d : Nat) (q : TxItem) : State :=
  match q.cell with
  | some k =>
    let s := s.noteAge d q k
    (if s.taLate d q.at_ k then s.countLate q.ctx else s).sendAt d q.at_ k
  | none => s.out (.twinItem q.ctx q.bytes)

/-- The cells whose slots have begun start. -/
def State.startCells (s : State) (d : Nat) : State :=
  let x := s.dir d
  (x.txq.filter (fun q => decide (q.at_ ≤ s.now10))).foldl (fun s q => s.startItem d q)
    (s.setDir d { x with txq := x.txq.filter (fun q => !decide (q.at_ ≤ s.now10)) })

/-- A consumer of FL0 to FL4 accepts an item. -/
def State.acceptItem (s : State) (d : Nat) (cell : Option Cell) (bytes : List Byte) (ctx : Nat)
    (first : Bool) : State :=
  let t := s.itemStart d
  let x := s.dir d
  (s.setDir d { x with txq := x.txq ++ [⟨cell, bytes, ctx, first, t⟩], txFree := t + slot10 }).startCells d

/-- Every direction's items whose slots have begun start. -/
def State.startAll (s : State) : State := (List.range 5).foldl State.startCells s

/-! ## Credits (R446 to R448) -/

/-- SLOTS of R446: floor(PERIOD / 38.4 ns). -/
def State.slots (s : State) : Nat := s.rf DISP_CYC_PERIOD 0 19 0 * 10 / 384

/-- The flow of a direction (R408). -/
def dirFlow (d : Nat) : Nat := d

/-- The shelf slots that a context's stages reserve on a flow. -/
def State.reservedOn (s : State) (c f : Nat) : Nat :=
  ((List.range (s.nst c)).map (fun i =>
    let w := s.stw c i
    if stwFlowEn w && stwFlow w == f then stwItems w else 0)).sum

/-- CYCLIC of a direction when the contexts that satisfy `p` run (R446). -/
def State.cyclicOf (s : State) (d : Nat) (p : Nat → Bool) : Nat :=
  let r := d / 2
  let ns := s.served d
  1 + ns.length + (ns.filter (fun n => decide (s.ctxsOfNode r n p ≠ []))).length +
    (ns.map (fun n => s.nioU r n + s.nioD r n)).sum +
    (((List.range 255).map (· + 1)).map (fun c => if p c then s.reservedOn c (dirFlow d) else 0)).sum

/-- What a T0 gives each direction: its acyclic credits, and the count of the last cycle (R448). No
carrier of the new cycle has been sent (R432). -/
def State.refillCredits (s : State) : State :=
  (List.range 4).foldl (fun s d =>
    let x := s.dir d
    let cy := s.cyclicOf d (fun c => (s.run c).isSome)
    s.setDir d { x with credits := s.slots - cy, used := x.sent, sent := 0 })
    { s with lnk.carriers := [] }

/-! ## Acyclic cells (R443, R448 to R450) -/

/-- A cell waits for an acyclic slot of a direction. -/
def State.pushAcyc (s : State) (d : Nat) (a : Acyc) : State :=
  s.setDir d { s.dir d with wait := (s.dir d).wait ++ [a] }

/-- The next transaction number. -/
def State.nextSeq (s : State) : BitVec 16 × State := (s.lnk.seq, { s with lnk.seq := s.lnk.seq + 1 })

/-- The payload of a READ or WRITE request (R442). -/
def admPayload (r n point count : Nat) (vals : List W32) : BitVec 192 :=
  octets (beBytes 4 (r * 2 ^ 24 + n * 2 ^ 16 + point) ++ [count, 0, 0, 0] ++
    vals.flatMap (fun v => beBytes 4 v.toNat))

/-- The empty response cell of a transaction (R443). -/
def admEmpty (n : Nat) (seq : BitVec 16) : Acyc :=
  { cls := 1, cell := { typ := 0xA8, node := BitVec.ofNat 8 n, flags := 1, seq := seq, sub := 0x80 } }

/-- An ADMIN READ or WRITE starts (R442, R443): the request, and its first empty cell. A WRITE to
node 255 reaches every node, from both ends of a two-ended ring, and draws no response (R444). -/
def State.startAdm (s : State) (r n point count : Nat) (wr : Bool) (vals : List W32)
    (what : AdmFor) : State :=
  let (q, s) := s.nextSeq
  let a : Acyc := { cls := 0, cell := { typ := 0xA8, node := BitVec.ofNat 8 n, seq := q,
                                        sub := if wr then 2 else 1,
                                        payload := admPayload r n point count vals } }
  if n = 255 then
    let s := s.pushAcyc (2 * r + b2n s.tail) a
    if (s.ring r).st = .twoEnded && s.cyclicOk && s.twin.st = .off then s.pushAcyc (2 * r + 1) a else s
  else
    let d := s.dirOf r n
    let s := (s.pushAcyc d a).pushAcyc d (admEmpty n q)
    { s with lnk.adm := s.lnk.adm ++ [⟨r, n, q, wr, count, 0, what⟩] }

/-- At a T0 the outstanding transactions grow older and each gets an empty cell (R443), and the
empty TUNNEL cells of the nodes are queued. -/
def State.ageAdm (s : State) : State :=
  let s := { s with lnk.adm := s.lnk.adm.map (fun (a : Adm) => { a with age := a.age + 1 }) }
  let s := s.lnk.adm.foldl (fun s a => s.pushAcyc (s.dirOf a.ring a.node) (admEmpty a.node a.seq)) s
  (List.range 4).foldl (fun s d => (s.served d).foldl (fun s n =>
    (List.range (s.tunU (d / 2) n)).foldl (fun s _ =>
      s.pushAcyc d { cls := 3, cell := { typ := 0xA9, node := BitVec.ofNat 8 n, flags := 1 } }) s)
      s) s

/-- The waiting cell that the transmitter grants (R449, R495): those sent ahead first, then by
class, and within a class round-robin by node. -/
def Dir.pick (x : Dir) : Option Acyc :=
  match x.wait.find? (fun a => a.ahead) with
  | some a => some a
  | none =>
    (List.range 4).findSome? (fun k =>
      let l := x.wait.filter (fun a => a.cls == k)
      let last := tget 0 x.rr k
      leastKey (fun a => (a.cell.node.toNat + 256 - last - 1) % 256) l)
where
  /-- The first entry with the least key. -/
  leastKey (key : Acyc → Nat) : List Acyc → Option Acyc
    | [] => none
    | a :: as => some (as.foldl (fun b x => if key x < key b then x else b) a)

/-- `n` cell slots in nanoseconds, rounded up. -/
def slotNs (n : Nat) : Nat := (n * 384 + 9) / 10

/-- The slot that starts now would overlap a train or the time before one (R450). -/
def State.acycBlocked (s : State) (d : Nat) : Bool :=
  if !s.cyc.running then false
  else
    let t := (s.bt - s.cyc.t0).toNat
    let e := t + 39
    let per := s.rf DISP_CYC_PERIOD 0 19 0
    let car := s.rf DISP_CYC_CARRIER 0 19 0
    let ns := s.served d
    let carr := s.trainLen d
    let hits (a b : Nat) : Bool := decide (t < b) && decide (a < e)
    hits 0 (slotNs (1 + ns.length)) || hits (car - 39) (car + slotNs carr) || hits (per - 39) (per + 39)

/-- The waiting list without the first entry equal to `a`. -/
def dropFirst (a : Acyc) : List Acyc → List Acyc
  | [] => []
  | b :: bs => if b = a then bs else b :: dropFirst a bs

/-- One acyclic cell leaves on a direction whose transmitter is free, or is deferred for lack of credit
(R448, R449). -/
def State.startAcyc (s : State) (d : Nat) : State :=
  let s := s.startCells d
  let x := s.dir d
  match x.pick with
  | none => s
  | some a =>
    if s.acycBlocked d || !s.portOn d || decide (s.now10 < x.txFree) then s
    else if s.cyc.running && x.credits = 0 then
      if a.deferred then s
      else
        let w := x.wait.map (fun b => if b = a then { b with deferred := true } else b)
        (s.setDir d { x with wait := w }).bump LNK_ACYC_DEFER d
    else
      let s := s.setDir d { x with wait := dropFirst a x.wait, credits := x.credits - 1,
                                   sent := x.sent + 1,
                                   rr := tset 0 x.rr a.cls a.cell.node.toNat }
      s.sendCell d a.cell

/-! ## Receiving (R414, R419) -/

/-- A cell's checks on a port (R414, R419): its counters, and whether header and payload hold. A port that
is off receives nothing (R808), and what follows a header of unknown TYPE is no cell. -/
def State.checkRx (s : State) (p : Nat) (r : RxCell) : State × Bool × Bool :=
  if !s.portOn p then (s, false, false)
  else if !knownType r.cell.typ then (s.bump LNK_RX_FRAMING p (if r.cell.typ = 0xAE then 4 else 5), false, false)
  else if !r.hOk then (s.bump LNK_RX_HCRC p, false, false)
  else if !r.ok then (s.bump LNK_RX_CRC p, true, false)
  else (s.bump LNK_RX_CELLS p, true, true)

/-- A ring port receives: it holds its lock and is on. -/
def State.rxOn (s : State) (p : Nat) : Bool := s.portOn p

end Sys2Proof.Machine
end

