-- ==== Sys2Proof/Machine/Rings.lean ====
section
/-! DEFINITION. The rings: intake, enumeration, measurement, breaks and restoration (R479 to
R504). -/

namespace Sys2Proof.Machine

/-! ## Shared operations -/

/-- LOOP_MAX of a ring, ns. -/
def Ring.loopMax (x : Ring) : Nat := (Nat.max x.loopCw.toNat x.loopCcw.toNat) / 256

/-- How long a probe or LOCATE is awaited (R487, R493). -/
def Ring.probeWait (x : Ring) : W64 := BitVec.ofNat 64 (2 * x.loopMax + 10000)

/-- A ring-management cell to a node. -/
def mgmtCell (sub : BitVec 8) (n : Nat) (seq : BitVec 16) (pay : List Nat) : Cell :=
  { typ := 0xA8, node := BitVec.ofNat 8 n, seq := seq, sub := sub, payload := octets pay }

/-- An enabled far-axis context names the ring (R481). -/
def State.ringInUse (s : State) (r : Nat) : Bool :=
  axisCtxs.any (fun c => s.ctxEn c && match s.farOf c with
    | some (a, _, _) => a == r
    | none => false)

/-- The number of the first T0 that lies at least `ns` after now (R495). -/
def State.applySeq (s : State) (ns : Nat) : BitVec 16 :=
  if !s.cyc.running then s.cyc16 + 1
  else
    let left := (s.cyc.nextT0 - s.bt).toNat
    let per := max 1 (s.rf DISP_CYC_PERIOD 0 19 0)
    let k := if left ≥ ns then 0 else (ns - left + per - 1) / per
    s.cyc16 + 1 + BitVec.ofNat 16 k

/-- A node is sent a DELAY_SET and waits for its T0 (R491, R492, R495). -/
def State.delaySet (s : State) (r n : Nat) (second repeat_ : Bool) (seq : BitVec 16) : State :=
  let x := s.ring r
  let pd := if second then tget 0 x.pdCcw n else tget 0 x.pdCw n
  let s := s.setRing r (x.setNode n { x.node n with pend := some ⟨seq, second, pd, repeat_⟩ })
  let (q, s) := s.nextSeq
  s.pushAcyc (s.dirOf r n)
    { cls := 0, ahead := repeat_, cell := mgmtCell 0x15 n q
        (beBytes 4 pd.toNat ++ [b2n second, 0] ++ beBytes 2 seq.toNat) }

/-- The direction change that waits at a node. -/
def State.applyPend (s : State) (r n : Nat) : State :=
  let x := s.ring r
  let nd := x.node n
  match nd.pend with
  | none => s
  | some p =>
    let s := if p.seq = s.cyc16 then
        s.setRing r (x.setNode n { nd with second := p.second, pd := p.pd,
                                           pend := if p.repeat_ then some p else none })
      else s
    if p.repeat_ then s.delaySet r n p.second true p.seq else s

/-- What a T0 does to nodes that wait for it (R492, R495): the new direction and path delay take
effect, and a DELAY_SET whose node has not answered on its new port is sent again. -/
def State.applyPends (s : State) : State :=
  (List.range 2).foldl (fun s r => (s.ring r).order.foldl (fun s n => s.applyPend r n) s) s

/-- A ring enters INTAKE: its node table is cleared (R481). -/
def State.enterIntake (s : State) (r : Nat) : State :=
  s.setRing r { (s.ring r) with
    st := .intake, begun := true, nodes := 0, max := 0, min := 0, seg := [], tbl := [], joins := [],
    admAt0 := none, admAt1 := none, joinAt := s.bt, hop0 := none, hop1 := none, enumLeft := [],
    echo := none, echoLeft := [], pdCw := [], pdCcw := [], locate := none, restoreReq := false,
    gapSince := none, unfold := none, unfolded := false }

/-- Both ports of a ring have lost block lock (R481). -/
def State.ringDown (s : State) (r : Nat) : State :=
  let x := s.ring r
  if x.st = .off then s
  else
    let x := x.order.foldl (fun x n => x.setNode n { x.node n with lost := true }) x
    (s.setRing r { x with st := .off, locate := none, unfold := none, unfolded := false }).post
      0x0537 .severe 0

/-! ## Intake (R484 to R486) -/

/-- JOIN_RECEIVE (R484, R485): a JOIN reaches a ring port. -/
def State.joinReceive (s : State) (p : Fin 4) (rx : RxCell) : State :=
  let r := p.val / 2
  let c := rx.cell
  let (s, _, ok) := s.checkRx p rx
  let x := s.ring r
  if !ok || x.st ≠ .intake || c.typ ≠ 0xA8 || c.sub ≠ 0x10 || !s.portOn p then s
  else
    let s := s.setRing r { x with joinAt := s.bt }
    let x := s.ring r
    let nonce := BitVec.ofNat 16 (c.be 14 2)
    let last := if p.val % 2 = 0 then x.admAt0 else x.admAt1
    let soon := match last with
      | some t => decide ((s.bt - t).toNat < 50000)
      | none => false
    if x.joins.any (fun j => j.nonce == nonce) then s
    else if soon then (s.bump (RING_INTAKE_DEFERRED (p.val % 2)) r)
    else if c.oct 13 ≠ 2 || 254 ≤ x.joins.length then
      ((s.bump RING_REFUSED r).post 0x0533 .warn 0 (payOf (leBytes 4 (c.be 0 4))))
    else
      let j : Join := ⟨BitVec.ofNat 32 (c.be 0 4), BitVec.ofNat 32 (c.be 4 4),
        BitVec.ofNat 32 (c.be 8 4), BitVec.ofNat 8 (c.oct 12), nonce⟩
      let x := { x with joins := x.joins ++ [j] }
      let x := if p.val % 2 = 0 then { x with admAt0 := some s.bt } else { x with admAt1 := some s.bt }
      let answer := mgmtCell 0x11 255 0
        (beBytes 4 (c.be 0 4) ++ [0, 0, 0, 0, 0, 0, 0, 0, 0, 0] ++ beBytes 2 nonce.toNat)
      (((s.setRing r x).bump RING_JOINS r).sendCell p answer)

/-- JOIN_RECEIVE. -/
def execJoinReceive (p : Fin 4) (rx : RxCell) (s : State) : Host.Outcome State Fault Refusal :=
  .next (s.joinReceive p rx)

/-! ## Enumeration (R487, R488) -/

/-- A probe leaves (R487). -/
def State.sendProbe (s : State) (r dir : Nat) : State :=
  let x := s.ring r
  let s := s.setRing r { x with probeAt := s.nextSlotBt (2 * r + dir), probeDir := dir }
  s.sendCell (2 * r + dir) (mgmtCell 0x12 255 x.enumSeq [0, dir, x.nodes])

/-- A ring enters ENUM. -/
def State.enterEnum (s : State) (r : Nat) : State :=
  let x := s.ring r
  let s := s.setRing r { x with st := .enum, nodes := x.joins.length, hop0 := none, hop1 := none,
                                enumSeq := x.enumSeq + 1 }
  s.sendProbe r 0

/-- Enumeration failed (R488). -/
def State.enumMismatch (s : State) (r : Nat) : State :=
  (s.enterIntake r).post 0x0534 .warn 0

/-- The JOIN of a node number: the spec does not say how numbers and JOINs are matched, so the
command names their NONCEs in node order. -/
def Ring.joinOf (x : Ring) (assoc : List (BitVec 16)) (k : Nat) : Option Join :=
  ((assoc[k - 1]?).bind (fun q => x.joins.find? (fun j => j.nonce == q))).or x.joins[k - 1]?

/-- The node table (R502). -/
def Ring.fill (x : Ring) (assoc : List (BitVec 16)) (second : Nat → Bool) : Ring :=
  x.order.foldl (fun x k => match x.joinOf assoc k with
    | some j => x.setNode k { id := j.id, caps := j.caps, prep := j.prep, fwd := j.fwd,
                              second := second k }
    | none => x.setNode k { second := second k }) x

/-- The next ECHO of a measurement, or its end, is the caller's `done` (R489). The empty cells must reach the
node on its other port: they leave from the other end of a closed ring, and behind the request, to come
back from the fold, of a two-ended one. The spec does not say how many: the model sends two. -/
def State.nextEcho (s : State) (r : Nat) (what : EchoFor) (done : State → State) : State :=
  let x := s.ring r
  match x.echoLeft with
  | [] => done (s.setRing r { x with echo := none })
  | (n, second) :: rest =>
    let (q, s) := s.nextSeq
    let d := 2 * r + b2n second
    let s := s.setRing r { s.ring r with echo := some ⟨n, s.nextSlotBt d, second, what⟩, echoLeft := rest }
    let e : Cell := { typ := 0xA8, node := BitVec.ofNat 8 n, flags := 1, seq := q, sub := 0x80 }
    let back := if x.foundClosed || what == .heal then d ^^^ 1 else d
    ((s.sendCell d (mgmtCell 0x13 n q [])).sendCell back e).sendCell back e

/-- The segments and path delays of a measured ring (R490). -/
def Ring.table (x : Ring) : Ring :=
  let n := x.nodes
  let pc (k : Nat) : Nat := if k = 0 then 0 else (tget 0 x.pdCw k).toNat
  let fw (k : Nat) : Nat := (x.node k).fwd.toNat * 256
  if x.foundClosed then
    let d (k : Nat) : W32 :=
      if k = n + 1 then x.loopCw - BitVec.ofNat 32 (pc n) else BitVec.ofNat 32 (pc k) - BitVec.ofNat 32 (pc (k - 1))
    let seg := (List.range (n + 1)).foldl (fun m k => tset 0xFFFFFFFF m (k + 1) (d (k + 1))) []
    let ccw := x.order.foldl (fun m k =>
      tset 0 m k (x.loopCw - BitVec.ofNat 32 (pc k) - BitVec.ofNat 32 (fw k))) []
    { x with seg := seg, pdCcw := ccw }
  else
    let qc (k : Nat) : Nat := if k = n + 1 then 0 else (tget 0 x.pdCcw k).toNat + fw k
    let s1 := (List.range x.max).foldl (fun m k =>
      tset 0xFFFFFFFF m (k + 1) (BitVec.ofNat 32 (pc (k + 1)) - BitVec.ofNat 32 (pc k))) []
    let s2 := (x.order.filter (fun k => x.min ≤ k)).foldl (fun m k =>
      tset 0xFFFFFFFF m (k + 1) (BitVec.ofNat 32 (qc k) - BitVec.ofNat 32 (qc (k + 1)))) s1
    { x with seg := s2 }

/-- A measurement ends (R481, R491): the ring is CLOSED or TWO_ENDED as found, every node is sent a
DELAY_SET, and the count and the skew are judged. -/
def State.endMeasure (s : State) (r : Nat) : State :=
  let x := (s.ring r).table
  let x := { x with st := if x.foundClosed then .closed else .twoEnded }
  let s := s.setRing r x
  let seq := s.applySeq 0
  let s := x.order.foldl (fun s n => s.delaySet r n (x.node n).second false seq) s
  let skew := (x.loopCcw.toNat : Int) - x.loopCw.toNat
  let s := if x.foundClosed && decide (512 < skew.natAbs) then s.post 0x0536 .warn 0 else s
  let want := s.rf RING_CTL r 15 8
  if want ≠ 0 && want ≠ x.nodes then s.post 0x0535 .warn 0 else s

/-- A ring enters MEASURE (R489). -/
def State.enterMeasure (s : State) (r : Nat) : State :=
  let x := s.ring r
  let left := x.order.filterMap (fun k =>
    if x.foundClosed then some (k, false)
    else if k ≤ x.max then some (k, false)
    else if x.min ≤ k then some (k, true) else none)
  (s.setRing r { x with st := .measure, echoLeft := left }).nextEcho r .measure (fun s => s.endMeasure r)

/-- Both probes are done: the numbers are judged (R488), and RING_STATE of every node is read. -/
def State.judgeEnum (s : State) (r : Nat) (assoc : List (BitVec 16)) : State :=
  let x := s.ring r
  let n := x.nodes
  let closed := match x.hop0 with
    | some (h, true) => some h
    | _ => none
  let h0 := match x.hop0 with
    | some (h, false) => h
    | _ => 0
  let h1 := match x.hop1 with
    | some (h, true) => h
    | _ => 0
  let ok := match closed with
    | some h => h == n
    | none => h0 + h1 == n
  if !ok then s.enumMismatch r
  else
    let dirs (k : Nat) : Bool := if closed.isSome then bitOf (s.rg RING_NODE_DIR (r * 256 + k)) 0
      else decide (n - h1 < k)
    let x := { x with foundClosed := closed.isSome, max := if closed.isSome then n else h0,
                      min := if closed.isSome then 1 else n + 1 - h1 }
    let x := { x.fill assoc dirs with enumLeft := x.order }
    let s := s.setRing r x
    if n = 0 then s.enterMeasure r
    else x.order.foldl (fun s k => s.startAdm r k 0x0012 1 false [] .enumState) s

/-- ENUM_PROBE_RETURN (R487): a probe returns on a ring port. -/
def State.enumProbeReturn (s : State) (p : Fin 4) (rx : RxCell) (assoc : List (BitVec 16)) : State :=
  let r := p.val / 2
  let c := rx.cell
  let (s, _, ok) := s.checkRx p rx
  let x := s.ring r
  let second := p.val % 2 == 1
  if !ok || x.st ≠ .enum || c.typ ≠ 0xA8 || c.claim ≠ s.twin.claim || c.sub ≠ 0x12 || c.seq ≠ x.enumSeq || c.oct 1 ≠ x.probeDir then s
  else
    let t := BitVec.ofNat 32 ((s.bt - x.probeAt).toNat * 256)
    if x.probeDir = 0 then
      let x := { x with hop0 := some (c.oct 0, second), loopCw := if second then t else x.loopCw }
      ((s.setRing r x).sendProbe r 1)
    else
      let x := { x with hop1 := some (c.oct 0, second), loopCcw := if second then x.loopCcw else t }
      ((s.setRing r x).judgeEnum r assoc)

/-- ENUM_PROBE_RETURN. -/
def execEnumProbeReturn (p : Fin 4) (rx : RxCell) (assoc : List (BitVec 16)) (s : State) : Host.Outcome State Fault Refusal :=
  .next (s.enumProbeReturn p rx assoc)

/-- ENUM_PROBE_TIMEOUT (R487): a probe has not returned in time. -/
def State.enumProbeTimeout (s : State) (r : Fin 2) (assoc : List (BitVec 16)) : State :=
  let x := s.ring r
  if x.st ≠ .enum || x.enumLeft ≠ [] then s
  else
    let s := s.upTo (x.probeAt + x.probeWait)
    (if x.probeDir = 0 then s.sendProbe r 1 else s.judgeEnum r assoc)

/-- ENUM_PROBE_TIMEOUT. -/
def execEnumProbeTimeout (r : Fin 2) (assoc : List (BitVec 16)) (s : State) : Host.Outcome State Fault Refusal :=
  .next (s.enumProbeTimeout r assoc)

/-- The healed segment is measured: the ring is CLOSED (R501). -/
def State.restored (s : State) (r : Nat) : State :=
  let x := s.ring r
  let pc (k : Nat) : W32 := if k = 0 then 0 else tget 0 x.pdCw k
  let d := if x.min = x.nodes + 1 then x.loopCw - pc x.nodes else pc x.min - pc (x.min - 1)
  let x := { x with st := .closed, unfold := none, unfolded := false, restoreReq := false,
                    gapSince := none, seg := tset 0xFFFFFFFF x.seg x.min d, max := x.nodes, min := 1 }
  ((s.setRing r x).bump RING_RESTORES r).post 0x0532 .info 0

/-- The tail has measured a node (R540): its path delay is in force, and is written to TWIN_PD. -/
def State.tailDelay (s : State) (r n : Nat) (pd : W32) : State :=
  let x := s.ring r
  (s.setRing r (x.setNode n { x.node n with pd := pd })).startAdm r n 0x0015 1 true [pd] .plain

/-- ECHO_RESPONSE (R489): the filled answer of the node that is being echoed arrives. -/
def State.echoResponse (s : State) (p : Fin 4) (rx : RxCell) : State :=
  let r := p.val / 2
  let c := rx.cell
  let (s, _, ok) := s.checkRx p rx
  let x := s.ring r
  match x.echo with
  | none => s
  | some e =>
    if !ok || c.typ ≠ 0xA8 || c.claim ≠ s.twin.claim || c.sub ≠ 0x93 || c.node.toNat ≠ e.node then s
    else
      let rt : W32 := BitVec.ofNat 32 ((s.bt - e.at_).toNat * 256) -
        (BitVec.ofNat 32 (c.be 4 4) - BitVec.ofNat 32 (c.be 0 4))
      let half := rt >>> 1
      let x := if e.second then { x with pdCcw := tset 0 x.pdCcw e.node half }
        else { x with pdCw := tset 0 x.pdCw e.node half }
      let s := s.setRing r x
      let s := if e.what == .tail then s.tailDelay r e.node half else s
      s.nextEcho r e.what (fun s => match e.what with
        | .measure => s.endMeasure r
        | .heal => s.restored r
        | .tail => s)

/-- ECHO_RESPONSE. -/
def execEchoResponse (p : Fin 4) (rx : RxCell) (s : State) : Host.Outcome State Fault Refusal :=
  .next (s.echoResponse p rx)

/-! ## Breaks (R493 to R496, R561) -/

/-- This unit runs ring management (R539); in recovery boot the rings stay OFF (R745). -/
def State.manages (s : State) : Bool :=
  (!s.tail || !s.twin.partnerOk) && s.boot.st != BootSt.recovery

/-- A break is detected (R493): RING_BREAK, and LOCATE leaves both ends. `keep0` and `keep1` are
what stands for an end that did not break. -/
def State.breakRing (s : State) (r : Nat) (keep0 keep1 : Option Nat) : State :=
  let x := s.ring r
  if x.locate.isSome || !s.manages then s
  else
    let s := (s.bump RING_BREAKS r).post 0x0530 .warn 0 (payOf [r])
    let s := s.setRing r { s.ring r with locate := some ⟨s.bt, keep0, keep1⟩, unfold := none,
                                         unfolded := false, gapSince := none }
    let (q, s) := s.nextSeq
    let s := if keep0.isNone then s.sendCell (2 * r) (mgmtCell 0x14 255 q [0, 255]) else s
    if keep1.isNone then s.sendCell (2 * r + 1) (mgmtCell 0x14 255 q [0, 255]) else s

/-- A node in the partner's reach (R561, R564). -/
def State.partnerReaches (s : State) (r n : Nat) : Bool :=
  s.twin.partnerOk && (s.twin.st == .active || s.twin.st == .standby) &&
    decide (bitsOf s.twin.reach (16 * r + 7) (16 * r) ≤ n) &&
    decide (n ≤ bitsOf s.twin.reach (16 * r + 15) (16 * r + 8))

/-- A node beyond both ends of a broken ring is lost (R494). -/
def State.loseNode (s : State) (r n : Nat) : State :=
  let x := s.ring r
  if (x.node n).lost || s.partnerReaches r n then s
  else (s.setRing r (x.setNode n { x.node n with lost := true })).post 0x0531 .severe
    (s.firstCtx r n) (payOf [r, n])

/-- Both ends have been heard (R494, R495): the ring is TWO_ENDED. -/
def State.located (s : State) (r mx mn : Nat) : State :=
  let x := s.ring r
  let gap := (List.range (x.nodes + 1)).map (· + 1) |>.filter (fun k => mx < k && k ≤ mn)
  let x := { x with st := .twoEnded, max := mx, min := mn, locate := none,
                    seg := gap.foldl (fun m k => tset 0xFFFFFFFF m k 0xFFFFFFFF) x.seg }
  let s := s.setRing r x
  let paired := s.twin.partnerOk && (s.twin.st == .active || s.twin.st == .standby)
  let seq := s.applySeq (x.loopMax + 2000)
  x.order.foldl (fun s n =>
    if mx < n && n < mn then s.loseNode r n
    else
      let second := decide (mx < n)
      if paired || ((s.ring r).node n).second == second then s
      else s.delaySet r n second true seq) s

/-- An end of a broken ring is heard, or given up. -/
def State.locateEnd (s : State) (r : Nat) (second : Bool) (v : Nat) : State :=
  let x := s.ring r
  match x.locate with
  | none => s
  | some l =>
    let l := if second then { l with min := some v } else { l with max := some v }
    match l.max, l.min with
    | some a, some b => s.located r a b
    | _, _ => s.setRing r { x with locate := some l }

/-- CYCLE_MARK_TIMEOUT (R493): the clockwise mark of a CLOSED ring has not returned. -/
def State.cycleMarkTimeout (s : State) (r : Fin 2) : State :=
  let x := s.ring r
  if x.st ≠ .closed || x.markSeen || !s.cyc.running || !s.dirActive (2 * r.val) ||
      x.unfold == some s.cyc16 then s
  else
    let s := s.upTo (s.cyc.t0 + BitVec.ofNat 64 (x.loopCw.toNat / 256 + 1000))
    (s.breakRing r none none)

/-- CYCLE_MARK_TIMEOUT. -/
def execCycleMarkTimeout (r : Fin 2) (s : State) : Host.Outcome State Fault Refusal :=
  .next (s.cycleMarkTimeout r)

/-- LOCATE_RETURN (R493, R494): a LOCATE returns on the end that it left. -/
def execLocateReturn (p : Fin 4) (rx : RxCell) (s : State) : Host.Outcome State Fault Refusal :=
  let r := p.val / 2
  let c := rx.cell
  let (s, _, ok) := s.checkRx p rx
  if !ok || c.typ ≠ 0xA8 || c.claim ≠ s.twin.claim || c.sub ≠ 0x14 then .next s
  else if p.val % 2 = 0 then .next (s.locateEnd r false (c.oct 0))
  else .next (s.locateEnd r true (c.oct 1))

/-- LOCATE_TIMEOUT (R493): the LOCATE of an end has not returned in time. -/
def State.locateTimeout (s : State) (r : Fin 2) (second : Bool) : State :=
  let x := s.ring r
  match x.locate with
  | none => s
  | some l =>
    if (if second then l.min else l.max).isSome then s
    else
      let s := s.upTo (l.at_ + x.probeWait)
      (s.locateEnd r second (if second then x.nodes + 1 else 0))

/-- LOCATE_TIMEOUT. -/
def execLocateTimeout (r : Fin 2) (second : Bool) (s : State) : Host.Outcome State Fault Refusal :=
  .next (s.locateTimeout r second)

/-! ## Restoration (R499 to R501) -/

/-- UNFOLD leaves to the gap nodes (R499). -/
def State.sendUnfold (s : State) (r : Nat) : State :=
  let x := s.ring r
  let seq := s.applySeq (x.loopMax + 2000)
  let s := s.setRing r { x with unfold := some seq }
  ([x.max, x.min].filter (fun n => 1 ≤ n && n ≤ x.nodes)).foldl (fun s n =>
    let (q, s) := s.nextSeq
    let c := mgmtCell 0x16 n q ([0, 0, 0, 0, 0, 0] ++ beBytes 2 seq.toNat)
    s.pushAcyc (s.dirOf r n) { cls := 0, cell := c }) s

/-- RESTORE_POLL (R499): every 100 ms of a TWO_ENDED ring. -/
def execRestorePoll (r : Fin 2) (s : State) : Host.Outcome State Fault Refusal :=
  let x := s.ring r
  if x.st ≠ .twoEnded || x.locate.isSome || x.unfold.isSome || !s.manages then .next s
  else
    let s := s.upTo (x.pollAt + 100000000)
    let hold := match x.gapSince with
      | some t => decide ((s.bt - t).toNat ≥ s.rf RING_TIME r 23 16 * 100000000)
      | none => false
    let s := s.setRing r { s.ring r with pollAt := s.bt }
    let s := if hold && (bitOf (s.rg RING_CTL r) 2 || x.restoreReq) then s.sendUnfold r else s
    .next (([x.max, x.min].filter (fun n => 1 ≤ n && n ≤ x.nodes)).foldl (fun s n =>
      s.startAdm r n 0x0012 1 false [] .gap) s)

/-- A gap node's RING_STATE (R499): lock on its port toward the gap, with the other end's. -/
def State.gapState (s : State) (r n v : Nat) : State :=
  let x := s.ring r
  let x := if n = x.max then { x with gapLow := v.testBit 1 } else { x with gapHigh := v.testBit 0 }
  let low := x.max = 0 && (s.port (2 * r)).lock || x.gapLow
  let high := x.min = x.nodes + 1 && (s.port (2 * r + 1)).lock || x.gapHigh
  let since := if low && high then some (x.gapSince.getD s.bt) else none
  s.setRing r { x with gapSince := since }

/-- What a T0 does to rings: marks are awaited again, and an UNFOLD takes effect (R500). -/
def State.ringsAtT0 (s : State) : State :=
  (List.range 2).foldl (fun s r =>
    let x := s.ring r
    s.setRing r { x with markSeen := false,
                         unfolded := x.unfolded || (x.unfold == some s.cyc16) }) s

/-- In the sill the nodes beside a healed segment are echoed (R501). -/
def State.healEchoes (s : State) : State :=
  (List.range 2).foldl (fun s r =>
    let x := s.ring r
    if x.unfolded && x.echo.isNone && x.st == .twoEnded then
      let left := ([x.max, x.min].filter (fun n => 1 ≤ n && n ≤ x.nodes)).map (fun n => (n, false))
      (s.setRing r { x with echoLeft := left }).nextEcho r .heal (fun s => s.restored r)
    else s) s

/-! ## Commands and ports (R479 to R481) -/

/-- The ring that RING_SEL selects. -/
def State.ringSelected (s : State) : Nat := s.rf RING_SEL 0 0 0

/-- RING_CMD_INTAKE (R481, R539). -/
def State.ringIntake (s : State) : State :=
  if !s.isOn 1 || !s.manages then s
  else
    let r := s.ringSelected
    match (s.ring r).st with
    | .off => (if s.linkUp (2 * r) || s.linkUp (2 * r + 1) then s.enterIntake r else s)
    | .closed | .twoEnded =>
      (if s.ringInUse r then s.post 0x0538 .warn 0 else s.enterIntake r)
    | .intake | .enum | .measure => s

/-- The command (the write of its register). -/
def execRingCmdIntake (s : State) : Host.Outcome State Fault Refusal :=
  .next (s.ringIntake)

/-- RING_CMD_CLOSE (R481). -/
def State.ringClose (s : State) : State :=
  if !s.isOn 1 then s
  else
    let r := s.ringSelected
    (if (s.ring r).st = .intake then s.enterEnum r else s)

/-- The command (the write of its register). -/
def execRingCmdClose (s : State) : Host.Outcome State Fault Refusal :=
  .next (s.ringClose)

/-- RING_CMD_RESTORE (R499). -/
def State.ringRestore (s : State) : State :=
  if !s.isOn 1 then s
  else
    let r := s.ringSelected
    let x := s.ring r
    (if x.st = .twoEnded then s.setRing r { x with restoreReq := true } else s)

/-- The command (the write of its register). -/
def execRingCmdRestore (s : State) : Host.Outcome State Fault Refusal :=
  .next (s.ringRestore)

/-- AUTO_INTAKE (R480): 30 ms after release, or at the first LINK_UP if that comes later. -/
def State.autoIntake (s : State) (r : Fin 2) : State :=
  if (s.ring r).st = .off && !(s.ring r).begun && bitOf (s.rg RING_CTL r) 0 && s.manages &&
      (s.linkUp (2 * r.val) || s.linkUp (2 * r.val + 1)) then
    ((s.upTo (s.boot.releaseAt + 30000000)).enterIntake r)
  else s

/-- AUTO_INTAKE. -/
def execAutoIntake (r : Fin 2) (s : State) : Host.Outcome State Fault Refusal :=
  .next (s.autoIntake r)

/-- INTAKE_QUIET_EXPIRE (R481): no JOIN for INTAKE_QUIET. -/
def execIntakeQuietExpire (r : Fin 2) (s : State) : Host.Outcome State Fault Refusal :=
  let x := s.ring r
  if x.st = .intake then
    .next ((s.upTo (x.joinAt + BitVec.ofNat 64 (s.rf RING_TIME r 7 0 * 1000000))).enterEnum r)
  else .next s

/-- LINK_UP (R479, R808): a port has held block lock with HI_BER clear for 1 ms. -/
def execLinkUp (p : Fin 5) (s : State) : Host.Outcome State Fault Refusal :=
  if s.portOn p then
    .next (s.setPort p { s.port p with lock := true, hiBer := false, up := true })
  else .next s

/-- A ring port has lost block lock or reports LOS (R481, R493). -/
def State.ringPortLost (s : State) (p : Nat) : State :=
  let r := p / 2
  let x := s.ring r
  if !(s.port (2 * r)).lock && !(s.port (2 * r + 1)).lock then s.ringDown r
  else match x.st with
    | .closed => s.breakRing r none none
    | .twoEnded =>
      if p % 2 = 0 then s.breakRing r none (some x.min) else s.breakRing r (some x.max) none
    | _ => s

/-- LOS of a port (R808). -/
def Port.losSeen (x : Port) : Bool := x.modabs || x.los

/-- A port shows new lines: a ring port that has lost block lock or now reports LOS breaks its ring
(R493). -/
def State.setLines (s : State) (p : Nat) (x : Port) : State :=
  let w := s.port p
  let t := s.setPort p x
  if s.isOn 1 && s.portOn p && decide (p < 4) && (w.lock && !x.lock || !w.losSeen && x.losSeen) then
    t.ringPortLost p
  else t

/-- PORT_LOCK_LOSS (R407, R493, R808): block lock, LOS and high BER of a port. LINK_UP falls with the
conditions that set it. -/
def State.portLockLoss (s : State) (p : Fin 5) (lock los hiBer : Bool) : State :=
  let x := s.port p
  let held := s.portOn p && lock
  s.setLines p { x with los := los, lock := held, hiBer := held && hiBer, up := x.up && held && !hiBer }

/-- PORT_LOCK_LOSS. -/
def execPortLockLoss (p : Fin 5) (l : LineState) (s : State) : Host.Outcome State Fault Refusal :=
  .next (s.portLockLoss p l.lock l.los l.hiBer)

/-- MODULE_ABSENT (R410, R808): the MODABS ball of a port says that its module is absent, or is
there again. -/
def State.moduleAbsent (s : State) (p : Fin 5) (absent : Bool) : State :=
  let x := s.port p
  let t := s.setLines p { x with modabs := absent }
  if s.isOn 1 && absent && !x.modabs then t.post 0x0501 .warn 0 else t

/-- MODULE_ABSENT. -/
def execModuleAbsent (p : Fin 5) (absent : Bool) (s : State) : Host.Outcome State Fault Refusal :=
  .next (s.moduleAbsent p absent)

end Sys2Proof.Machine
end

