-- ==== Sys2Proof/Machine/Descs.lean ====
section
/-! DEFINITION. Descriptors: what the opcode tables say of their operands, the checks at fetch, and
the bookkeeping of a fetch (R550, R599, R621 to R625, R631). -/

namespace Sys2Proof.Machine

/-- What an opcode's TARGET names. -/
inductive TgtKind where
  | zero | ctx | axis | group | acq | signal | param
  deriving DecidableEq, Repr

/-- One row of an opcode table: its TARGET, the AUX bits that it names, and its payload bytes as a
mask, bit `i` for byte `16 + i`. -/
structure OpRow where
  tgt : TgtKind
  aux : W32
  pay : BitVec 48
  deriving DecidableEq, Repr

/-- The mask of the payload bytes `lo` to `hi` of a descriptor. -/
def pb (lo hi : Nat) : BitVec 48 := BitVec.ofNat 48 ((2 ^ (hi + 1 - lo) - 1) <<< (lo - 16))

/-- The rows of classes 0x0 and 0x1 (R373, R402, R516 and R518, R640). -/
def opRow01 : Nat → Option OpRow
  | 0x00 => some ⟨.zero, 0, 0⟩
  | 0x01 => some ⟨.ctx, 0, 0⟩
  | 0x08 => some ⟨.zero, 0, pb 16 24⟩
  | 0x09 => some ⟨.zero, 1, pb 16 23⟩
  | 0x10 => some ⟨.axis, 3, 0⟩
  | 0x11 => some ⟨.axis, 0xFF03, pb 16 55⟩
  | 0x12 => some ⟨.axis, 0xFF02, pb 16 47⟩
  | 0x13 => some ⟨.axis, 3, pb 16 55⟩
  | 0x14 => some ⟨.axis, 7, 0⟩
  | 0x15 => some ⟨.axis, 1, pb 16 24 ||| pb 32 55⟩
  | 0x16 => some ⟨.axis, 0xFF02, pb 16 17 ||| pb 24 39⟩
  | 0x17 => some ⟨.axis, 1, pb 24 39⟩
  | 0x18 => some ⟨.axis, 0, 0⟩
  | 0x19 => some ⟨.axis, 0, pb 16 23⟩
  | 0x1A => some ⟨.axis, 7, 0⟩
  | _ => none

/-- The rows of classes 0x2 to 0x7 (R373, R640, R674, R731, and the twin descriptors). -/
def opRow27 : Nat → Option OpRow
  | 0x20 => some ⟨.group, 0, pb 16 31⟩
  | 0x21 => some ⟨.group, 0, pb 16 45⟩
  | 0x22 => some ⟨.group, 0, pb 16 63⟩
  | 0x23 => some ⟨.group, 0, 0⟩
  | 0x24 => some ⟨.group, 0, 0⟩
  | 0x25 => some ⟨.group, 0, 0⟩
  | 0x2E => some ⟨.group, 0, pb 16 63⟩
  | 0x30 => some ⟨.axis, 0xFFFF, pb 16 51⟩
  | 0x31 => some ⟨.axis, 0xFF, 0⟩
  | 0x32 => some ⟨.zero, 0x3FFFF, pb 16 55⟩
  | 0x33 => some ⟨.zero, 0xFF, pb 16 17 ||| pb 24 32⟩
  | 0x34 => some ⟨.zero, 0x1F, pb 16 39⟩
  | 0x40 => some ⟨.ctx, 0x7FFF, pb 16 63⟩
  | 0x41 => some ⟨.ctx, 0x7FFF, 0⟩
  | 0x42 => some ⟨.signal, 7, 0⟩
  | 0x43 => some ⟨.signal, 7, pb 16 31⟩
  | 0x50 => some ⟨.acq, 0, 0⟩
  | 0x51 => some ⟨.acq, 0, 0⟩
  | 0x52 => some ⟨.acq, 1, 0⟩
  | 0x53 => some ⟨.acq, 0, 0⟩
  | 0x54 => some ⟨.acq, 0, 0⟩
  | 0x60 => some ⟨.zero, 0x31F, 0⟩
  | 0x70 => some ⟨.zero, 0, 0⟩
  | 0x71 => some ⟨.zero, 0xFF, 0⟩
  | 0x72 => some ⟨.zero, 0, 0⟩
  | _ => none

/-- The rows of the guard classes and of firmware and maintenance (R600, R643, R704). Bytes 62 and
63 of a guard descriptor hold its CRC. -/
def opRow8F (op : Nat) : Option OpRow :=
  let crc : BitVec 48 := pb 62 63
  let g (k : Nat) : Option OpRow := match k with
    | 0 => some ⟨.param, 0, pb 16 35 ||| crc⟩
    | 1 => some ⟨.param, 0, crc⟩
    | 2 => some ⟨.param, 0xFFFFFFFF, crc⟩
    | 3 => some ⟨.zero, 0, pb 16 47 ||| crc⟩
    | 4 => some ⟨.axis, 0, crc⟩
    | 5 => some ⟨.axis, 0, crc⟩
    | 6 => some ⟨.zero, 0xFFFFFFFF, crc⟩
    | 7 => some ⟨.zero, 0, pb 16 31 ||| crc⟩
    | _ => none
  if 0x80 ≤ op && op < 0x90 then g (op - 0x80)
  else if 0x90 ≤ op && op < 0xA0 then (if op = 0x95 then none else g (op - 0x90))
  else match op with
    | 0xF0 => some ⟨.zero, 0xFFFF, pb 16 63⟩
    | 0xF1 => some ⟨.zero, 0, 0⟩
    | 0xF2 => some ⟨.zero, 0, 0⟩
    | 0xF3 => some ⟨.zero, 0, 0⟩
    | 0xF4 => some ⟨.zero, 0xFFF, pb 16 63⟩
    | 0xF5 => some ⟨.zero, 1, 0⟩
    | 0xF6 => some ⟨.zero, 0, 0⟩
    | 0xF7 => some ⟨.zero, 0x33FFF, 0⟩
    | _ => none

/-- The row of an opcode; `none`: no chapter defines it (R622, item 1). -/
def opRow (op : BitVec 8) : Option OpRow :=
  (opRow01 op.toNat).or ((opRow27 op.toNat).or (opRow8F op.toNat))

/-- EXEC, MDIR, IRQ and MS of a descriptor (R621). -/
def descExec (d : Desc) : Nat := bitsOf d.flags 1 0
def descDown (d : Desc) : Bool := bitOf d.flags 2
def descIrq (d : Desc) : Bool := bitOf d.flags 3
def descMs (d : Desc) : Nat := bitsOf d.flags 7 4

/-- The payload bytes that a descriptor of this opcode uses, where they depend on COUNT: a byte of
no value counts as reserved. -/
def payUsed (op : BitVec 8) (d : Desc) (r : OpRow) : BitVec 48 :=
  let n := match op.toNat with
    | 0x13 => some (20 * min 2 (bitsOf d.aux 1 0))
    | 0x40 => some (3 * min 16 (bitsOf d.aux 14 10))
    | 0x43 => some (4 * min 4 (bitsOf d.aux 2 0))
    | _ => none
  match n with
  | some n => BitVec.ofNat 48 (2 ^ n - 1)
  | none => r.pay

/-- A payload byte outside the mask is not 0. -/
def payReserved (m : BitVec 48) (p : BitVec 384) : Bool :=
  (List.range 48).any (fun i => !m.getLsbD i && bitsOf p (8 * i + 7) (8 * i) != 0)

/-- Bits of payload bytes that a table leaves unnamed inside a named byte (R373: REPEAT [0] and
NOTIFY [1] of byte 46). -/
def subReserved (op : BitVec 8) (d : Desc) : Bool := op == 0x30 && d.le 46 1 / 4 != 0

/-- A TARGET bit that is reserved is not 0 (R621). -/
def tgtReserved (k : TgtKind) (t : W32) : Bool :=
  match k with
  | .ctx | .axis | .group | .acq => decide (256 ≤ t.toNat)
  | .signal => decide (2 ^ 25 ≤ t.toNat)
  | .zero | .param => false

/-- A TARGET in the range that the opcode allows (R622, item 3). -/
def tgtOk (k : TgtKind) (t : W32) : Bool :=
  let n := t.toNat
  match k with
  | .zero => n == 0
  | .ctx => decide (1 ≤ n) && decide (n ≤ 255)
  | .axis => decide (1 ≤ n) && decide (n ≤ 128)
  | .group => decide (129 ≤ n) && decide (n ≤ 160)
  | .acq => decide (161 ≤ n) && decide (n ≤ 168)
  | .signal => true
  | .param => true

/-- The check at fetch (R622): the status with which the descriptor completes at once. -/
def fetchCheck (op : BitVec 8) (d : Desc) : Option (BitVec 16) :=
  match opRow op with
  | none => some 0x0101
  | some r =>
    if descExec d = 3 || (descExec d = 0 && d.execAt ≠ 0) || d.aux &&& ~~~ r.aux ≠ 0 ||
        payReserved (payUsed op d r) d.payload || subReserved op d || tgtReserved r.tgt d.target then
      some 0x0102
    else if !tgtOk r.tgt d.target then some 0x0103
    else none

/-- SRC of a completion (R629): TARGET [7:0] when it names a context, else 0. -/
def descSrc (op : BitVec 8) (d : Desc) : BitVec 8 :=
  match (opRow op).map OpRow.tgt with
  | some .ctx | some .axis | some .group | some .acq => d.target.setWidth 8
  | _ => 0

/-- The bookkeeping of one fetch (R624, R631, R638): the ledger, the reserved command entry, and the
descriptor open on its SQ. -/
def State.fetchCmd (s : State) (op : BitVec 8) (d : Desc) : Cmd × State :=
  let c : Cmd := { op := op, sq := d.sq, tag := d.tag, src := descSrc op d, irq := descIrq d,
                   epoch := s.host.epoch }
  let n := s.ringBind 0 d.sq.toNat
  let s := { s with host.ledger.fetched := s.host.ledger.fetched + 1 }
  let s := s.setCq n { s.cq n with reserved := (s.cq n).reserved + 1 }
  (c, s.setSq d.sq.toNat { s.sq d.sq.toNat with opened := (s.sq d.sq.toNat).opened + 1 })

/-! ## What a ring or a twin state refuses (R552, R599) -/

/-- A safety parameter of a channel (R601). -/
def gReset (id : Nat) : W32 :=
  if id = 2 then 0xA else if id = 3 then 0x64 else if id = 4 then 0x12C else if id = 5 then 0xA
  else if 0x10 ≤ id && id ≤ 0x17 then 2 else if id = 0x21 then 0x3E8 else if id = 0x22 then 0x64
  else if id = 0x23 then 0xC8 else 0

/-- The value of a safety parameter in a channel's copy. -/
def Guard.par (g : Guard) (id : Nat) : W32 := tget (gReset id) g.params id

/-- GUARD_EN of a channel. -/
def Guard.en (g : Guard) : Bool := bitOf (g.par 1) 0

/-- A near-axis context. -/
def State.isNear (s : State) (c : Nat) : Bool := (s.nearOf c).isSome

/-- A group with a near-axis member. -/
def State.nearGroup (s : State) (c : Nat) : Bool :=
  decide (129 ≤ c) && decide (c ≤ 160) && (s.grp (c - 129)).members.any s.isNear

/-- A descriptor of a mirrored class (R550). -/
def mirroredClass (op : BitVec 8) : Bool :=
  decide (op.toNat / 16 < 5) && op != 0x08 && op != 0x09

/-- A descriptor that the active mirrors (R550). -/
def State.mirrored (s : State) (op : BitVec 8) (d : Desc) : Bool :=
  let c := bitsOf d.target 7 0
  let k := bitsOf d.aux 7 0
  mirroredClass op && !(match (opRow op).map OpRow.tgt with
    | some .ctx | some .axis | some .group => s.isNear c || s.nearGroup c
    | _ => false) &&
    !((op == 0x30 || op == 0x31) && (s.ev k).armed && s.isNear (s.ev k).owner)

/-- The bytes of a descriptor in host-memory order (R621). -/
def descBytes (op : BitVec 8) (d : Desc) : List Nat :=
  [op.toNat, d.flags.toNat] ++ leBytes 2 d.tag.toNat ++ leBytes 4 d.target.toNat ++
    leBytes 4 d.execAt.toNat ++ leBytes 4 d.aux.toNat ++ leBytes 48 d.payload.toNat

/-- The CRC-16 of a guard descriptor (R599): channel A's on SQ62, channel B's on SQ63. -/
def guardCrc (b : Bool) (bs : List Nat) : BitVec 16 :=
  if b then crcMsb 0x8BB7 0 bs else crcMsb 0x1021 0xFFFF bs

/-- What refuses a descriptor at its hinge point whatever its operation (R552, R599, R745). -/
def State.gate (s : State) (op : BitVec 8) (d : Desc) : Option (BitVec 16) :=
  let cls := op.toNat / 16
  let q := d.sq.toNat
  if s.boot.st = BootSt.recovery && op ≠ 0 && !(0xF0 ≤ op.toNat && op.toNat ≤ 0xF3) then some 0x0108
  else if (cls = 8 && q ≠ 62) || (cls = 9 && q ≠ 63) then some 0x0820
  else if (s.gA.en || s.gB.en) && ((q = 62 && cls ≠ 8) || (q = 63 && cls ≠ 9)) then some 0x0820
  else if s.twin.st = .standby && mirroredClass op then some 0x0710
  else if (cls = 8 || cls = 9) &&
      guardCrc (cls == 9) ((descBytes op d).take 62) ≠ BitVec.ofNat 16 (d.le 62 2) then some 0x0821
  else none

/-- The refusal of a gated descriptor is counted where a counter says so (R602). -/
def State.countGate (s : State) (op : BitVec 8) (st : BitVec 16) : State :=
  if st = 0x0821 then s.bump (if op.toNat / 16 = 8 then GUARD_A_DESC_CRC else GUARD_B_DESC_CRC)
  else s

/-- A segment that is not followed on its SQ by the GRP_POS it needs ends (R362). -/
def State.breakSeg (s : State) (op : BitVec 8) (d : Desc) (g : Nat) : State :=
  match (s.grp g).open_ with
  | some o =>
    if o.sq = d.sq && !(op == 0x2E && bitsOf d.target 7 0 == 129 + g) then
      (o.seg.cmd :: o.cmds).foldl (fun (s : State) m => s.reply (129 + g) m 0x0330)
        (s.setGrp g { s.grp g with open_ := none })
    else s
  | none => s
def State.breakSegs (s : State) (op : BitVec 8) (d : Desc) : State :=
  (List.range 32).foldl (fun s g => s.breakSeg op d g) s

/-- A descriptor at its hinge point: refused, or applied. -/
def State.atHinge (s : State) (op : BitVec 8) (d : Desc) (c : Option Cmd)
    (apply : Desc → Option Cmd → State → State) : State :=
  let s := s.breakSegs op d
  match s.gate op d with
  | some st => (s.countGate op st).complete c st
  | none => apply d c s

/-- What a descriptor row does: it is fetched, checked, and applied, as at its hinge point. No
descriptor is fetched while CORE is held in reset. -/
def State.runDesc (s : State) (op : BitVec 8) (d : Desc)
    (apply : Desc → Option Cmd → State → State) : State :=
  if !s.isOn 1 then s
  else
    let (c, s) := s.fetchCmd op d
    match fetchCheck op d with
    | some st => s.complete (some c) st
    | none => s.atHinge op d (some c) apply

end Sys2Proof.Machine
end

