-- ==== Sys2Proof/Machine/Time.lean ====
section
/-! DEFINITION. Backbone time and plant time: the servo, steps, slews and the plant port (R505 to
R535). -/

namespace Sys2Proof.Machine

/-- An axis is enabled (R332). -/
def State.anyAxis (s : State) : Bool := axisCtxs.any (fun c => (s.ax c).enabled)

/-- An integer as the eight little-endian bytes of its two's complement. -/
def i64Bytes (v : Int) : List Nat := leBytes 8 (BitVec.ofInt 64 v).toNat

/-- A number limited to `[-l, l]`. -/
def clampI (l v : Int) : Int := max (-l) (min l v)

/-! ## Sources (R511, R514, R556) -/

/-- The servo takes its measurements from the partner's heartbeats (R556). -/
def State.twinServo (s : State) : Bool := s.twin.st == .joining || s.twin.st == .standby

/-- SRC of TIME_CTL. -/
def State.timeSrc (s : State) : Nat := s.rf TIME_CTL 0 2 1

/-- The servo has an enabled source. -/
def State.srcOn (s : State) : Bool :=
  s.twinServo || (s.timeSrc == 1 && bitOf (s.rg TIME_CTL) 0) ||
    (s.timeSrc == 2 && s.twin.st != .off)

/-- What the servo's state makes of its source coming or going (R514). -/
def State.checkSrc (s : State) : State :=
  if s.srcOn && s.tm.servo == .free then
    { s with tm.servo := .acquire, tm.run := 0, tm.theta := none, tm.refusedTheta := none }
  else if !s.srcOn && s.tm.servo != .free then { s with tm.servo := .free, tm.theta := none }
  else s

/-! ## Steps (R517 to R520) -/

/-- A slew ends where it stands (R517). -/
def State.endSlew (s : State) : State :=
  if s.tm.slewing then
    let s := s.complete s.tm.slewCmd 0x0612
    s.withRate { s.tm with slewing := false, slewLeft := 0, slewRate := 0, slewCmd := none }
  else s

/-- The first multiple of PERIOD that lies at least 100 µs after now (R14, R519). -/
def State.firstT0 (s : State) : W64 :=
  let p := max 1 (s.rf DISP_CYC_PERIOD 0 19 0)
  BitVec.ofNat 64 ((s.bt.toNat + 100000 + p - 1) / p * p)

/-- BT jumps (R518): the PWM counters run on CLK_CORE, so their zeros move with it. -/
def State.jump (s : State) (amount : Int) : State :=
  let s := { s with bt := s.bt + BitVec.ofInt 64 amount, tm.step := none, tm.stepFlag := true,
                    tm.servo := .acquire, tm.i := 0, tm.run := 0, tm.refusedTheta := none }
  let s := (List.range 8).foldl (fun s m =>
    let x := s.pwm m
    s.setPwm m { x with zero := x.zero + amount, prevZero := x.prevZero + amount,
                        lastSync := x.lastSync + amount }) s
  let s := if s.cyc.running then { s with cyc.nextT0 := s.firstT0 } else s
  (s.bump TIME_STEPS).post 0x0604 .info 0 (payOf (leBytes 8 s.bt.toNat))

/-- A step is due: at once while cycles are stopped, else at the start of the sill (R518). -/
def State.askStep (s : State) (amount : Int) : State :=
  if s.cyc.running then { s with tm.step := some amount } else s.jump amount

/-- TIME_STEP_APPLY (R518): the pending step jumps BT. -/
def State.timeStepApply (s : State) : State :=
  match s.tm.step with
  | none => s
  | some a => (if s.cyc.running && s.cyc.phase != .sill then s else s.jump a)

/-- TIME_STEP_APPLY. -/
def execTimeStepApply (s : State) : Host.Outcome State Fault Refusal :=
  .next (s.timeStepApply)

/-! ## The servo (R512 to R514) -/

/-- The states that an accepted measurement leads to (R514). -/
def State.accepted (s : State) (eff : Int) : State :=
  let near := decide (eff.natAbs < s.rf TIME_LOCK 0 15 0)
  match s.tm.servo with
  | .acquire =>
    let n := if near then s.tm.run + 1 else 0
    if s.rf TIME_LOCK 0 23 16 ≤ n then
      { s with tm.run := 0, tm.servo := .locked }.post 0x0602 .info 0
    else { s with tm.run := n }
  | .holdover => { s with tm.servo := .acquire, tm.run := 0 }
  | .refused => if s.tm.changed then { s with tm.servo := .acquire, tm.run := 0 } else s
  | .locked => s
  | .free => s

/-- An accepted measurement (R512). -/
def State.servoAccept (s : State) (eff : Int) : State :=
  let t := s.tm
  let lim : Int := s.rf TIME_FLIM 0 17 0 * 256
  let kp : Int := s.rf TIME_SERVO 0 15 0
  let ki : Int := s.rf TIME_SERVO 0 31 16
  (s.withRate { t with out := clampI lim (-(kp * eff + t.i)), i := clampI lim (t.i + ki * eff),
                       lastAcc := s.bt, refusedTheta := none }).accepted eff

/-- A refused measurement (R513). -/
def State.servoRefuse (s : State) (eff : Int) : State :=
  let s := s.bump TIME_REFUSED
  let lim : Int := s.rf TIME_JUMP 0 23 0
  let again := match s.tm.refusedTheta with
    | some p => decide (((eff - p).natAbs : Int) ≤ lim)
    | none => false
  if bitOf (s.rg TIME_CTL) 6 && !s.anyAxis && again then
    { s with tm.i := 0, tm.refusedTheta := none }.askStep (-eff)
  else
    { s with tm.servo := .refused, tm.refusedTheta := some eff, tm.changed := false }.post 0x0601
      .warn 0 (payOf (i64Bytes eff))

/-- One offset measurement (R511 to R513); θ in whole ns. -/
def State.measure (s : State) (theta : Int) : State :=
  let eff := theta + s.tm.slewLeft.floor
  let s := { s with tm.theta := some eff }
  if (eff.natAbs : Int) ≤ s.rf TIME_JUMP 0 23 0 then s.servoAccept eff else s.servoRefuse eff

/-- The servo goes into HOLDOVER. -/
def State.intoHoldover (s : State) : State := { s with tm.servo := .holdover }

/-- HOLDOVER_TIMEOUT (R514). -/
def State.holdoverTimeout (s : State) : State :=
  if s.tm.servo = .locked then
    let t := s.tm.lastAcc + BitVec.ofNat 64 (s.rf TIME_LOCK 0 31 24 * 1000000000)
    (s.upTo t).intoHoldover.post 0x0603 .warn 0
  else s

/-- HOLDOVER_TIMEOUT. -/
def execHoldoverTimeout (s : State) : Host.Outcome State Fault Refusal :=
  .next (s.holdoverTimeout)

/-! ## The plant port (R528 to R531) -/

/-- A change of master (R530). -/
def State.newMaster (s : State) (gm : W64) : State :=
  if gm = s.tm.gm then s
  else
    let s := { s with tm.gm := gm, tm.changed := true, tm.ptpSync := none, tm.ptpReq := none }
    let s := if s.tm.servo = .free then s else { s with tm.servo := .acquire, tm.run := 0 }
    s.post 0x0606 .info 0 (payOf (leBytes 8 gm.toNat))

/-- A PTP timestamp in 2^-16 ns. -/
def ptpNs (t : BitVec 80) : Int := (bitsOf t 79 32 * 1000000000 + bitsOf t 31 0 : Nat) * 65536

/-- The timestamp of a stamp in 2^-16 ns. -/
def ptpTime (v : Int) : BitVec 80 :=
  let n := (v / 65536).toNat
  BitVec.ofNat 48 (n / 1000000000) ++ BitVec.ofNat 32 (n % 1000000000)

/-- The stamp of an event message that crosses the MDI now, in 2^-16 ns: BT to within 8 ns (R524). -/
def State.ptpStamp (s : State) : Int × State :=
  let (k, s) := s.draw
  ((s.bt.toNat * 65536 + s.frac.toNat / 65536 : Nat) + clampI (8 * 65536) (Config.ptpErr k), s)

/-- The offset of a Sync (R511, R529): its arrival less its departure, its correction, delayAsymmetry and
the mean path delay, in whole ns. -/
def State.syncOffset (s : State) (took : Int) : Int :=
  (took - (s.rg TIME_ASYM).toInt * 256 - s.tm.mpd.toInt * 256) / 65536

/-- A Sync has been timed, from its departure to its arrival. -/
def State.syncTimed (s : State) (took : Int) : State :=
  let s := { s with tm.ptpMs := took, tm.ptpSync := none }
  if s.timeSrc = 1 && !s.twinServo then s.measure (s.syncOffset took) else s

/-- A new mean path delay, from twice its value in 2^-16 ns. -/
def State.newMpd (s : State) (twice : Int) : State :=
  { s with tm.mpd := BitVec.ofInt 32 (twice / 512), tm.ptpReq := none, tm.ptpResp := none }

/-- PROFILE of TIME_CTL. -/
def State.ptpProfile (s : State) : Nat := s.rf TIME_CTL 0 4 3

/-- The interval between delay requests, ns (TIME_MSG). -/
def State.askInterval (s : State) : Nat :=
  let k := (BitVec.ofNat 8 (s.rf TIME_MSG 0 7 0)).toInt
  if 0 ≤ k then 1000000000 * 2 ^ k.toNat else 1000000000 / 2 ^ (-k).toNat

/-- A delay request leaves when its interval has passed (R528, R529): a Delay_Req, or a Pdelay_Req. -/
def State.askDelay (s : State) : State :=
  let due := match s.tm.ptpReqAt with
    | some t => decide (s.askInterval ≤ (s.bt - t).toNat)
    | none => true
  if !due then s
  else
    let q := s.tm.ptpSeq + 1
    let (t, s) := s.ptpStamp
    { s with tm.ptpSeq := q, tm.ptpReq := some (q, t), tm.ptpReqAt := some s.bt }.out
      (.ptp (if s.ptpProfile = 0 then 1 else 2) q 0)

/-- A Pdelay_Req is answered by a Pdelay_Resp with its arrival, and a follow-up with the departure of that
answer (R529). -/
def State.answerPdelay (s : State) (q : BitVec 16) : State :=
  let (a, s) := s.ptpStamp
  let s := s.out (.ptp 3 q (ptpTime a))
  let (b, s) := s.ptpStamp
  s.out (.ptp 10 q (ptpTime b))

/-- A usable PTP message (R524, R529, R530). -/
def State.ptp (s : State) (m : PtpMsg) : State :=
  match m with
  | .announce gm cls utc leap best =>
    if best then { s.newMaster gm with tm.info := ⟨utc, leap, cls⟩ } else s
  | .sync q origin corr two =>
    let (t, s) := s.ptpStamp
    if two then { s with tm.ptpSync := some (q, t - corr.toInt) }
    else s.syncTimed (t - corr.toInt - ptpNs origin)
  | .followUp q origin corr => match s.tm.ptpSync with
    | some (p, t) => if p = q then s.syncTimed (t - corr.toInt - ptpNs origin) else s
    | none => s
  | .delayResp q recv corr => match s.tm.ptpReq with
    | some (p, t) => if p = q && s.ptpProfile = 0 then
        s.newMpd (s.tm.ptpMs + (ptpNs recv - t - corr.toInt)) else s
    | none => s
  | .pdelayReq q => if s.ptpProfile = 0 then s else s.answerPdelay q
  | .pdelayResp q recv corr two =>
    let (a, s) := s.ptpStamp
    match s.tm.ptpReq with
    | some (p, t) =>
      if p ≠ q || s.ptpProfile = 0 then s
      else if two then { s with tm.ptpResp := some (q, a - t - corr.toInt, ptpNs recv) }
      else s.newMpd (a - t - corr.toInt)
    | none => s
  | .pdelayFollow q origin corr => match s.tm.ptpResp with
    | some (p, took, recv) => if p = q then s.newMpd (took - corr.toInt - (ptpNs origin - recv)) else s
    | none => s
  | .other => s

/-- PTP_MESSAGE (R531). -/
def execPtpMessage (usable : Bool) (m : PtpMsg) (s : State) : Host.Outcome State Fault Refusal :=
  if !s.isOn 18 then .next s
  else
    if !bitOf (s.rg TIME_CTL) 0 then .next (s.bump TIME_PTP_EARLY)
    else if !usable then .next (s.bump TIME_PTP_BAD)
    else .next ((s.bump TIME_PTP_RX).ptp m).askDelay

/-! ## Slews and steps by descriptor (R516 to R520) -/

/-- TIME_SLEW at its hinge point (R516, R517). -/
def applyTimeSlew (d : Desc) (c : Option Cmd) (s : State) : State :=
  let rate := d.le 24 1
  let amount := d.les 16 8
  if rate < 1 || 100 < rate then s.complete c 0x0611
  else
    let s := s.endSlew
    if amount = 0 then { s with tm.changed := true }.complete c 0
    else
      s.withRate { s.tm with
        slewing := true, slewLeft := amount, changed := true, slewCmd := c,
        slewRate := if 0 < amount then (rate : Int) else -(rate : Int) }

/-- TIME_SLEW (R516). -/
def execTimeSlew (d : Desc) (s : State) : Host.Outcome State Fault Refusal :=
  .next (s.runDesc 0x08 d applyTimeSlew)

/-- SLEW_COMPLETE (R516): BT has gained AMOUNT. -/
def execSlewComplete (s : State) : Host.Outcome State Fault Refusal :=
  let t := s.tm
  if !t.slewing then .next s
  else
    let dt : Rat := t.slewLeft * 1000000 / t.slewRate * (1 + s.rateY)
    let s := s.upTo (s.bt + BitVec.ofNat 64 dt.ceil.toNat)
    .next ((s.withRate { s.tm with
      slewing := false, slewLeft := 0, slewRate := 0, slewCmd := none }).complete t.slewCmd 0)

/-- TIME_STEP at its hinge point (R517, R518, R520). -/
def applyTimeStep (d : Desc) (c : Option Cmd) (s : State) : State :=
  let use := bitOf d.aux 0
  let amount := if use then s.tm.theta.map (fun e => -e) else some (d.les 16 8)
  match amount with
  | none => s.complete c 0x0610
  | some a =>
    if s.anyAxis then s.complete c 0x0610
    else (s.endSlew.complete c 0).askStep a

/-- TIME_STEP (R518). -/
def execTimeStep (d : Desc) (s : State) : Host.Outcome State Fault Refusal :=
  .next (s.runDesc 0x09 d applyTimeStep)

/-! ## Stamps and broadcasts (R510, R527, R533) -/

/-- BT_WRAP (R510): at the wrap of BT32 that has come, or the next one. -/
def State.btWrap (s : State) : State :=
  if !s.isOn 1 then s
  else
    let hi : W32 := (s.bt >>> 32).setWidth 32
    let s := if hi ≠ s.tm.wrapHi then s
      else s.upTo (BitVec.ofNat 64 ((hi.toNat + 1) * 2 ^ 32))
    let hi : W32 := (s.bt >>> 32).setWidth 32
    ({ s with tm.wrapHi := hi }.post 0x0605 .info 0 (payOf (leBytes 4 hi.toNat)))

/-- BT_WRAP. -/
def execBtWrap (s : State) : Host.Outcome State Fault Refusal :=
  .next (s.btWrap)

/-- The payload of TIME_INFO (R527). -/
def State.timeInfo (s : State) : BitVec 192 :=
  let t := s.tm
  octets (beBytes 2 t.info.utc.toNat ++ [t.info.leap.toNat, t.servo.code] ++ beBytes 8 t.gm.toNat ++
    [t.info.cls.toNat])

/-- TIME_INFO_BROADCAST (R527): when its content has changed, else a second after the last one. -/
def State.timeInfoBroadcast (s : State) : State :=
  if !s.isOn 1 then s
  else
    let s := if s.tm.infoSent = some s.timeInfo then s.upTo (s.tm.infoAt + 1000000000) else s
    let p := s.timeInfo
    let (q, s) := s.nextSeq
    let c : Cell := { typ := 0xA8, node := 255, seq := q, sub := 0x18, payload := p }
    let s := (List.range 4).foldl (fun s d =>
      if s.dirActive d then s.pushAcyc d { cls := 0, cell := c } else s) s
    { s with tm.infoAt := s.bt, tm.infoSent := some p }

/-- TIME_INFO_BROADCAST. -/
def execTimeInfoBroadcast (s : State) : Host.Outcome State Fault Refusal :=
  .next (s.timeInfoBroadcast)

/-- TIME_BT_LO_READ (R533): the read returns BT [31:0] and latches [63:32]. -/
def execTimeBtLoRead (s : State) : Host.Outcome State Fault Refusal :=
  if !s.isOn 1 then .next s
  else
    .next ({ s with tm.btHi := (s.bt >>> 32).setWidth 32 }.out (.bar0 s.bt32))

end Sys2Proof.Machine
end

