-- ==== Sys2Proof/Machine/Params.lean ====
section
/-! DEFINITION. Drawer parameters: which words the host writes, their ranges, and the parameter
descriptors (R196, R199, R200, R210, R217, R222, R232, R326, R385, R640, R641). -/

namespace Sys2Proof.Machine

/-! ## Words written by the host (R196, R222, R641) -/

/-- A word of a library axis drawer that the host writes. -/
def libHostWord (prof w : Nat) : Bool :=
  let notches := if prof = 1 then 2 else if prof = 2 then 3 else 0
  (0x080 ≤ w && w < 0x100) || (0x180 ≤ w && w < 0x1A0) || (0x200 ≤ w && w < 0x210) ||
    (0x300 ≤ w && w < 0x31A) ||
    (0x100 ≤ w && w < 0x100 + 16 * notches && w % 16 < 9) ||
    (prof == 2 && ((0x130 ≤ w && w < 0x134) || (0x140 ≤ w && w < 0x144)))

/-- A drawer word that PARAM_WRITE may change, by the profile. -/
def hostWord (prof w : Nat) : Bool :=
  if prof ≤ 2 then libHostWord prof w
  else if prof = 3 || prof = 6 then decide (w < 0x3E0)
  else false

/-! ## Ranges (R200, R210, R217, R222, R232, R326, R385) -/

/-- A drawer as it would stand after a descriptor. -/
structure NewDrw where
  state : State
  ctx : Nat
  word : Nat
  vals : List W24

/-- A word of it. -/
def NewDrw.g (a : NewDrw) (w : Nat) : W24 :=
  let new (w : Nat) : Bool := decide (a.word ≤ w) && decide (w < a.word + a.vals.length)
  -- a write of ADAPT_F0 gives N3 its F (R223)
  let w := if w = 0x131 && new 0x143 && a.state.prof a.ctx = 2 then 0x143 else w
  if new w then a.vals.getD (w - a.word) 0
  else a.state.drawer a.ctx w

/-- A number of it: unsigned, a 48-bit integer, and Q48.16. -/
def NewDrw.n (a : NewDrw) (w : Nat) : Nat := (a.g w).toNat
def NewDrw.n48 (a : NewDrw) (w : Nat) : Nat := a.n w + a.n (w + 1) * 2 ^ 24
def NewDrw.q (a : NewDrw) (w : Nat) : Int :=
  ((a.g (w + 2)).setWidth 16 ++ a.g (w + 1) ++ a.g w : W64).toInt

/-- A word lies between two numbers. -/
def NewDrw.within (a : NewDrw) (w lo hi : Nat) : Bool := decide (lo ≤ a.n w) && decide (a.n w ≤ hi)

/-- A Q1.23 word in 0 to 1. -/
def NewDrw.q01 (a : NewDrw) (w : Nat) : Bool := decide (0 ≤ (a.g w).toInt)

/-- An SG word in 0 to 65,535. -/
def NewDrw.sg (a : NewDrw) (w : Nat) : Bool := decide (sgVal (a.g w) ≤ 65535)

/-- A frequency in Hz from `lo` to the fraction `num / 100` of the axis rate R (R201). -/
def NewDrw.hz (a : NewDrw) (w lo num : Nat) : Bool :=
  decide (lo ≤ a.n w) && decide (a.n w * 100 * a.state.tsNs a.ctx ≤ num * 1000000000)

/-- The parameter words in Q1.23 from 0 to 1. -/
def q01Words : List Nat :=
  [0x087, 0x088, 0x089, 0x08E, 0x08F, 0x090, 0x091, 0x093, 0x094, 0x098, 0x09C, 0x0A6, 0x0A9,
   0x0AA, 0x0AC, 0x0B0, 0x180, 0x187, 0x190, 0x191, 0x192, 0x193, 0x194, 0x195, 0x196, 0x197,
   0x30E]

/-- The parameter words in SG. -/
def sgWords : List Nat :=
  [0x085, 0x086, 0x08A, 0x08B, 0x08C, 0x08D, 0x092, 0x0A2, 0x0A3, 0x0A4, 0x0A5]

/-- Integer parameter words with fixed bounds: word, least and greatest value. -/
def intWords : List (Nat × Nat × Nat) :=
  [(0x096, 1, 0x7FFFFF), (0x097, 1, 255), (0x099, 0, 65535), (0x09B, 1, 10000), (0x09D, 0, 1000),
   (0x0A0, 1, 64), (0x0AB, 1, 15), (0x0AD, 1, 255), (0x0AE, 0, 0x155555), (0x0AF, 0, 65535),
   (0x0B1, 1, 255), (0x142, 1, 10000), (0x181, 1, 255), (0x183, 16, 1024), (0x184, 1, 15),
   (0x185, 1, 255), (0x186, 1, 255), (0x20F, 1, 65536), (0x30F, 1, 1000), (0x310, 0, 0x7FFFFF)]

/-- The first words of Q48.16 parameters that must be above 0. -/
def posWords : List Nat :=
  [0x200, 0x203, 0x206, 0x209, 0x20C, 0x301, 0x304, 0x307, 0x311]

/-- Bounds that lie in another word. -/
def NewDrw.bound (a : NewDrw) (w : Nat) : Bool :=
  match w with
  | 0x200 => decide (a.q 0x200 ≤ (a.n48 0x081 : Int) * 65536)
  | 0x301 => decide (a.q 0x301 ≤ a.q 0x200)
  | 0x304 => decide (a.q 0x304 ≤ a.q 0x301)
  | 0x307 => decide (a.q 0x307 ≤ a.q 0x203)
  | 0x30D => decide (a.n 0x30D ≤ a.n 0x091)
  | 0x08F => !bitOf (a.g 0x080) 3 || decide (a.n 0x08E < a.n 0x08F)
  | 0x314 => !bitOf (a.g 0x300) 4 || decide (a.q 0x317 < a.q 0x314)
  | 0x140 => decide (a.n 0x140 ≤ a.n 0x141)
  | 0x143 => decide (a.n 0x140 ≤ a.n 0x143) && decide (a.n 0x143 ≤ a.n 0x141)
  | 0x102 => decide (a.n 0x102 ≤ a.n 0x101)
  | 0x112 => decide (a.n 0x112 ≤ a.n 0x111)
  | 0x122 => decide (a.n 0x122 ≤ a.n 0x121)
  | 0x132 => decide (a.n 0x132 ≤ a.n 0x131)
  | _ => true

/-- The word that bounds of other words depend on, and the words so bounded. -/
def boundOf (w : Nat) : List Nat :=
  if w = 0x081 || w = 0x082 then [0x200]
  else if 0x200 ≤ w && w ≤ 0x202 then [0x301]
  else if 0x203 ≤ w && w ≤ 0x205 then [0x307]
  else if 0x301 ≤ w && w ≤ 0x303 then [0x304]
  else if w = 0x091 then [0x30D]
  else if w = 0x080 || w = 0x08E then [0x08F]
  else if w = 0x300 || (0x314 ≤ w && w ≤ 0x319) then [0x314]
  else if w = 0x140 || w = 0x141 then [0x140, 0x143]
  else if w = 0x143 then [0x132]
  else if 0x100 ≤ w && w < 0x140 && w % 16 = 1 then [w + 1]
  else []

/-- The first word of the parameter that a word belongs to. -/
def paramOf (w : Nat) : Nat :=
  if w = 0x082 || w = 0x084 then w - 1
  else if 0x200 ≤ w && w ≤ 0x20E then w - (w - 0x200) % 3
  else if 0x301 ≤ w && w ≤ 0x30C then w - (w - 0x301) % 3
  else if 0x311 ≤ w && w ≤ 0x319 then w - (w - 0x311) % 3
  else w

/-- The parameter that starts at a word is in its range. -/
def NewDrw.inRange (a : NewDrw) (w : Nat) : Bool :=
  let prof := a.state.prof a.ctx
  let own : Bool :=
    if w ∈ q01Words then a.q01 w
    else if w ∈ sgWords then a.sg w
    else if w ∈ posWords then decide (0 < a.q w)
    else match intWords.find? (fun t => t.1 == w) with
      | some (_, lo, hi) => a.within w lo hi
      | none => match w with
        | 0x080 => if prof = 2 then bitsOf (a.g 0x080) 1 0 == 2 else decide (bitsOf (a.g 0x080) 1 0 ≤ 1)
        | 0x081 => decide (1 ≤ a.n48 0x081) && decide (a.n48 0x081 < 2 ^ 47)
        | 0x083 => decide (2 ≤ a.n48 0x083) && decide (a.n48 0x083 < 2 ^ 47)
        | 0x095 => a.n 0x095 == 0 || a.hz 0x095 10 45
        | 0x09A => a.hz 0x09A 50 20
        | 0x0A7 => decide (0x400000 ≤ (a.g 0x0A7).toInt)
        | 0x0A8 => decide ((a.g 0x0A8).toInt ≤ 0)
        | 0x140 => decide (10 ≤ a.n 0x140)
        | 0x141 => decide (a.n 0x140 ≤ a.n 0x141) && a.hz 0x141 0 45
        | 0x182 => bitsOf (a.g 0x182) 1 0 != 3
        | 0x30D => decide (0 < (a.g 0x30D).toInt)
        | _ =>
          if 0x100 ≤ w && w < 0x140 then
            (match w % 16 with
             | 0 => w != 0x130 || !bitOf (a.g w) 1
             | 1 => a.hz w 10 45
             | 2 => decide (1 ≤ a.n w)
             | 3 => a.q01 w
             | _ => true)
          else if 0x188 ≤ w && w < 0x190 then a.hz w 10 45
          else true
  own && a.bound w

/-- The words that a descriptor would leave out of range, lowest first (R200). -/
def NewDrw.bad (a : NewDrw) : List Nat :=
  let ws := (List.range a.vals.length).map (a.word + ·)
  let own := ws.filter (fun w => !a.inRange (paramOf w))
  let cross := (ws.flatMap boundOf).filter (fun w => !a.bound w)
  sortBy id (own ++ cross)

/-- The bits of a word that are not reserved (R2). -/
def wordMask (w : Nat) : W24 :=
  if w = 0x080 then 0xFF else if w = 0x182 then 0xFFF3 else if w = 0x300 then 0x1F
  else if 0x100 ≤ w && w < 0x140 && w % 16 = 0 then 3 else 0xFFFFFF

/-! ## The parameter descriptors (R640, R641) -/

/-- The payload that names a word. -/
def wordPay (w : Nat) : Payload := payOf (leBytes 2 w)

/-- A standby notes the words that a mirrored descriptor has written (R554). -/
def State.noteWritten (s : State) (c : Nat) (ws : List Nat) : State :=
  if s.twin.st = .standby then
    { s with twin.written := s.twin.written ++
      (ws.map (c * 1024 + ·)).filter (fun k => decide (k ∉ s.twin.written)) }
  else s

/-- PARAM_WRITE at its hinge point (R199, R200, R641). A write of ADAPT_F0 moves N3 (R223). -/
def applyParamWrite (d : Desc) (cmd : Option Cmd) (s : State) : State :=
  let c := bitsOf d.target 7 0
  let w := bitsOf d.aux 9 0
  let n := bitsOf d.aux 14 10
  let prof := s.prof c
  if n = 0 || 16 < n then s.complete cmd 0x0104 (wordPay w)
  else if 0x400 < w + n then s.complete cmd 0x0105 (wordPay 0x400)
  else
    let ws := (List.range n).map (w + ·)
    match ws.find? (fun x => !hostWord prof x) with
    | some x => s.complete cmd 0x0105 (wordPay x)
    | none =>
      let vals := (List.range n).map (fun i => BitVec.ofNat 24 (d.le (16 + 3 * i) 3))
      let bad := if prof ≤ 2 then (NewDrw.mk s c w vals).bad else []
      match bad with
      | x :: _ => s.complete cmd 0x0104 (wordPay x)
      | [] =>
        let s := (ws.zip vals).foldl (fun s p =>
          let v := if prof ≤ 2 then p.2 &&& wordMask p.1 else p.2
          let s := s.setDrawer c p.1 v
          if prof = 2 && p.1 = 0x143 then s.setDrawer c 0x131 v else s) s
        (s.noteWritten c (if prof = 2 && decide (0x143 ∈ ws) then ws ++ [0x131] else ws)).complete cmd 0

/-- PARAM_WRITE. -/
def execParamWrite (d : Desc) (s : State) : Host.Outcome State Fault Refusal :=
  .next (s.runDesc 0x40 d applyParamWrite)

/-- PARAM_READ at its hinge point (R640, R641). -/
def applyParamRead (d : Desc) (cmd : Option Cmd) (s : State) : State :=
  let c := bitsOf d.target 7 0
  let w := bitsOf d.aux 9 0
  let n := bitsOf d.aux 14 10
  if n = 0 || 5 < n then s.complete cmd 0x0104 (wordPay w)
  else if 0x400 < w + n then s.complete cmd 0x0105 (wordPay 0x400)
  else s.complete cmd 0
    (payOf ((List.range n).flatMap (fun i => leBytes 3 (s.drawerSeen c (w + i)).toNat)))

/-- PARAM_READ. -/
def execParamRead (d : Desc) (s : State) : Host.Outcome State Fault Refusal :=
  .next (s.runDesc 0x41 d applyParamRead)

end Sys2Proof.Machine
end

