-- ==== Sys2Proof/Machine/Twin.lean ====
section
/-! DEFINITION. Twin operation: claims, heartbeats, mirroring, copies, digests and the twin states
(R537 to R565). -/

namespace Sys2Proof.Machine

/-! ## Shared operations -/

/-- A twinned context (R544). -/
def State.twinned (s : State) (c : Nat) : Bool :=
  s.ctxEn c && !s.isNear c && !s.nearGroup c && !(decide (161 ≤ c) && decide (c ≤ 168))

/-- The contexts. -/
def allCtxs : List Nat := (List.range 255).map (· + 1)

/-- An active value that CFG_DIGEST covers (R548): a staged register of the DISP, PRF, LNK and RING
blocks that is not a near-axis context's. -/
def State.inDigest (s : State) (key : Nat) : Bool :=
  let a := key / 0x100000
  let n := key % 0x100000
  let blk := match blockOf a with
    | some b => b.val ∈ [4, 9, 10, 11]
    | none => false
  blk && match findReg a with
    | some r => r.acc == .st && !((r.sel == .one 0x10100 || r.sel == .one 0x28200 ||
        (decide (0x10110 ≤ a) && decide (a < 0x10200))) && s.isNear n)
    | none => false

/-- Own CFG_DIGEST (R548). -/
def State.cfgDigest (s : State) : W32 :=
  Config.cfgDigest (s.regs.filter (fun p => s.inDigest p.1)) s.fw.im

/-- A cell leaves on the twin port with the unit's claim (R543, R564). -/
def State.sendTwin (s : State) (c : Cell) : State :=
  if !s.portOn 4 || s.silent then s
  else (s.bump LNK_TX_CELLS 4).out (.twin (Cell.sealed { c with claim := s.twin.claim }))

/-- The unit enters a twin state (R559), and its servo takes the source of that state (R556). -/
def State.enterTwin (s : State) (t : TwinSt) (cause : Nat) : State :=
  { s with twin.st := t, twin.cause := cause }.checkSrc

/-- The unit enters JOINING (R559). -/
def State.enterJoining (s : State) : State :=
  { s with twin.joinAt := s.bt, twin.otherSeen := false, twin.synced := [], twin.copied := [],
           twin.queue := [], twin.part := none, twin.mism := [], twin.written := [],
           twin.misses := 0, twin.switch := none }.enterTwin .joining 0

/-- The standby becomes DIVERGED (R553, R558). -/
def State.diverge (s : State) (cause ctx : Nat) : State :=
  ({ s with twin.queue := [], twin.part := none }.enterTwin .diverged cause).post 0x0703 .severe ctx
    (payOf [cause])

/-- The active mirrors descriptors to its partner (R549, R559). -/
def State.mirrorOn (s : State) : Bool :=
  s.twin.st == .active && s.twin.partnerOk && s.twin.partnerSt == 2

/-- HINGE_LEAD in ns. -/
def State.hingeLead (s : State) : Nat := s.rf DISP_CYC_HINGE 0 13 0

/-- MIRROR_LEAD in ns. -/
def State.mirrorLead (s : State) : Nat := s.rf TWIN_CTL 0 23 16 * 100

/-- The hinge point that a mirrored descriptor is given (R549). -/
def State.mirrorSeq (s : State) (d : Desc) : BitVec 16 :=
  let ns := s.mirrorLead + s.hingeLead
  let at_ := if descExec d = 1 && bt32After d.execAt s.bt32 then (d.execAt - s.bt32).toNat else 0
  s.applySeq (max ns at_)

/-- The payload octets of a TW_DESC part (R564). -/
def twDescPart (k : Nat) (d : Desc) (op : BitVec 8) (seq : BitVec 16) : List Nat :=
  let bs := descBytes op d
  if k = 0 then [d.sq.toNat] ++ beBytes 2 seq.toNat ++ [0, 0, 0, 0, 0] ++ bs.take 16
  else if k = 1 then (bs.drop 16).take 24
  else bs.drop 40

/-- A fetched descriptor is sent to the standby (R549). -/
def State.mirrorOut (s : State) (op : BitVec 8) (d : Desc) (seq : BitVec 16) : State :=
  let m := s.twin.mseq + 1
  let s := { s with twin.mseq := m }.bump TWIN_MIRRORED
  [0, 1, 2].foldl (fun s k =>
    let c : Cell := { typ := 0xB1, seq := m, sub := BitVec.ofNat 8 k,
                      payload := octets (twDescPart k d op seq) }
    s.sendTwin c) s

/-! ## Heartbeats (R556, R559, R564) -/

/-- The first and last node of a ring that the unit reaches (R564). -/
def State.reachOf (s : State) (r : Nat) : Nat × Nat :=
  let x := s.ring r
  match x.st with
  | .closed => (1, x.nodes)
  | .twoEnded => if s.tail then (x.min, x.nodes) else (1, x.max)
  | _ => (1, 0)

/-- TW_HEART (R564). -/
def State.heartCell (s : State) : Cell :=
  let t := s.twin
  let a := s.reachOf 0
  let b := s.reachOf 1
  { typ := 0xB0, seq := s.cyc16
    payload := octets (beBytes 4 s.bt32.toNat ++ beBytes 4 t.lastRx.toNat ++
      beBytes 4 s.cfgDigest.toNat ++ beBytes 2 t.mseq.toNat ++
      [t.st.code + b2n s.pwr.failed * 8, t.synced.length, a.1, a.2, b.1, b.2]) }

/-- The heartbeat of a T0 leaves. -/
def State.sendHeart (s : State) : State :=
  if s.twin.st = .off then s
  else { s.sendTwin s.heartCell with twin.prevTx := s.twin.lastTx, twin.lastTx := s.bt32 }

/-- Three 24-bit words of a 64-bit value (R128). -/
def words3 (v : W64) : List W24 :=
  [v.extractLsb' 0 24, v.extractLsb' 24 24, (v.extractLsb' 48 16).setWidth 24]

/-- A TW_COPY cell (R564). -/
def State.sendCopy (s : State) (kind n first : Nat) (ws : List W24) : State :=
  let c : Cell := { typ := 0xB4, seq := s.twin.copySeq, sub := BitVec.ofNat 8 kind,
                    payload := octets ([n, 0] ++ beBytes 2 first ++ [0, 0] ++
                      (ws.take 6).flatMap (fun w => beBytes 3 w.toNat)) }
  { s.sendTwin c with twin.copySeq := s.twin.copySeq + 1 }

/-- The host-written words of a context's drawer (R196, R554). -/
def State.copyWords (s : State) (c : Nat) : List Nat :=
  (List.range 0x3E0).filter (fun w => hostWord (s.prof c) w)

/-- The first words of the copy cells that carry a list of words. -/
def copyStarts : Nat → List Nat → List Nat
  | 0, _ => []
  | _, [] => []
  | n + 1, w :: ws => w :: copyStarts n (ws.filter (fun v => w + 6 ≤ v))

/-- The words of a cam table as copy words: point `i` at `3 i`, then N, X_LEN and CYCLIC from word
3072 on. -/
def Cam.copyWord (x : Cam) (w : Nat) : W24 :=
  if w < 3072 then (words3 (tget 0 x.pts (w / 3))).getD (w % 3) 0
  else if w = 3072 then BitVec.ofNat 24 x.n
  else if w < 3076 then (words3 x.xlen).getD (w - 3073) 0
  else BitVec.ofNat 24 (b2n x.cyclic)

/-- A position or velocity of a virtual master as Q32.32. -/
def vmWord (r : Rat) : W64 := BitVec.ofInt 64 (r * 2 ^ 32).floor

/-- The BT at which a virtual master's motion started. -/
def Ms.startBt (x : Ms) : W32 := x.live.tref - BitVec.ofInt 32 x.vmT

/-- The words of a virtual master source as copy words: VM_V, VM_A, the position and velocity from which
its motion started, then its start BT (R554). -/
def Ms.copyWord (x : Ms) (w : Nat) : W24 :=
  if w < 3 then (words3 x.vmV).getD w 0
  else if w < 6 then (words3 x.vmA).getD (w - 3) 0
  else if w < 9 then (words3 (vmWord x.vmStart.p)).getD (w - 6) 0
  else if w < 12 then (words3 (vmWord x.vmStart.v)).getD (w - 9) 0
  else if w = 12 then x.startBt.setWidth 24
  else (x.startBt >>> 24).setWidth 24

/-- The copy that the active sends when its partner enters STANDBY (R554). -/
def State.sendCopies (s : State) : State :=
  let s := (allCtxs.filter s.twinned).foldl (fun s c =>
    (copyStarts 1024 (s.copyWords c)).foldl (fun s w =>
      s.sendCopy 0 c w ((List.range 6).map (fun i => s.drawer c (w + i)))) s) s
  let s := s.cams.foldl (fun s p =>
    if p.2.ready then
      let ws := (copyStarts 1024 (List.range (3 * p.2.n))) ++ [3072]
      ws.foldl (fun s w => s.sendCopy 1 p.1 w ((List.range 6).map (fun i => p.2.copyWord (w + i)))) s
    else s) s
  s.mss.foldl (fun s p =>
    if s.rf PRF_MS_CFG p.1 3 0 = 1 then
      [0, 6, 12].foldl (fun s w =>
        s.sendCopy 2 p.1 w ((List.range 6).map (fun i => p.2.copyWord (w + i)))) s
    else s) s

/-- What a heartbeat makes of a joining unit (R559). -/
def State.joinBy (s : State) (m : BitVec 16) : State :=
  let t := s.twin
  if s.tm.servo ≠ .locked then s
  else if t.partner.toNat < t.claim.toNat then s.enterTwin .active 0
  else if t.partner = t.claim then
    if bitOf (s.rg TWIN_CTL) 1 then (s.enterTwin .refused 1).post 0x0704 .warn 0 (payOf [1])
    else s.enterTwin .active 0
  else if t.pcfg ≠ s.cfgDigest then (s.enterTwin .refused 2).post 0x0704 .warn 0 (payOf [2])
  else if t.partnerSt = 3 || t.partnerSt = 1 then
    ({ s with twin.mseq := m }.enterTwin .standby 0).post 0x0709 .info 0
  else s

/-- θ of R556. -/
def twinTheta (rxOwn txPartner rxPartner txOwn : W32) : Int :=
  ((rxOwn - txPartner).toInt - (rxPartner - txOwn).toInt) / 2

/-- TXS_own of R556: of the heartbeat whose arrival the partner reports. It is the latest one, unless the
sum of the two one-way times would then be negative: the partner's cell then left before that heartbeat
arrived, and reports the one before. -/
def State.reportedTx (s : State) (txPartner rxPartner : W32) : W32 :=
  if 0 ≤ ((s.bt32 - txPartner) + (rxPartner - s.twin.lastTx)).toInt then s.twin.lastTx else s.twin.prevTx

/-- A node table reaches the tail (R539): its ring takes it, served from the second port, and the tail
echoes every node counter-clockwise (R540). -/
def State.takeTable (s : State) (t : NodeTable) : State :=
  if !bitOf (s.rg TWIN_CTL) 1 then s
  else
    let r := t.ring.val
    let n := t.nodes.length
    let x : Ring := { s.ring r with
      st := if t.closed then .closed else .twoEnded, begun := true, nodes := n, foundClosed := true
      max := t.max.toNat, min := t.min.toNat, echo := none
      tbl := t.nodes.zipIdx.foldl (fun m p => tset {} m (p.2 + 1)
        { id := p.1.id, caps := p.1.caps, prep := p.1.prep, fwd := p.1.fwd, second := true }) []
      echoLeft := (List.range n).map (fun k => (k + 1, true)) }
    (s.setRing r x).nextEcho r .tail id

/-- TW_HEART_RECEIVE (R556, R559): the partner's heartbeat arrives on the twin port. -/
def State.twHeartReceive (s : State) (rx : RxCell) (tables : List NodeTable) : State :=
  let c := rx.cell
  let (s, _, ok) := s.checkRx 4 rx
  if !ok || c.typ ≠ 0xB0 || !s.portOn 4 || s.twin.st = .off then s
  else
    let was := s.twin.partnerSt
    let tx := BitVec.ofNat 32 (c.be 0 4)
    let rxs := BitVec.ofNat 32 (c.be 4 4)
    let th := twinTheta s.bt32 tx rxs (s.reportedTx tx rxs)
    let s := { s with
      twin.partner := c.claim, twin.partnerOk := true, twin.hbSeen := true, twin.misses := 0,
      twin.cellSeen := false, twin.heartAt := s.bt, twin.lastRx := s.bt32, twin.theta := th,
      twin.pcfg := BitVec.ofNat 32 (c.be 8 4), twin.partnerSt := BitVec.ofNat 3 (c.oct 14),
      twin.partnerPf := (c.oct 14).testBit 3, twin.pSynced := c.oct 15,
      twin.reach := BitVec.ofNat 32 (c.oct 16 + c.oct 17 * 256 + c.oct 18 * 65536 + c.oct 19 * 2 ^ 24) }
    let s := if s.twinServo || s.timeSrc = 2 then s.measure th else s
    let s := if s.twin.st = .joining then s.joinBy (BitVec.ofNat 16 (c.be 12 2)) else s
    let s := tables.foldl State.takeTable s
    (if s.mirrorOn && was ≠ 2 then s.sendCopies else s)

/-- TW_HEART_RECEIVE. -/
def execTwHeartReceive (h : TwinHeart) (s : State) : Host.Outcome State Fault Refusal :=
  .next (s.twHeartReceive h.rx h.tables)

/-- HEARTBEAT_MISS (R559): the heartbeat of this cycle has not arrived. -/
def State.heartbeatMiss (s : State) : State :=
  let t := s.twin
  if t.hbSeen || t.missDone || !t.partnerOk || !s.cyc.running ||
      !(t.st == .standby || t.st == .active) then s
  else
    let s := s.upTo (s.cyc.t0 + 2000)
    let s := { s with twin.misses := t.misses + 1, twin.missDone := true }.bump TWIN_HB_MISS
    if t.misses + 1 < s.rf TWIN_CTL 0 7 4 then s
    else if t.st = .active then
      ({ s with twin.partnerOk := false }.post 0x0702 .warn 0)
    else if t.cellSeen then
      (({ s with twin.partnerOk := false }.enterTwin .detached 7).post 0x0705 .severe 0)
    else if bitOf (s.rg TWIN_CTL) 12 then
      let claim := BitVec.ofNat 8 (min 255 (t.partner.toNat + 1))
      { s with twin.partnerOk := false, twin.switch := some (s.cyc16 + 1, true, claim, none) }
    else s

/-- HEARTBEAT_MISS. -/
def execHeartbeatMiss (s : State) : Host.Outcome State Fault Refusal :=
  .next (s.heartbeatMiss)

/-- TWIN_JOIN_TIMEOUT (R559). -/
def execTwinJoinTimeout (s : State) : Host.Outcome State Fault Refusal :=
  let t := s.twin
  if t.st ≠ .joining || t.otherSeen then .next s
  else
    let from_ := if t.joinAt < t.heartAt then t.heartAt else t.joinAt
    let s := s.upTo (from_ + BitVec.ofNat 64 (s.rf TWIN_CTL 0 31 24 * 1000000))
    .next ({ s with twin.partnerOk := false }.enterTwin .active 0)

/-! ## Mirrored descriptors (R551, R553) -/

/-- A mirrored descriptor is whole: it waits for its hinge point, unless it is late or one before it
is missing (R553). -/
def State.mirrorIn (s : State) (m : Mirror) : State :=
  let ahead := (m.applySeq - s.cyc16).toNat
  let late := ahead = 0 || decide (2 ^ 15 ≤ ahead) ||
    (ahead == 1 && s.cyc.running && decide (s.cyc.nextT0 < s.bt + BitVec.ofNat 64 s.hingeLead))
  if m.mseq ≠ s.twin.mseq + 1 then s.diverge 6 0
  else if late then s.diverge 5 0
  else { s with twin.mseq := m.mseq, twin.queue := s.twin.queue ++ [m] }

/-- A descriptor from its 64 bytes, byte 0 lowest (R621). -/
def descOf (sq : BitVec 6) (b : BitVec 512) : BitVec 8 × Desc :=
  (b.extractLsb' 0 8,
   { sq := sq, flags := b.extractLsb' 8 8, tag := b.extractLsb' 16 16, target := b.extractLsb' 32 32,
     execAt := b.extractLsb' 64 32, aux := b.extractLsb' 96 32, payload := b.extractLsb' 128 384 })

/-- The octets `[i, i + n)` of a cell, the first one lowest. -/
def Cell.low (c : Cell) (i n : Nat) : Nat := bitsOf c.payload (8 * (i + n) - 1) (8 * i)

/-- TW_DESC_RECEIVE (R553, R564). -/
def State.twDescReceive (s : State) (rx : RxCell) : State :=
  let c := rx.cell
  let (s, _, ok) := s.checkRx 4 rx
  if !ok || c.typ ≠ 0xB1 || !s.portOn 4 || s.twin.st ≠ .standby then s
  else if c.sub = 0 then
    { s with twin.part := some ⟨c.seq, BitVec.ofNat 6 (c.oct 0), BitVec.ofNat 16 (c.be 1 2),
      BitVec.ofNat 512 (Cell.low c 8 16), 1⟩ }
  else match s.twin.part with
    | none => (s.diverge 6 0)
    | some p =>
      if p.mseq ≠ c.seq || p.parts ≠ c.sub.toNat then (s.diverge 6 0)
      else
        let b := p.bytes ||| BitVec.ofNat 512 (Cell.low c 0 24 * 2 ^ (if c.sub = 1 then 128 else 320))
        if c.sub = 1 then { s with twin.part := some { p with bytes := b, parts := 2 } }
        else
          let (op, d) := descOf p.sq b
          ({ s with twin.part := none }.mirrorIn ⟨p.mseq, p.applySeq, op, d⟩)

/-- TW_DESC_RECEIVE. -/
def execTwDescReceive (rx : RxCell) (s : State) : Host.Outcome State Fault Refusal :=
  .next (s.twDescReceive rx)

/-! ## Digests (R557, R558) -/

/-- The digest of a DOWN cell (R557). -/
def digestOf (c : Cell) : W32 :=
  crc32c ([c.flags.toNat, c.sub.toNat] ++ (List.range 24).map c.oct ++ beBytes 2 c.ta.toNat)

/-- A synced context releases a DOWN cell: its digest of the cycle (R557). -/
def State.ownDigest (s : State) (ctx : Nat) (c : Cell) : State :=
  if (s.twin.st == .active || s.twin.st == .standby) && ctx ∈ s.twin.synced && c.typ = 0xA1 then
    { s with twin.own := tset none s.twin.own ctx (some (digestOf c)) }
  else s

/-- The TW_DIGEST cells of a cycle (R557): five consecutive contexts in each. -/
def State.sendDigests (s : State) : State :=
  (copyStarts 256 (tkeys s.twin.own)).foldl (fun s c =>
    let vs := (List.range 5).map (fun i => tget none s.twin.own (c + i))
    let valid := (List.range 5).foldl (fun v i => v + b2n (vs.getD i none).isSome * 2 ^ i) 0
    let cell : Cell := { typ := 0xB3, seq := s.cyc16, payload := octets ([c, valid, 0, 0] ++
      vs.flatMap (fun v => beBytes 4 (v.getD 0).toNat)) }
    s.sendTwin cell) s

/-- The two digests of a context are compared (R558). -/
def State.compareDigest (s : State) (ctx : Nat) (theirs : W32) : State :=
  match tget none s.twin.own ctx with
  | none => if ctx ∈ s.twin.synced then s.bump TWIN_DIG_SKIP else s
  | some own =>
    let s := { s with twin.own := terase s.twin.own ctx }
    if own = theirs then { s with twin.mism := terase s.twin.mism ctx }
    else
      let n := tget 0 s.twin.mism ctx + 1
      let s := { s with twin.mism := tset 0 s.twin.mism ctx n }.bump TWIN_DIG_MISM
      if n ≤ s.rf TWIN_CTL 0 11 8 then s
      else if s.twin.st = .standby then s.diverge 4 ctx
      else ({ s with twin.mism := terase s.twin.mism ctx }).post 0x0703 .severe ctx (payOf [4])

/-- TW_DIGEST_RECEIVE (R558). -/
def execTwDigestReceive (rx : RxCell) (s : State) : Host.Outcome State Fault Refusal :=
  let c := rx.cell
  let (s, _, ok) := s.checkRx 4 rx
  if !ok || c.typ ≠ 0xB3 || !s.portOn 4 || c.seq ≠ s.cyc16 ||
      !(s.twin.st == .active || s.twin.st == .standby) then .next s
  else
    .next ((List.range 5).foldl (fun s i =>
      if (c.oct 1).testBit i then s.compareDigest (c.oct 0 + i) (BitVec.ofNat 32 (c.be (4 + 4 * i) 4))
      else s) s)

/-! ## Copies (R554, R555) -/

/-- A copied drawer word (R554). -/
def State.copyDrawer (s : State) (ctx w : Nat) (v : W24) : State :=
  if ctx * 1024 + w ∈ s.twin.written || !hostWord (s.prof ctx) w then s else s.setDrawer ctx w v

/-- A 64-bit value with one of its three 24-bit words replaced. -/
def setWord3 (v : W64) (k : Nat) (x : W24) : W64 :=
  if k = 0 then v.extractLsb' 24 40 ++ x
  else if k = 1 then v.extractLsb' 48 16 ++ x ++ v.extractLsb' 0 24
  else x.extractLsb' 0 16 ++ v.extractLsb' 0 48

/-- A copied cam-table word. -/
def Cam.setCopy (x : Cam) (w : Nat) (v : W24) : Cam :=
  if w < 3072 then { x with pts := tset 0 x.pts (w / 3) (setWord3 (tget 0 x.pts (w / 3)) (w % 3) v) }
  else if w = 3072 then { x with n := v.toNat }
  else if w < 3076 then { x with xlen := setWord3 x.xlen (w - 3073) v }
  else if w = 3076 then { x with cyclic := bitOf v 0, ready := true }
  else x

/-- A copied word of a master source. -/
def Ms.setCopy (x : Ms) (w : Nat) (v : W24) : Ms :=
  let at3 (r : Rat) (k : Nat) : Rat := ((setWord3 (vmWord r) k v).toInt : Rat) / 2 ^ 32
  if w < 3 then { x with vmV := setWord3 x.vmV w v }
  else if w < 6 then { x with vmA := setWord3 x.vmA (w - 3) v }
  else if w < 9 then { x with vmStart.p := at3 x.vmStart.p (w - 6) }
  else if w < 12 then { x with vmStart.v := at3 x.vmStart.v (w - 9) }
  else if w = 12 then { x with live.tref := x.live.tref.extractLsb' 24 8 ++ v }
  else if w = 13 then { x with live.tref := v.extractLsb' 0 8 ++ x.live.tref.extractLsb' 0 24,
                               live.valid := true, vmT := 0 }
  else x

/-- TW_COPY_RECEIVE (R554, R555): `enabled` says whether the context is enabled on the active, which
the cell does not. -/
def State.twCopyReceive (s : State) (rx : RxCell) (enabled : Bool) : State :=
  let c := rx.cell
  let (s, _, ok) := s.checkRx 4 rx
  if !ok || c.typ ≠ 0xB4 || !s.portOn 4 || s.twin.st ≠ .standby then s
  else
    let n := c.oct 0
    let w := c.be 2 2
    let v (i : Nat) : W24 := BitVec.ofNat 24 (c.be (6 + 3 * i) 3)
    let six := List.range 6
    if c.sub = 0 then
      let s := six.foldl (fun s i => s.copyDrawer n (w + i) (v i)) s
      let last := ((s.copyWords n).getLast?).getD 0
      (if w ≤ last && last < w + 6 && !enabled && n ∉ s.twin.copied then
          { s with twin.copied := s.twin.copied ++ [n] }
        else s)
    else if c.sub = 1 then
      let x := six.foldl (fun (x : Cam) i => x.setCopy (w + i) (v i)) (tget {} s.cams n)
      { s with cams := tset {} s.cams n x }
    else if c.sub = 2 then
      let x := six.foldl (fun (x : Ms) i => x.setCopy (w + i) (v i)) (tget {} s.mss n)
      { s with mss := tset {} s.mss n x }
    else s

/-- TW_COPY_RECEIVE. -/
def execTwCopyReceive (rx : RxCell) (enabled : Bool) (s : State) : Host.Outcome State Fault Refusal :=
  .next (s.twCopyReceive rx enabled)

/-- The contexts synced at a hinge point (R555): those whose copy has completed, and the groups whose
members all are. -/
def State.syncCopied (s : State) : State :=
  if s.twin.st ≠ .standby then s
  else
    let cs := s.twin.copied.filter (fun c => s.twinned c && c ∉ s.twin.synced)
    let s := { s with twin.synced := s.twin.synced ++ cs, twin.copied := [] }
    let gs := ((List.range 32).map (129 + ·)).filter (fun g => s.twinned g &&
      g ∉ s.twin.synced && (s.grp (g - 129)).members.all (fun m => m ∈ s.twin.synced))
    { s with twin.synced := s.twin.synced ++ gs }

/-- A context runs on this unit so far as the twin is concerned (R555). -/
def State.twinRuns (s : State) (c : Nat) : Bool :=
  !(s.twin.st == .standby && s.twinned c) || c ∈ s.twin.synced

/-! ## Switching over (R543, R559, R560) -/

/-- TW_SWITCH_RECEIVE (R559). -/
def execTwSwitchReceive (rx : RxCell) (s : State) : Host.Outcome State Fault Refusal :=
  let c := rx.cell
  let (s, _, ok) := s.checkRx 4 rx
  if !ok || c.typ ≠ 0xB5 || !s.portOn 4 || s.twin.st ≠ .standby then .next s
  else
    let seq := BitVec.ofNat 16 (c.be 0 2)
    .next { s with twin.switch := some (seq, true, BitVec.ofNat 8 (c.oct 2), none) }

/-- The survivor of a lost partner takes the partner's position as the gap of a two-ended ring (R561). -/
def State.partnerGap (s : State) : State :=
  (List.range 2).foldl (fun s r =>
    let x := s.ring r
    if x.st = .closed then
      s.setRing r { x with st := .twoEnded, max := if s.tail then 0 else x.nodes,
                           min := if s.tail then 1 else x.nodes + 1 }
    else s) s

/-- The unit becomes ACTIVE with a raised claim (R543, R559 to R561). -/
def State.switchOver (s : State) (claim : BitVec 8) : State :=
  let old := s.twin.claim
  let s := { s with twin.claim := claim, twin.queue := [] }.enterTwin .active 0
  let s := if s.twin.partnerOk then s else s.partnerGap
  let s := (s.bump TWIN_SWITCHES).post 0x0701 .warn 0
    (payOf ([old.toNat, claim.toNat] ++ leBytes 2 s.twin.mseq.toNat))
  if claim = 255 then s.post 0x0708 .warn 0 else s

/-- A switch whose APPLY_SEQ is the count of this hinge point takes effect. -/
def State.applySwitch (s : State) : State :=
  match s.twin.switch with
  | none => s
  | some (seq, toActive, claim, cmd) =>
    if seq ≠ s.cyc16 then s
    else
      let s := { s with twin.switch := none }
      if toActive then s.switchOver claim
      else
        let s := { s with twin.synced := allCtxs.filter s.twinned }.enterTwin .standby 0
        (s.bump TWIN_SWITCHES).complete cmd 0

/-- What a T0 does to the twin: the digests that were never compared are counted, the heartbeats are
awaited again, and a switch takes effect. -/
def State.twinAtT0 (s : State) : State :=
  let s := if s.twin.own = [] then s else s.bump TWIN_DIG_SKIP 0 s.twin.own.length
  let s := { s with twin.own := [], twin.prevHb := s.twin.hbSeen, twin.hbSeen := false,
                    twin.missDone := false }
  s.applySwitch.syncCopied

/-- TWIN_SWITCH at its hinge point (R559). -/
def applyTwinSwitch (_ : Desc) (c : Option Cmd) (s : State) : State :=
  if !s.mirrorOn || s.twin.pSynced ≠ (allCtxs.filter s.twinned).length || s.twin.switch.isSome then
    s.complete c 0x0711
  else
    let seq := s.applySeq (s.mirrorLead + s.hingeLead)
    let claim := BitVec.ofNat 8 (min 255 (s.twin.claim.toNat + 1))
    let cell : Cell := { typ := 0xB5, payload := octets (beBytes 2 seq.toNat ++ [claim.toNat]) }
    { s.sendTwin cell with twin.switch := some (seq, false, claim, c) }

/-- TWIN_SWITCH. -/
def execTwinSwitch (d : Desc) (s : State) : Host.Outcome State Fault Refusal :=
  .next (s.runDesc 0x70 d applyTwinSwitch)

/-- TWIN_CLAIM (R543). -/
def applyTwinClaim (d : Desc) (c : Option Cmd) (s : State) : State :=
  let v := bitsOf d.aux 7 0
  let t := s.twin.st
  if v = 0 || v = 255 || !(t == .off || t == .joining || t == .refused) then s.complete c 0x0711
  else { s with twin.claim := BitVec.ofNat 8 v }.complete c 0

/-- TWIN_CLAIM. -/
def execTwinClaim (d : Desc) (s : State) : Host.Outcome State Fault Refusal :=
  .next (s.runDesc 0x71 d applyTwinClaim)

/-- TWIN_REJOIN (R559). -/
def applyTwinRejoin (_ : Desc) (c : Option Cmd) (s : State) : State :=
  let t := s.twin.st
  if t == .refused || t == .diverged || t == .detached then s.enterJoining.complete c 0
  else s.complete c 0x0711

/-- TWIN_REJOIN. -/
def execTwinRejoin (d : Desc) (s : State) : Host.Outcome State Fault Refusal :=
  .next (s.runDesc 0x72 d applyTwinRejoin)

/-! ## Claim mixes (R546) -/

/-- The mix counters are polled now. -/
def State.noteMix (s : State) : State := { s with twin.mixAt := s.bt }

/-- MIX_POLL (R546): MIX_COUNT of every node that the unit serves is read. -/
def State.mixPoll (s : State) : State :=
  if !(s.twin.st == .active || s.twin.st == .standby) then s
  else
    let s := (s.upTo (s.twin.mixAt + BitVec.ofNat 64 (s.rf TWIN_MIX 0 7 0 * 10000000))).noteMix
    (List.range 4).foldl (fun s d =>
      (s.served d).foldl (fun s n => s.startAdm (d / 2) n 0x0016 1 false [] .mixCount) s) s

/-- MIX_POLL. -/
def execMixPoll (s : State) : Host.Outcome State Fault Refusal :=
  .next (s.mixPoll)

/-- A node's MIX_COUNT has been read (R546): when it has risen, MIX_SLOTS is read. -/
def State.mixCount (s : State) (r n : Nat) (v : W32) : State :=
  if tget 0 s.twin.mix (nodeKey r n) < v then s.startAdm r n 0x0017 1 false [] (.mixSlots v)
  else { s with twin.mix := tset 0 s.twin.mix (nodeKey r n) v }

/-- MIX_SLOTS has been read: CLAIM_MIX is posted and both points are cleared. -/
def State.mixSlots (s : State) (r n : Nat) (v : W32) : State :=
  let s := (s.bump TWIN_MIX_RPT).post 0x0707 .warn 0 (payOf ([r, n] ++ leBytes 2 v.toNat))
  let s := { s with twin.mix := terase s.twin.mix (nodeKey r n) }
  s.startAdm r n 0x0016 2 true [0, 0] .plain

end Sys2Proof.Machine
end

