-- ==== Sys2Proof/Machine/Guard.lean ====
section
/-! DEFINITION. Brake Guard: what both channels decide, their switches, safe inputs, tests and states
(R568 to R594). The channel is `false` for A and `true` for B. -/

namespace Sys2Proof.Machine

/-! ## Channels -/

/-- A channel. -/
def State.guard (s : State) (b : Bool) : Guard := if b then s.gB else s.gA

/-- The state with a channel set. -/
def State.setGuard (s : State) (b : Bool) (g : Guard) : State :=
  if b then { s with gB := g } else { s with gA := g }

/-- A register of the channel's block. -/
def gReg (b : Bool) (ra rb : Reg) : Reg := if b then rb else ra

/-- An axis that a channel's parameters enable. -/
structure GAx where
  ctx : Nat
  zones : BitVec 8
  near : Option Nat
  deriving DecidableEq, Repr

/-- The axes that a channel's parameters enable: near axes by NBRK, far axes by FAXIS (R601). -/
def State.guardAxes (s : State) (g : Guard) : List GAx :=
  (List.range 8).filterMap (fun n =>
    let p := g.par (0x10 + n)
    let c := s.ctxOfNear n
    if bitOf p 0 && c ≠ 0 then some ⟨c, p.extractLsb' 8 8, some n⟩ else none) ++
  axisCtxs.filterMap (fun c =>
    let p := g.par (0x100 + c)
    if bitOf p 0 && !s.isNear c then some ⟨c, p.extractLsb' 8 8, none⟩ else none)

/-- RQ (R571). -/
def State.rq (s : State) (c : Nat) : Bool := (s.ax c).enabled && !(s.ax c).engage

/-- A switch of a channel. -/
def Guard.swOf (g : Guard) (n : Nat) : BrkSw := tget {} g.sw n

/-- The channel with a switch set. -/
def Guard.setSw (g : Guard) (n : Nat) (x : BrkSw) : Guard := { g with sw := tset {} g.sw n x }

/-- The switch conducts. -/
def BrkSw.conducts (x : BrkSw) : Bool := x.on && x.pulse.isNone

/-- The pairs that demand, as a channel sees them (R569, R578, R579). -/
def State.demands (s : State) (b : Bool) : BitVec 8 :=
  (s.guard b).demand ||| (s.guard (!b)).demand ||| (s.guard b).discrep

/-- Item 4 or 5 of R572 withdraws the grant of an axis. -/
def State.withdraws (s : State) (b : Bool) (a : GAx) : Bool :=
  let g := s.guard b
  a.zones &&& s.demands b ≠ 0 || a.ctx ∈ g.sbtFault ||
    (match a.near with
      | some n => (g.swOf n).latch ≠ 0
      | none => false)

/-- The channel may grant at all (R572, item 1; R593; R601, GUARD_EN). -/
def State.mayGrant (s : State) (b : Bool) : Bool :=
  let g := s.guard b
  (g.st == .run || g.st == .sealed) && g.en && !s.pwr.failed

/-- Channel A runs a holding-torque test on an axis. -/
def State.sbtOn (s : State) (c : Nat) : Bool :=
  match s.seals.sbt with
  | some t => t.ctx == c
  | none => false

/-- The grants of a channel's decision (R572). -/
def State.newGrants (s : State) (b : Bool) : List Nat × List Nat :=
  let g := s.guard b
  let as := s.guardAxes g
  let blk := as.filter (fun a =>
    s.withdraws b a || (s.rq a.ctx && decide (a.ctx ∈ g.blocked)))
  let blocked := blk.map GAx.ctx
  let ok (a : GAx) : Bool :=
    s.mayGrant b && (a.near.isSome || tget 0 g.mapBad a.ctx == 0) && s.rq a.ctx &&
      !s.withdraws b a && !(!b && s.sbtOn a.ctx) && decide (a.ctx ∉ blocked)
  ((as.filter ok).map GAx.ctx, blocked)

/-- Both channels grant an axis. -/
def State.released (s : State) (c : Nat) : Bool := decide (c ∈ s.gA.grants) && decide (c ∈ s.gB.grants)

/-! ## Switches (R573, R584, R592) -/

/-- The level of a brake ball: conducting, or open. -/
def brakeLevel (a on : Bool) : Level := if !on then .hiz else if a then .high else .low

/-- A channel's switch takes a new condition; its ball follows. -/
def State.putSw (s : State) (b : Bool) (n : Nat) (x : BrkSw) : State :=
  let was := ((s.guard b).swOf n).conducts
  let s := s.setGuard b ((s.guard b).setSw n x)
  if was = x.conducts then s else s.out (.ball (.brake n (!b)) (brakeLevel (!b) x.conducts))

/-- A switch is driven as both grants say; a withdrawal inside a test pulse wins and latches. -/
def BrkSw.drive (x : BrkSw) (want : Bool) : BrkSw :=
  if x.pulse.isSome then
    (if want then x else { x with on := false, wins := true })
  else { x with on := want, wins := false }

/-- Both channels drive their switches of every near axis (R573). -/
def State.driveBrakes (s : State) : State :=
  (List.range 8).foldl (fun s n =>
    let want := s.released (s.ctxOfNear n)
    let s := s.putSw false n ((s.gA.swOf n).drive want)
    s.putSw true n ((s.gB.swOf n).drive want)) s

/-! ## Torque-off demands (R590, R591) -/

/-- PWM_FLT_MAP2 and its stage take new values. -/
def State.putMap2 (s : State) (v st : W32) : State :=
  { s.setRg PWM_FLT_MAP2 0 v with stage := tset v s.stage (regKey PWM_FLT_MAP2 0) st }

/-- Rows 10 and 11 of the fault matrix read the channels' TO_EN, in the stage as in the active register
(R310, R591). -/
def State.mapToEn (s : State) : State :=
  let row (g : Guard) : Nat := ((List.range 8).map (fun n => b2n (bitOf (g.par (0x10 + n)) 1) * 2 ^ n)).sum
  let low := (s.rg PWM_FLT_MAP2).toNat % 65536
  let up := row s.gA * 0x10000 + row s.gB * 0x1000000
  let st := (tget (s.rg PWM_FLT_MAP2) s.stage (regKey PWM_FLT_MAP2 0)).toNat % 65536
  s.putMap2 (BitVec.ofNat 32 (low + up)) (BitVec.ofNat 32 (st + up))

/-- The near axes for which a channel demands torque-off. -/
def State.toDemand (s : State) (b : Bool) : BitVec 8 :=
  let g := s.guard b
  let item1 := !(g.st == .run || g.st == .sealed)
  BitVec.ofNat 8 ((List.range 8).map (fun n =>
    let p := g.par (0x10 + n)
    let a : GAx := ⟨s.ctxOfNear n, p.extractLsb' 8 8, some n⟩
    b2n (bitOf p 1 && (item1 || s.withdraws b a)) * 2 ^ n)).sum

/-- Fault sources 10 and 11 follow both channels' demands (R309, R591). -/
def State.putDemands (s : State) : State := { s with bgTo := s.toDemand true ++ s.toDemand false }

/-- Both channels' demands reach the fault matrix (R309, R311). -/
def State.driveTo (s : State) : State := (List.range 8).foldl State.pwmTrip s.putDemands

/-! ## Decisions (R572 to R576) -/

/-- An effective release has fallen while it is requested (R576). -/
def State.engaged (s : State) (c : Nat) : State :=
  if (s.gA.en || s.gB.en) && (s.ax c).enabled && s.rq c && !s.sbtOn c then
    (s.post 0x0803 .severe c).torqueOff c
  else s

/-- A channel's grants change: the switches and torque-off demands follow, and near axes that lose
their release take TORQUE_OFF. -/
def State.setGrants (s : State) (b : Bool) (grants blocked : List Nat) : State :=
  let was := (s.gA.grants.filter (fun c => decide (c ∈ s.gB.grants))).filter s.isNear
  let s := s.setGuard b { s.guard b with grants := grants, blocked := blocked }
  let s := s.driveBrakes.driveTo
  was.foldl (fun s c => if s.released c then s else s.engaged c) s

/-- The grants are taken anew (R572). -/
def State.regrant (s : State) (b : Bool) : State :=
  let r := s.newGrants b
  s.setGrants b r.1 r.2

/-! ## The change log (R598) -/

/-- The CRC-16 of a channel's ring (R599). -/
def chanCrc (b : Bool) (bs : List Nat) : Nat := (guardCrc b bs).toNat

/-- The channel appends an entry: the opcode's low nibble, the parameter and the value. -/
def State.logGuard (s : State) (b sealed_ : Bool) (op id : Nat) (v : W32) : State :=
  let g := s.guard b
  let i := g.log.length
  let bs := leBytes 2 i ++ [b2n b + b2n sealed_ * 2 + op * 16, 0] ++ leBytes 4 s.boot.opMinutes.toNat ++
    leBytes 2 id ++ leBytes 4 v.toNat
  let s := s.setGuard b { g with log := g.log ++ [payOf (bs ++ leBytes 2 (chanCrc b bs))] }
  if i = 239 then s.post 0x080D .warn 0 else s

/-- The log has no room beside the writes that wait. -/
def Guard.logFull (g : Guard) : Bool := decide (256 ≤ g.log.length + g.writes.length)

/-! ## Parameters (R600, R601) -/

/-- One accepted write takes effect at a decision. -/
def State.takeWrite (s : State) (b : Bool) (w : GWrite) : State :=
  let g := s.guard b
  let g := { g with params := tset (gReset w.id) g.params w.id w.val,
                    unconf := if w.sealed_ && decide (w.id ∉ g.unconf) then g.unconf ++ [w.id]
                              else g.unconf }
  (((s.setGuard b g).logGuard b w.sealed_ 0 w.id w.val).mapToEn).complete w.cmd 0

/-- The writes that wait for a channel's decision. -/
def State.takeWrites (s : State) (b : Bool) : State :=
  let ws := (s.guard b).writes
  let s := s.setGuard b { s.guard b with writes := [] }
  ws.foldl (fun s w => s.takeWrite b w) s

/-! ## Holding-torque test (R586 to R588) -/

/-- Channel A's own read of an axis position. -/
def State.guardPos (s : State) (c : Nat) : W32 :=
  match s.nearOf c with
  | some n => (s.fb n).cnt
  | none => (s.ax c).posLast

/-- The torque that the test commands. -/
def State.sbtTorque (s : State) (c : Nat) (t : Option Rat) : State :=
  s.setAx c { s.ax c with sbt := t }

/-- The test fails (R588). -/
def State.sbtFail (s : State) : State :=
  match s.seals.sbt with
  | none => s
  | some t =>
    let s := s.sbtTorque t.ctx none
    let s := { s with seals.sbt := none, seals.sbtLast := 2,
                      gA.sbtFault := if t.ctx ∈ s.gA.sbtFault then s.gA.sbtFault
                                     else s.gA.sbtFault ++ [t.ctx] }
    (s.complete t.cmd 0x0829).torqueOff t.ctx

/-- The test's conditions at a decision (R588). -/
def State.sbtCheck (s : State) : State :=
  match s.seals.sbt with
  | none => s
  | some t =>
    let x := s.ax t.ctx
    let far := decide ((s.gA.par 0x22).toNat < ((s.guardPos t.ctx - t.p0).toInt).natAbs)
    if !x.enabled || x.mode ≠ .idle || (decide (2 ≤ t.step) && far) then s.sbtFail else s

/-- GUARD_DECISION (R572): a channel takes a decision. -/
def execGuardDecision (b : Bool) (s : State) : Host.Outcome State Fault Refusal :=
  if !s.isOn 2 then .next s
  else
    let s := s.takeWrites b
    let s := if b then s else s.sbtCheck
    .next (s.regrant b)

/-! ## States (R590) -/

/-- The channel's payload of an event: the channel and a number. -/
def chanPay (b : Bool) (n : Nat) : Payload := payOf [b2n b, n]

/-- Sealed mode (R596). -/
def State.sealed_ (s : State) : Bool := s.seals.a && s.seals.b && !s.seals.mism

/-- A channel goes to a state of RUN, SEALED, UNCONFIRMED, which is posted. -/
def State.guardMode (s : State) (b : Bool) (t : GuardSt) : State :=
  ((s.setGuard b { s.guard b with st := t }).post 0x080F .info 0 (chanPay b t.code)).regrant b

/-- A channel in RUN with both seals asserted is SEALED. -/
def State.guardSeal (s : State) (b : Bool) : State :=
  if (s.guard b).st = .run && s.sealed_ then s.guardMode b .sealed else s

/-- A channel enters SAFE from RUN, SEALED or UNCONFIRMED. -/
def State.guardSafe (s : State) (b : Bool) (cause : Nat) : State :=
  match (s.guard b).st with
  | .run | .sealed | .unconfirmed =>
    ((s.setGuard b { s.guard b with st := .safe, cause := cause }).post 0x080C .stop 0
      (chanPay b cause)).regrant b
  | _ => s

/-- XMON_HEARTBEAT (R570): a channel's heartbeat reaches the other one. -/
def execXmonHeartbeat (b : Bool) (s : State) : Host.Outcome State Fault Refusal :=
  if !s.isOn 2 then .next s else .next (s.setGuard (!b) { s.guard (!b) with xmonLost := false })

/-- XMON_TIMEOUT (R570): a channel sees no heartbeat of the other for 1 ms. -/
def execXmonTimeout (b : Bool) (s : State) : Host.Outcome State Fault Refusal :=
  if !s.isOn 2 then .next s
  else
    .next ((s.setGuard b { s.guard b with xmonLost := true }).guardSafe b 3)

/-- SELFTEST_COMPLETE (R590). -/
def execSelftestComplete (b pass crcOk : Bool) (s : State) : Host.Outcome State Fault Refusal :=
  if !s.isOn 2 then .next s
  else
    let g := s.guard b
    if g.st ≠ .selftest then .next s
    else if pass && crcOk then
      .next (((s.setGuard b { g with st := .run, cause := 0 }).regrant b).guardSeal b)
    else .next ((s.setGuard b { g with st := .safe, cause := if pass then 2 else 1 }).regrant b)

/-- UNCORRECTABLE_SRAM_ERROR (R590). -/
def execUncorrectableSramError (b : Bool) (s : State) : Host.Outcome State Fault Refusal :=
  if !s.isOn 2 then .next s else .next (s.guardSafe b 4)

/-- OWN_OSCILLATOR_CHECK_FAILURE (R590). -/
def execOwnOscillatorCheckFailure (b : Bool) (s : State) : Host.Outcome State Fault Refusal :=
  if !s.isOn 2 then .next s else .next (s.guardSafe b 5)

/-- PARAMETER_CRC_ERROR (R590). -/
def execParameterCrcError (b : Bool) (s : State) : Host.Outcome State Fault Refusal :=
  if !s.isOn 2 then .next s else .next (s.guardSafe b 2)

/-- A channel follows the seals (R590). -/
def State.followSeals (s : State) (b : Bool) : State :=
  let g := s.guard b
  if g.st = .sealed && !s.sealed_ then
    s.guardMode b (if g.unconf = [] then .run else .unconfirmed)
  else s.guardSeal b

/-- SEAL_CHANGE (R596): which seal inputs have been low for 50 ms now. -/
def State.sealChange (s : State) (a b : Bool) : State :=
  if !s.isOn 2 then { s with seals.a := a, seals.b := b }
  else
    let one := a != b
    let mism := one || (s.seals.mism && (a || b))
    let s := if one && !s.seals.mism then s.post 0x080B .warn 0 else s
    let s := { s with seals.a := a, seals.b := b, seals.mism := mism }
    ((s.followSeals false).followSeals true)

/-- SEAL_CHANGE. -/
def execSealChange (a b : Bool) (s : State) : Host.Outcome State Fault Refusal :=
  .next (s.sealChange a b)

/-- The time of a lockout, and of the mismatches that count for one, in ns (R595). -/
def tenMinutes : Nat := 600000000000

/-- GUARD_LOCKOUT_EXPIRE (R595): ten minutes after the mismatch that locked the channel. -/
def execGuardLockoutExpire (b : Bool) (s : State) : Host.Outcome State Fault Refusal :=
  if !s.isOn 2 then .next s
  else
    let g := s.guard b
    match g.locked, g.fails.getLast? with
    | true, some t => .next ((s.upTo (t + tenMinutes)).setGuard b { g with locked := false, fails := [] })
    | _, _ => .next s

/-! ## Safe inputs (R578, R579) -/

/-- A bit of a byte set or cleared. -/
def putBit (v : BitVec 8) (k : Nat) (x : Bool) : BitVec 8 :=
  if x then v ||| BitVec.ofNat 8 (2 ^ k) else v &&& ~~~ BitVec.ofNat 8 (2 ^ k)

/-- The discrepancy latch of a pair in a channel (R579). -/
def Guard.watchPair (g : Guard) (k : Nat) (own cross : Bool) : Guard :=
  if !g.discrep.getLsbD k then g
  else if own && cross then { g with together := putBit g.together k true }
  else if !own && !cross && g.together.getLsbD k then
    { g with discrep := putBit g.discrep k false, together := putBit g.together k false }
  else g

/-- SAFE_INPUT_FILTER (R578): a channel's own input of a pair starts or stops demanding. -/
def State.safeInputFilter (s : State) (b : Bool) (k : Fin 8) (demand : Bool) : State :=
  if !s.isOn 2 then s
  else
    let g := s.guard b
    if g.demand.getLsbD k = demand then s
    else
      let s := s.setGuard b { g with demand := putBit g.demand k demand }
      let own := s.gA.demand.getLsbD k
      let cross := s.gB.demand.getLsbD k
      let gA := s.gA.watchPair k own cross
      let gB := s.gB.watchPair k cross own
      let s := { s with gA := gA, gB := gB }
      (if demand then
        (s.bump (gReg b GUARD_A_DEMANDS GUARD_B_DEMANDS)).post 0x0801 .warn 0 (payOf [k, b2n b])
      else s)

/-- SAFE_INPUT_FILTER. -/
def execSafeInputFilter (b : Bool) (k : Fin 8) (demand : Bool) (s : State) : Host.Outcome State Fault Refusal :=
  .next (s.safeInputFilter b k demand)

/-- SI_DISCREPANCY (R579): the channels' levels of a pair have differed for DISC_TIME. -/
def State.siDiscrepancy (s : State) (k : Fin 8) : State :=
  if !s.isOn 2 then s
  else
    if s.gA.demand.getLsbD k = s.gB.demand.getLsbD k || s.gA.discrep.getLsbD k then s
    else
      let latch (g : Guard) : Guard :=
        { g with discrep := putBit g.discrep k true, together := putBit g.together k false }
      ({ s with gA := latch s.gA, gB := latch s.gB }.post 0x0802 .severe 0)

/-- SI_DISCREPANCY. -/
def execSiDiscrepancy (k : Fin 8) (s : State) : Host.Outcome State Fault Refusal :=
  .next (s.siDiscrepancy k)

/-! ## Switch faults (R580 to R582) -/

/-- A fault condition of a channel's switch comes or goes; when it comes it is latched. -/
def State.swFault (s : State) (b : Bool) (n bit : Nat) (code : BitVec 16) (present : Bool) : State :=
  let g := s.guard b
  let x := g.swOf n
  let m : BitVec 5 := BitVec.ofNat 5 (2 ^ bit)
  if !present then s.setGuard b (g.setSw n { x with cond := x.cond &&& ~~~ m })
  else
    let s := s.setGuard b (g.setSw n { x with cond := x.cond ||| m, latch := x.latch ||| m })
    if x.latch.getLsbD bit then s else s.post code .severe (s.ctxOfNear n)

/-- SWITCH_SHORT (R582): commanded on and at its limit, or off thermally. -/
def execSwitchShort (b : Bool) (n : Fin 8) (present : Bool) (s : State) :
    Host.Outcome State Fault Refusal :=
  if !s.isOn 2 then .next s
  else
    if present && !((s.guard b).swOf n).on then .next s
    else .next (s.swFault b n 0 0x0804 present)

/-- SWITCH_STUCK (R582): commanded off and still conducting. -/
def execSwitchStuck (b : Bool) (n : Fin 8) (present : Bool) (s : State) :
    Host.Outcome State Fault Refusal :=
  if !s.isOn 2 then .next s
  else
    if present && ((s.guard b).swOf n).conducts then .next s
    else .next (s.swFault b n 1 0x0805 present)

/-- SWITCH_OPEN (R582): not conducting 100 µs after a test pulse. -/
def execSwitchOpen (b : Bool) (n : Fin 8) (present : Bool) (s : State) :
    Host.Outcome State Fault Refusal :=
  if !s.isOn 2 then .next s
  else
    if present && !((s.guard b).swOf n).conducts then .next s
    else .next (s.swFault b n 2 0x0806 present)

/-- BRAKE_OPEN_LOAD (R582): both switches conduct and the current stays low. -/
def execBrakeOpenLoad (b : Bool) (n : Fin 8) (present : Bool) (s : State) :
    Host.Outcome State Fault Refusal :=
  if !s.isOn 2 then .next s
  else
    if present && !((s.gA.swOf n).conducts && (s.gB.swOf n).conducts) then .next s
    else .next (s.swFault b n 3 0x0807 present)

/-- BRAKE_OVERLOAD (R581): the measured total lies above 4.2 A; both channels latch it for every near
axis. -/
def State.brakeOverload (s : State) (present : Bool) : State :=
  if !s.isOn 2 then s
  else
    let mark (g : Guard) : Guard :=
      (List.range 8).foldl (fun g n =>
        let x := g.swOf n
        g.setSw n (if present then { x with cond := x.cond ||| 16, latch := x.latch ||| 16 }
          else { x with cond := x.cond &&& 15 })) g
    let was := (s.gA.swOf 0).latch.getLsbD 4
    let s := { s with gA := mark s.gA, gB := mark s.gB }
    (if present && !was then s.post 0x0808 .severe 0 else s)

/-- BRAKE_OVERLOAD. -/
def execBrakeOverload (present : Bool) (s : State) : Host.Outcome State Fault Refusal :=
  .next (s.brakeOverload present)

/-! ## Test pulses (R583 to R585) -/

/-- A test pulse is judged. -/
def State.judgePulse (s : State) (b pass : Bool) : State :=
  s.bump (if pass then gReg b GUARD_A_TESTS GUARD_B_TESTS
    else gReg b GUARD_A_TEST_FAIL GUARD_B_TEST_FAIL)

/-- TEST_PULSE_START (R583, R585): a pulse falls due. With the brake engaged, `off` is the off-state
readback, which decides it. -/
def execTestPulseStart (b : Bool) (n : Fin 8) (off : Bool) (s : State) :
    Host.Outcome State Fault Refusal :=
  if !s.isOn 2 then .next s
  else
    let x := (s.guard b).swOf n
    if x.pulse.isSome then .next s
    else if x.on then .next (s.putSw b n { x with pulse := some s.bt, wins := false })
    else
      let s := s.judgePulse b off
      .next (if off then s else s.swFault b n 1 0x0805 true)

/-- TEST_PULSE_END (R583, R584): the pulse ends; `off` is the readback before its end, `back` says
that the switch conducts again within 100 µs. -/
def execTestPulseEnd (b : Bool) (n : Fin 8) (off back : Bool) (s : State) :
    Host.Outcome State Fault Refusal :=
  if !s.isOn 2 then .next s
  else
    let x := (s.guard b).swOf n
    match x.pulse with
    | none => .next s
    | some t =>
      let s := s.upTo (t + BitVec.ofNat 64 (((s.guard b).par 4).toNat * 1000))
      let s := s.putSw b n { x with pulse := none }
      let s := s.judgePulse b (off && (x.wins || back))
      let s := if off then s else s.swFault b n 1 0x0805 true
      .next (if off && !x.wins && !back then s.swFault b n 2 0x0806 true else s)

/-! ## Steps of the holding-torque test (R587, R589) -/

/-- SBT_STEP (R587): the test reaches its next timed step. -/
def execSbtStep (s : State) : Host.Outcome State Fault Refusal :=
  if !s.isOn 2 then .next s
  else
    match s.seals.sbt with
    | none => .next s
    | some t =>
      let set_ := (s.gA.par 0x23).toNat * 1000000
      let push := (s.gA.par 0x21).toNat * 1000000
      let q : Rat := ((s.gA.par 0x20).toNat : Rat) / 2 ^ 23
      let s := s.upTo (t.at_ + BitVec.ofNat 64 (set_ + (t.step - 1) * push))
      match t.step with
      | 1 =>
        let t2 := { t with step := 2, p0 := s.guardPos t.ctx }
        .next ({ s with seals.sbt := some t2 }.sbtTorque t.ctx (some q))
      | 2 => .next ({ s with seals.sbt := some { t with step := 3 } }.sbtTorque t.ctx (some (-q)))
      | _ =>
        let s := s.sbtTorque t.ctx none
        let s := { s with seals.sbt := none, seals.sbtLast := 1,
                          seals.sbtPass := tset 0 s.seals.sbtPass t.ctx s.boot.opMinutes }
        .next (s.complete t.cmd 0)

/-- SBT_DUE (R589): the hourly look. -/
def execSbtDue (s : State) : Host.Outcome State Fault Refusal :=
  if !s.isOn 2 then .next s
  else
    let h := (s.gA.par 0x24).toNat
    if h = 0 then .next s
    else .next ((s.guardAxes s.gA).foldl (fun s a =>
      if 60 * h ≤ (s.boot.opMinutes - tget 0 s.seals.sbtPass a.ctx).toNat then s.post 0x080A .warn a.ctx
      else s) s)

/-! ## What a hinge point does (R574, R576, R577, R593) -/

/-- What the template says of an axis, as a number: 0 is no far axis. -/
def State.srcCode (s : State) (c : Nat) : Nat :=
  match s.farOf c with
  | some (r, n, sl) => 1 + sl + n * 16 + r * 4096
  | none => 0

/-- What a FAXIS parameter says, in the same form. -/
def faxisCode (p : W32) : Nat := 1 + bitsOf p 27 24 + bitsOf p 23 16 * 16 + bitsOf p 28 28 * 4096

/-- A channel compares its mapping with the templates (R577). -/
def State.checkMap (s : State) (b : Bool) : State :=
  axisCtxs.foldl (fun s c =>
    let g := s.guard b
    let p := g.par (0x100 + c)
    let bad := if bitOf p 0 && s.srcCode c ≠ faxisCode p then 1 + s.srcCode c else 0
    if bad = tget 0 g.mapBad c then s
    else
      let s := s.setGuard b { g with mapBad := tset 0 g.mapBad c bad,
                                     grants := if bad = 0 then g.grants else g.grants.filter (· ≠ c) }
      if bad = 0 then s else s.post 0x0809 .warn c) s

/-- The axes of a channel's release bits: granted by both (R574). -/
def State.relOf (s : State) (g : Guard) : List Nat :=
  ((s.guardAxes g).filter (fun a => a.near.isNone && s.released a.ctx)).map GAx.ctx

/-- A channel's REL field for a node: a bit for each slot whose mapped axes are all released. -/
def Guard.relBits (g : Guard) (rel : List Nat) (r n : Nat) : Nat :=
  let at_ (sl : Nat) : List Nat := axisCtxs.filter (fun c =>
    bitOf (g.par (0x100 + c)) 0 && faxisCode (g.par (0x100 + c)) == 1 + sl + n * 16 + r * 4096)
  ((List.range 16).map (fun sl =>
    let cs := at_ sl
    b2n (decide (cs ≠ []) && cs.all (fun c => decide (c ∈ rel))) * 2 ^ sl)).sum

/-- One channel's part of a guard cell (R437, R438). -/
def State.guardPart (s : State) (b : Bool) (rel : List Nat) (r n : Nat) : List Nat :=
  let g := s.guard b
  let bits := beBytes 2 (g.relBits rel r n)
  let crc := guardCrc b ([r, n] ++ beBytes 2 s.cyc16.toNat ++ bits ++ [g.cnt.toNat])
  bits ++ [g.cnt.toNat] ++ beBytes 2 crc.toNat

/-- The guard train of every active direction (R33, R437). -/
def State.sendGuards (s : State) : State :=
  (List.range 4).foldl (fun s d =>
    if s.dirActive d then
      (s.served d).foldl (fun s n =>
        s.sendCell d { typ := 0xA4, node := BitVec.ofNat 8 n, seq := s.cyc16
                       payload := octets (s.guardPart false s.gA.rel (d / 2) n ++
                         s.guardPart true s.gB.rel (d / 2) n) }) s
    else s) s

/-- The T0 strobe (R574, R576): each generator takes its channel's decision, CNT advances, the train
leaves, and a far axis whose release has fallen while it is requested takes TORQUE_OFF. -/
def State.guardAtT0 (s : State) : State :=
  let was := s.gA.rel.filter (fun c => decide (c ∈ s.gB.rel))
  let ra := s.relOf s.gA
  let rb := s.relOf s.gB
  let s := { s with gA.rel := ra, gB.rel := rb, gA.cnt := s.gA.cnt + 1, gB.cnt := s.gB.cnt + 1 }
  let s := s.sendGuards
  was.foldl (fun s c => if c ∈ ra && c ∈ rb then s else s.engaged c) s

/-- The power-fail trigger fires (R593): all grants 0, the engage train, and the switches open; an
axis whose release falls so while it is requested takes TORQUE_OFF (R576). -/
def State.guardPowerFail (s : State) : State :=
  let was := axisCtxs.filter (fun c => if s.isNear c then s.released c
    else decide (c ∈ s.gA.rel) && decide (c ∈ s.gB.rel))
  let s := { s with gA.grants := [], gB.grants := [], gA.rel := [], gB.rel := [],
                    gA.cnt := s.gA.cnt + 1, gB.cnt := s.gB.cnt + 1 }
  was.foldl State.engaged s.sendGuards.driveBrakes

/-- What a reset leaves of a channel: its parameters, password and log lie in protected MRAM
(R594, R598). -/
def Guard.afterReset (g : Guard) : Guard :=
  { params := g.params, password := g.password, log := g.log }

end Sys2Proof.Machine
end

