-- ==== Sys2Proof/Machine/Acq.lean ====
section
/-! DEFINITION. Acquisition: rows, lanes, triggers, arm groups, stream records and the sample ledger
(R650 to R676). -/

namespace Sys2Proof.Machine

/-! ## Units (R650, R656, R657) -/

/-- A unit. -/
def State.acq (s : State) (u : Nat) : AcqU := tget {} s.acqs u

/-- The state with a unit set. -/
def State.setAcq (s : State) (u : Nat) (x : AcqU) : State := { s with acqs := tset {} s.acqs u x }

/-- MODE is FAST. -/
def State.acqFast (s : State) (u : Nat) : Bool := bitOf (s.rg ACQ_CFG u) 0

/-- DEC. -/
def State.acqDec (s : State) (u : Nat) : Nat := max 1 (s.rf ACQ_CFG u 31 16)

/-- KIND, RED and a field of a channel word. -/
def State.chKind (s : State) (u n : Nat) : Nat := s.rf (ACQ_CH n) u 31 28
def State.chRed (s : State) (u n k : Nat) : Bool := bitOf (s.rg (ACQ_CH n) u) (24 + k)

/-- A channel is digital. -/
def State.chDigital (s : State) (u n : Nat) : Bool := s.chKind u n == 4 || s.chKind u n == 5

/-- The enabled channels. -/
def State.channels (s : State) (u : Nat) : List Nat := (List.range 32).filter (fun n => s.chKind u n ≠ 0)

/-- The lanes of full rows, by channel. -/
def State.fullLanes (s : State) (u : Nat) : List Nat := (s.channels u).filter (fun n => s.chRed u n 0)

/-- The lanes of dec rows: channel and reduction (1 mean, 2 minimum, 3 maximum). -/
def State.decLanes (s : State) (u : Nat) : List (Nat × Nat) :=
  (s.channels u).flatMap (fun n => ([1, 2, 3].filter (fun k => s.chRed u n k)).map (fun k => (n, k)))

/-- The lane number of a channel's raw lane (R657). -/
def State.rawLane (s : State) (u n : Nat) : Nat :=
  (((s.channels u).filter (· < n)).map (fun m =>
    ((List.range 4).filter (fun k => s.chRed u m k)).length)).sum

/-- The context of a unit. -/
def acqCtx (u : Nat) : Nat := 161 + u

/-- The period of a unit's rows in ns. -/
def State.acqPeriod (s : State) (u : Nat) : Nat :=
  max 1 (if s.acqFast u then s.rf ACQ_FPER u 15 0
    else hdrDiv (s.hdr (acqCtx u)) * s.rf DISP_CYC_PERIOD 0 19 0)

/-- SAMPLE_OFS. -/
def State.sampleOfs (s : State) : Nat := s.rf DISP_CYC_SAMPLE 0 19 0

/-- The first instant of a FAST unit's grid after an instant (R654). -/
def State.nextGrid (s : State) (u : Nat) (t : W64) : W64 :=
  let p : Int := s.acqPeriod u
  let o : Int := s.cyc.t0.toNat + s.sampleOfs
  BitVec.ofInt 64 (o + ((t.toNat - o) / p + 1) * p)

/-- The first row instant after a START (R664). -/
def State.firstRow (s : State) (u : Nat) : W64 :=
  if s.acqFast u then s.nextGrid u s.bt
  else
    let h := s.hdr (acqCtx u)
    let n := ((List.range 8).find? (fun i => hdrRuns h (s.cyc.count.toNat + i))).getD 0
    s.cyc.t0 + BitVec.ofNat 64 (n * s.rf DISP_CYC_PERIOD 0 19 0 + s.sampleOfs)

/-! ## The stream writer (R667 to R672) -/

/-- A 32-byte record. -/
def rec32 (bs : List Nat) (samples : Nat) : Rec :=
  { size := 32, samples := samples,
    data := BitVec.ofNat 256 ((bs.zipIdx.map (fun p => p.1 % 256 * 2 ^ (8 * p.2))).sum) }

/-- Byte 0 of a unit's record. -/
def recType (ty u : Nat) : Nat := ty * 16 + u

/-- The GAP records of a withheld span (R667, R672); `none_` stands for the row instants of a span
without a row. -/
def gapRecs (u : Nat) (x : Stream) (none_ : W32) : List Rec :=
  let full := 2 ^ 32 - 1
  let more := (x.gapSamples - 1) / full
  let (first, last) := if x.gapRows = 0 then (none_, none_) else (x.gapFirst, x.gapLast)
  (List.range (more + 1)).map (fun i =>
    let n := min full (x.gapSamples - i * full)
    rec32 ([recType 3 u, 0, 0, 0] ++ leBytes 4 first.toNat ++
      leBytes 4 (if i = 0 then x.gapRows.toNat else 0) ++ leBytes 4 n ++ leBytes 4 last.toNat ++
      leBytes 4 (if i = 0 then x.gapMarks.toNat else 0)) 0)

/-- The writer takes records whole, after a GAP record for what it withheld; `false`: it withholds
them (R671, R672). -/
def State.takeRecs (s : State) (u : Nat) (rs : List Rec) : State × Bool :=
  let s := s.fillStrm u
  let x := s.strm u
  let (i, s) := if x.gapOpen && x.gapRows = 0 then s.draw else (0, s)
  let gaps := if x.gapOpen then gapRecs u x (Config.gapInstant i) else []
  if s.strmRoom u (recBytes (gaps ++ rs)) then
    let s := if x.gapOpen then s.post 0x0B01 .warn (acqCtx u) else s
    let s := s.setStrm u { s.strm u with
      gapOpen := false, gapRows := 0, gapSamples := 0, gapMarks := 0 }
    ((gaps ++ rs).foldl (fun s r => s.putRec u r) s, true)
  else (s.setStrm u { s.strm u with gapOpen := true }, false)

/-- A row of `n` samples is withheld (R672, R673). -/
def State.withholdRow (s : State) (u : Nat) (at_ : W32) (n : Nat) : State :=
  let y := s.strm u
  let first := if y.gapRows = 0 then at_ else y.gapFirst
  let s := s.setStrm u { y with gapRows := y.gapRows + 1, gapSamples := y.gapSamples + n,
                                gapFirst := first, gapLast := at_ }
  (s.setAcq u { s.acq u with gap := (s.acq u).gap + BitVec.ofNat 32 n }).bump ACQ_ROWS_GAP u

/-- A row of lanes goes to the writer (R668, R671, R673). -/
def State.writeRow (s : State) (u : Nat) (dec : Bool) (at_ : W64) (vals : List (W24 × Bool)) : State :=
  let n := vals.length
  if n = 0 then s
  else
    let blk (b : Nat) : Rec :=
      let vs := (vals.drop (8 * b)).take 8
      let stale := (vs.zipIdx.map (fun p => b2n p.1.2 * 2 ^ p.2)).sum
      rec32 ([recType 1 u, b2n dec * 128 + b, stale, vs.length] ++ leBytes 4 at_.toNat ++
        vs.flatMap (fun p => leBytes 3 p.1.toNat)) vs.length
    let x := s.acq u
    let s := s.setAcq u { x with prod := x.prod + BitVec.ofNat 32 n }
    let (s, ok) := s.takeRecs u ((List.range ((n + 7) / 8)).map blk)
    if ok then s else s.withholdRow u (at_.setWidth 32) n

/-! ## Fires (R662 to R666) -/

/-- The master of a unit's group, if the unit is in one. -/
def State.masterOf (s : State) (u : Nat) : Option Nat :=
  (List.range 8).find? (fun m => s.rf ACQ_GRP m 7 0 ≠ 0 &&
    (m == u || (s.rf ACQ_GRP m 7 0).testBit u))

/-- The units of a group. -/
def State.groupOf (s : State) (m : Nat) : List Nat :=
  (List.range 8).filter (fun u => m == u || (s.rf ACQ_GRP m 7 0).testBit u)

/-- Several fires are one (R663). -/
def mergeFires : List Fire → Option Fire
  | [] => none
  | f :: fs => some (fs.foldl (fun a b =>
      let c := a.cause ||| b.cause
      if b.stamp < a.stamp then { b with cause := c } else { a with cause := c }) f)

/-- A unit fires (R663, R664, R667). -/
def State.fireUnit (s : State) (u : Nat) (f : Fire) : State :=
  let x := s.acq u
  if x.st ≠ .armed then s
  else
    let p := s.acqPeriod u
    let ns := f.stamp / 256
    let base : Int := x.lastRow.toNat
    let row := base + ((ns : Int) - base) / p * p
    let n := x.fires
    let mark := rec32 ([recType 2 u, f.cause, f.origin, f.sfrac] ++ leBytes 4 ns ++
      [f.stamp % 256, f.lane] ++ leBytes 2 f.slot ++ leBytes 4 (BitVec.ofInt 32 row).toNat ++
      leBytes 4 n.toNat) 0
    let s := s.setAcq u { x with
      fires := n + 1, st := if x.rearm then .armed else .run,
      holdoff := s.rf ACQ_TRIG_CTL u 31 16, outside := [] }
    let (s, ok) := s.takeRecs u [mark]
    let s := if ok then s else s.setStrm u { s.strm u with gapMarks := (s.strm u).gapMarks + 1 }
    (s.bump ACQ_FIRES u).post 0x0B02 .info (acqCtx u)
      (payOf ([f.cause] ++ leBytes 4 ns ++ [f.stamp % 256]))

/-- The ball TRIG_IO is driven low for 1 µs (R666). -/
def State.trigLow (s : State) : State :=
  if s.trig.low.isSome then s
  else
    let s := { s with trig.low := some s.bt }
    s.out (.ball .trigIo s.trigLevel)

/-- A fire that a unit detects (R663): it waits for the unit's row, or for the end of the group's
cycle (R665); a group's fire is passed on to the ball. -/
def State.detect (s : State) (u : Nat) (f : Fire) : State :=
  let x := s.acq u
  if x.st ≠ .armed || x.holdoff ≠ 0 then s
  else
    let s := s.setAcq u { x with outside := x.outside ++ [f] }
    match s.masterOf u with
    | some m => if bitOf (s.rg ACQ_TRIG_CTL m) 5 then s.trigLow else s
    | none => s

/-- The fires that a row of a unit alone resolves (R663). -/
def State.resolve (s : State) (u : Nat) : State :=
  if (s.masterOf u).isSome then s
  else match mergeFires (s.acq u).outside with
    | some f => s.fireUnit u f
    | none => s

/-- A unit's part in the fire of its group (R665): the stamp is the group's, the causes are the unit's own. -/
def State.groupFire (s : State) (g : Fire) (u : Nat) : State :=
  match mergeFires (s.acq u).outside with
  | some o => s.fireUnit u { g with cause := o.cause, origin := u, lane := o.lane, slot := o.slot }
  | none =>
    if (s.acq u).holdoff ≠ 0 then s
    else s.fireUnit u { g with cause := 64, lane := 0xFF, slot := 0xFFFF }

/-- The fires of a group in the cycle that has ended (R665); a unit in its HOLDOFF ignores them (R663). -/
def State.resolveGroup (s : State) (m : Nat) : State :=
  let us := s.groupOf m
  match mergeFires (us.flatMap (fun u => (s.acq u).outside)) with
  | none => s
  | some g => us.foldl (fun s u => s.groupFire g u) s

/-- The groups' fires of the cycle that has ended. -/
def State.resolveGroups (s : State) : State :=
  (List.range 8).foldl (fun s m => if s.rf ACQ_GRP m 7 0 ≠ 0 then s.resolveGroup m else s) s

/-! ## Triggers (R659 to R661) -/

/-- A raw value of a row as a signed number. -/
def Row.sval (r : Row) (n : Nat) : Int := (tget 0 r.vals n).toInt

/-- The pattern trigger is true in a row. -/
def State.patTrue (s : State) (u : Nat) (r : Row) : Bool :=
  (List.range 32).all (fun n => !bitOf (s.rg ACQ_PAT_CARE u) n ||
    (tget 0 r.vals n).getLsbD 0 == bitOf (s.rg ACQ_PAT_VAL u) n)

/-- A level trigger's registers. -/
def ltRegs (k : Nat) : Reg × Reg × Reg :=
  if k = 0 then (ACQ_LT0, ACQ_LT0_LVL, ACQ_LT0_HYST) else (ACQ_LT1, ACQ_LT1_LVL, ACQ_LT1_HYST)

/-- A level trigger sees a sample: its readiness after it, and whether it fires (R660). -/
def State.levelSees (s : State) (u k : Nat) (t : LvlTrig) (v : Int) (fresh : Bool) : LvlTrig × Bool :=
  let (rc, rl, rh) := ltRegs k
  let dir := s.rf rc u 9 8
  let lvl := sbitsOf (s.rg rl u) 23 0
  let hy : Int := s.rf rh u 23 0
  let up := decide (dir = 1 ∨ dir = 3)
  let dn := decide (dir = 2 ∨ dir = 3)
  let fire := !fresh && ((up && t.up && decide (lvl ≤ v)) || (dn && t.down && decide (v ≤ lvl)))
  if fire then ({}, true)
  else ({ up := t.up || (up && decide (v ≤ lvl - hy)), down := t.down || (dn && decide (lvl + hy ≤ v)) },
    false)

/-- SFRAC of a level fire (R661). -/
def sfracOf (lvl v0 v1 : Int) : Nat :=
  if v1 = v0 then 0 else (max 0 (min 255 (Int.fdiv (256 * (lvl - v0)) (v1 - v0)))).toNat

/-- A level trigger's look at a row. -/
def State.levelRow (s : State) (u k : Nat) (r : Row) : State :=
  let x := s.acq u
  let (rc, rl, _) := ltRegs k
  let n := s.rf rc u 4 0
  let t := if k = 0 then x.lt0 else x.lt1
  let (t', fire) := s.levelSees u k t (r.sval n) x.fresh
  let s := s.setAcq u (if k = 0 then { x with lt0 := t' } else { x with lt1 := t' })
  match x.prev with
  | some p =>
    if fire && bitOf (s.rg ACQ_TRIG_CTL u) (1 + k) then
      let sf := sfracOf (sbitsOf (s.rg rl u) 23 0) (p.sval n) (r.sval n)
      s.detect u { stamp := p.at_.toNat * 256 + sf * s.acqPeriod u, cause := 2 * (k + 1), origin := u,
                   sfrac := sf, lane := s.rawLane u n }
    else s
  | none => s

/-- The triggers of a row (R659, R660). -/
def State.triggers (s : State) (u : Nat) (r : Row) : State :=
  let x := s.acq u
  let pat := s.patTrue u r
  let s := if pat && !x.patWas && x.prev.isSome && bitOf (s.rg ACQ_TRIG_CTL u) 0 then
      s.detect u { stamp := r.at_.toNat * 256, cause := 1, origin := u }
    else s
  let s := (s.levelRow u 0 r).levelRow u 1 r
  s.setAcq u { s.acq u with patWas := pat, fresh := false, prev := some r }

/-! ## Rows (R653, R657, R658) -/

/-- A dec accumulator takes a sample. -/
def DecAcc.add (a : DecAcc) (first : Bool) (v : Int) (stale : Bool) : DecAcc :=
  if first then ⟨v, v, v, stale⟩
  else ⟨a.sum + v, min a.mn v, max a.mx v, a.stale || stale⟩

/-- A dec lane's value (R658). -/
def DecAcc.value (a : DecAcc) (dec red : Nat) (digital : Bool) : W24 :=
  match red with
  | 1 =>
    let sum := if digital then a.sum * 2 ^ 23 else a.sum
    let m := (sum + (dec / 2 : Nat)) / (dec : Int)
    BitVec.ofInt 24 (if digital then min (2 ^ 23 - 1) m else m)
  | 2 => BitVec.ofInt 24 a.mn
  | _ => BitVec.ofInt 24 a.mx

/-- The dec lanes take a row, and write one after every DEC rows. -/
def State.decRow (s : State) (u : Nat) (r : Row) : State :=
  let x := s.acq u
  let dec := s.acqDec u
  let d := (s.channels u).foldl (fun d n =>
    tset {} d n ((tget {} d n).add (x.decN == 0) (r.sval n) (decide (n ∈ r.stale)))) x.dec
  let n := x.decN + 1
  if n < dec then s.setAcq u { x with dec := d, decN := n }
  else
    let s := s.setAcq u { x with dec := [], decN := 0 }
    s.writeRow u true r.at_ ((s.decLanes u).map (fun p =>
      let a := tget {} d p.1
      (a.value dec p.2 (s.chDigital u p.1), a.stale)))

/-- A unit processes a row: it reduces, formats and triggers; it is one of the HOLDOFF rows that ignore fires
(R663). -/
def State.acqRow (s : State) (u : Nat) (r : Row) : State :=
  let x := s.acq u
  let s := s.setAcq u { x with rows := x.rows + 1, lastRow := r.at_ }
  let s := if (s.channels u).any (fun n => decide (n ∈ r.stale)) then s.bump ACQ_STALE u else s
  let s := s.writeRow u false r.at_ ((s.fullLanes u).map (fun n =>
    (tget 0 r.vals n, decide (n ∈ r.stale))))
  let s := (s.decRow u r).triggers u r
  (s.setAcq u { s.acq u with holdoff := (s.acq u).holdoff - 1 }).resolve u

/-- The value of a channel that reads a ball: a near-axis line or a field input. -/
def State.ballVal (s : State) (u n : Nat) (lines : List (Nat × Bool)) : W24 :=
  let w := s.rg (ACQ_CH n) u
  if s.chKind u n = 5 then BitVec.ofNat 24 (b2n (tget false lines (128 + bitsOf w 3 0)))
  else BitVec.ofNat 24 (b2n (tget false lines (bitsOf w 10 8 * 16 + bitsOf w 3 0)))

/-- FAST_ROW (R654): `sd` gives the continuous sinc3 outputs by `4 axis + channel`, `lines` the levels
of the near-axis balls by `16 axis + line` and of GIn by `128 + n`. -/
def execFastRow (u : Fin 8) (sd : List (Nat × BitVec 24)) (lines : List (Nat × Bool)) (s : State) :
    Host.Outcome State Fault Refusal :=
  let x := s.acq u
  if !s.acqFast u || x.st = .idle || !s.isOn 20 then .next s
  else
    let t := s.nextGrid u x.lastRow
    let s := s.upTo t
    let vals := (s.channels u).foldl (fun m n =>
      let w := s.rg (ACQ_CH n) u
      let v := if s.chKind u n = 3 then tget 0 sd (bitsOf w 10 8 * 4 + bitsOf w 1 0)
        else s.ballVal u n lines
      tset 0 m n v) []
    .next (s.acqRow u { at_ := t, vals := vals })

/-- At the sample instant, the CYCLE units whose context runs take their balls' levels (R651). -/
def State.sampleRows (s : State) (lines : List (Nat × Bool)) : State :=
  (List.range 8).foldl (fun s u =>
    let x := s.acq u
    if s.acqFast u || x.st = .idle || (tget none s.runs (acqCtx u)).isNone then s
    else
      let vals := ((s.channels u).filter (s.chDigital u)).foldl
        (fun m n => tset 0 m n (s.ballVal u n lines)) x.vals
      s.setAcq u { x with vals := vals }) s

/-- A peephole of a context (R240). -/
def State.peep (s : State) (c ph : Nat) : W24 := tget 0 (s.ax c).ph ph

/-- The cycle has ended: the row of each CYCLE unit that ran is complete (R652). -/
def State.endRows (s : State) : State :=
  (List.range 8).foldl (fun s u =>
    let x := s.acq u
    if s.acqFast u || x.st = .idle || (tget none s.runs (acqCtx u)).isNone then s
    else
      let src (n : Nat) : Nat := s.rf (ACQ_CH n) u 23 16
      let late (n : Nat) : Bool := match tget none s.runs (src n) with
        | some r => r.aborted
        | none => true
      let kept := (s.channels u).filter (fun n => s.chKind u n == 1 || s.chKind u n == 2)
      let stale := kept.filter late
      let vals := (kept.filter (fun n => !late n)).foldl (fun m n =>
        let w := s.rg (ACQ_CH n) u
        tset 0 m n (if s.chKind u n = 1 then s.peep (src n) (bitsOf w 4 0)
          else s.drawer (src n) (0x3E0 + bitsOf w 3 0))) x.vals
      let r : Row := { at_ := s.cyc.t0 + BitVec.ofNat 64 s.sampleOfs, vals := vals, stale := stale }
      s.setAcq u { x with vals := vals, row := some r }) s

/-- The unit's library stage has run: the row that waits is processed (R653). -/
def State.acqStage (s : State) (u : Nat) : State :=
  let x := s.acq u
  match x.row with
  | some r => (s.setAcq u { x with row := none }).acqRow u r
  | none => s

/-! ## Descriptors (R664, R665, R674) -/

/-- The unit that a descriptor names. -/
def acqOf (d : Desc) : Nat := bitsOf d.target 7 0 - 161

/-- The START record (R667). -/
def State.startRec (s : State) (u : Nat) (t : W64) : Rec :=
  let crc := crc32c ((List.range 32).flatMap (fun n => leBytes 4 (s.rg (ACQ_CH n) u).toNat))
  rec32 ([recType 4 u, 0, 0, 0] ++ leBytes 4 t.toNat ++
    [b2n (s.acqFast u), (s.fullLanes u).length, (s.decLanes u).length, 0] ++
    leBytes 4 (s.acqDec u) ++ leBytes 4 (s.acqPeriod u) ++ leBytes 4 crc.toNat) 0

/-- ACQ_START. -/
def applyAcqStart (d : Desc) (cmd : Option Cmd) (s : State) : State :=
  let u := acqOf d
  let x := s.acq u
  if x.st ≠ .idle || !s.ctxEn (acqCtx u) then s.complete cmd 0x0B10
  else
    let t := s.firstRow u
    let s := s.setAcq u { st := .run, lastRow := t - BitVec.ofNat 64 (s.acqPeriod u),
                          fires := x.fires, prod := x.prod, wr := x.wr, gap := x.gap }
    (s.takeRecs u [s.startRec u t]).1.complete cmd 0

/-- ACQ_START (R664). -/
def execAcqStart (d : Desc) (s : State) : Host.Outcome State Fault Refusal :=
  .next (s.runDesc 0x50 d applyAcqStart)

/-- ACQ_STOP. -/
def applyAcqStop (d : Desc) (cmd : Option Cmd) (s : State) : State :=
  let u := acqOf d
  let x := s.acq u
  if x.st = .idle then s.complete cmd 0x0B10
  else
    let r := rec32 ([recType 5 u, 0, 0, 0] ++ leBytes 4 x.lastRow.toNat ++ leBytes 4 x.rows.toNat) 0
    let s := (s.takeRecs u [r]).1
    let s := if (s.strm u).page = [] || !s.strmOpen u then s else s.closePage u
    (s.setAcq u { s.acq u with st := .idle, row := none, outside := [] }).complete cmd 0

/-- ACQ_STOP (R664). -/
def execAcqStop (d : Desc) (s : State) : Host.Outcome State Fault Refusal :=
  .next (s.runDesc 0x51 d applyAcqStop)

/-- The unit is a member of another unit's group. -/
def State.isMember (s : State) (u : Nat) : Bool :=
  match s.masterOf u with
  | some m => m != u
  | none => false

/-- The units that a descriptor to a unit acts on. -/
def State.armSet (s : State) (u : Nat) : List Nat :=
  match s.masterOf u with
  | some m => s.groupOf m
  | none => [u]

/-- ACQ_ARM. -/
def applyAcqArm (d : Desc) (cmd : Option Cmd) (s : State) : State :=
  let u := acqOf d
  if s.isMember u then s.complete cmd 0x0B11
  else if (s.acq u).st ≠ .run then s.complete cmd 0x0B10
  else
    let s := (s.armSet u).foldl (fun s k =>
      let x := s.acq k
      if x.st = .run then
        s.setAcq k { x with st := .armed, rearm := bitOf d.aux 0, fresh := true, lt0 := {}, lt1 := {},
                            holdoff := 0, outside := [] }
      else s) s
    s.complete cmd 0

/-- ACQ_ARM (R664, R665). -/
def execAcqArm (d : Desc) (s : State) : Host.Outcome State Fault Refusal :=
  .next (s.runDesc 0x52 d applyAcqArm)

/-- ACQ_DISARM. -/
def applyAcqDisarm (d : Desc) (cmd : Option Cmd) (s : State) : State :=
  let u := acqOf d
  if s.isMember u then s.complete cmd 0x0B11
  else
    let s := (s.armSet u).foldl (fun s k =>
      let x := s.acq k
      if x.st = .armed then s.setAcq k { x with st := .run, outside := [] } else s) s
    s.complete cmd 0

/-- ACQ_DISARM (R665). -/
def execAcqDisarm (d : Desc) (s : State) : Host.Outcome State Fault Refusal :=
  .next (s.runDesc 0x53 d applyAcqDisarm)

/-- ACQ_FORCE. -/
def applyAcqForce (d : Desc) (cmd : Option Cmd) (s : State) : State :=
  let u := acqOf d
  if (s.acq u).st ≠ .armed then s.complete cmd 0x0B10
  else (s.detect u { stamp := s.cyc.t0.toNat * 256, cause := 32, origin := u }).complete cmd 0

/-- ACQ_FORCE (R662). -/
def execAcqForce (d : Desc) (s : State) : Host.Outcome State Fault Refusal :=
  .next (s.runDesc 0x54 d applyAcqForce)

/-! ## TRIG_IO, pages and the ledger (R662, R666, R669, R673) -/

/-- TRIG_IO_EDGE (R662). -/
def execTrigIoEdge (s : State) : Host.Outcome State Fault Refusal :=
  if !s.isOn 20 then .next s
  else
    if s.trig.low.isSome then .next s
    else
      let st := (s.bt - BitVec.ofNat 64 (s.rf ACQ_TRIG_IO 0 7 0)).toNat * 256
      .next ((List.range 8).foldl (fun s u =>
        if bitOf (s.rg ACQ_TRIG_CTL u) 4 then s.detect u { stamp := st, cause := 16, origin := u }
        else s) s)

/-- A compare slot's ACQ_TRIG action fires a unit (R370, R662). -/
def State.acqEvent (s : State) (u slot stamp : Nat) : State :=
  if bitOf (s.rg ACQ_TRIG_CTL u) 3 then
    s.detect u { stamp := stamp * 256, cause := 8, origin := u, slot := slot }
  else s

/-- TRIG_IO_PULSE_END (R666). -/
def State.trigIoPulseEnd (s : State) : State :=
  match s.trig.low with
  | none => s
  | some t => ({ s.upTo (t + 1000) with trig.low := none }.out (.ball .trigIo .hiz))

/-- TRIG_IO_PULSE_END. -/
def execTrigIoPulseEnd (s : State) : Host.Outcome State Fault Refusal :=
  .next (s.trigIoPulseEnd)

/-- PAGE_TMO in µs. -/
def State.pageTmo (s : State) : Nat := s.rf ACQ_PAGE_TMO 0 15 0

/-- ACQ_PAGE_TIMEOUT (R669). -/
def execAcqPageTimeout (k : Fin 9) (s : State) : Host.Outcome State Fault Refusal :=
  let x := s.strm k
  if x.page = [] || !s.strmOpen k then .next s
  else .next ((s.upTo (x.pageAt + BitVec.ofNat 64 (s.pageTmo * 1000))).closePage k)

/-- The samples that wait in the writer buffer. -/
def State.smpPend (s : State) (u : Nat) : W32 := BitVec.ofNat 32 ((s.strm u).page.map Rec.samples).sum

/-- ACQ_LATCH (R673): the selected unit's ledger is copied in one step. -/
def State.acqLatch (s : State) (v : BitVec 32) : State :=
  if !s.isOn 1 then s
  else
    let u := s.rf ACQ_SEL 0 2 0
    let x := s.acq u
    if !bitOf v 0 then s
    else ((((s.setRg ACQ_SMP_PROD u x.prod).setRg ACQ_SMP_WR u x.wr).setRg ACQ_SMP_GAP u
      x.gap).setRg ACQ_SMP_PEND u (s.smpPend u))

/-- The command (the write of its register). -/
def execAcqLatch (v : BitVec 32) (s : State) : Host.Outcome State Fault Refusal :=
  .next (s.acqLatch v)

end Sys2Proof.Machine
end

