-- ==== Sys2Proof/Machine/LeSlots.lean ====
section
/-! DEFINITION. The three slots of a Loop Engine word: what each operation is, how its slot is
encoded, and what a slot's bits are read as (R160 to R188). -/

namespace Sys2Proof.Machine

/-! ## The CMAC slot -/

/-- A CMAC-slot operation (R164). -/
inductive CmacOp where
  | nop
  | clra (k : BitVec 2)
  | mpy (i neg : Bool) (k : BitVec 2) (x y : BitVec 5)
  | mac (i neg : Bool) (k : BitVec 2) (x y : BitVec 5)
  | mpy2 (i neg : Bool) (k : BitVec 2) (x y : BitVec 5)
  | mac2 (i neg : Bool) (k : BitVec 2) (x y : BitVec 5)
  | cmpy (i neg : Bool) (k : BitVec 2) (x y : BitVec 5)
  | cmac (i neg : Bool) (k : BitVec 2) (x y : BitVec 5)
  | cmpyC (i neg : Bool) (k : BitVec 2) (x y : BitVec 5)
  | cmacC (i neg : Bool) (k : BitVec 2) (x y : BitVec 5)
  | adda (neg : Bool) (k j : BitVec 2)
  | asra (k : BitVec 2) (sh : BitVec 5)
  | asla (k : BitVec 2) (sh : BitVec 5)
  | lda (i neg : Bool) (k : BitVec 2) (x : BitVec 5)
  deriving DecidableEq, Repr

/-- One bit. -/
def bit1 (b : Bool) : BitVec 1 := BitVec.ofBool b

/-- The fields of R163, laid out. -/
def cmacWord (op : BitVec 4) (i neg : Bool) (k : BitVec 2) (x y : BitVec 5) : BitVec 18 :=
  op ++ bit1 i ++ bit1 neg ++ k ++ x ++ y

/-- The slot bits of a CMAC-slot operation (R163, R164). -/
def encCmac : CmacOp → BitVec 18
  | .nop => 0
  | .clra k => cmacWord 0x1 false false k 0 0
  | .mpy i n k x y => cmacWord 0x2 i n k x y
  | .mac i n k x y => cmacWord 0x3 i n k x y
  | .mpy2 i n k x y => cmacWord 0x4 i n k x y
  | .mac2 i n k x y => cmacWord 0x5 i n k x y
  | .cmpy i n k x y => cmacWord 0x6 i n k x y
  | .cmac i n k x y => cmacWord 0x7 i n k x y
  | .cmpyC i n k x y => cmacWord 0x8 i n k x y
  | .cmacC i n k x y => cmacWord 0x9 i n k x y
  | .adda n k j => cmacWord 0xA false n k 0 (j.setWidth 5)
  | .asra k sh => cmacWord 0xB false false k 0 sh
  | .asla k sh => cmacWord 0xC false false k 0 sh
  | .lda i n k x => cmacWord 0xD i n k x 0

/-- What a CMAC slot holds; none for a reserved encoding (R162, R164, R167). -/
def decCmac (w : BitVec 18) : Option CmacOp :=
  let i := w.getLsbD 13
  let n := w.getLsbD 12
  let k := w.extractLsb' 10 2
  let x := w.extractLsb' 5 5
  let y := w.extractLsb' 0 5
  match (w.extractLsb' 14 4).toNat with
  | 0x0 => some .nop
  | 0x1 => some (.clra k)
  | 0x2 => some (.mpy i n k x y)
  | 0x3 => some (.mac i n k x y)
  | 0x4 => some (.mpy2 i n k x y)
  | 0x5 => some (.mac2 i n k x y)
  | 0x6 => some (.cmpy i n k x y)
  | 0x7 => some (.cmac i n k x y)
  | 0x8 => some (.cmpyC i n k x y)
  | 0x9 => some (.cmacC i n k x y)
  | 0xA => some (.adda n k (w.extractLsb' 0 2))
  | 0xB => if 1 ≤ y.toNat && y.toNat ≤ 24 then some (.asra k y) else none
  | 0xC => if 1 ≤ y.toNat && y.toNat ≤ 8 then some (.asla k y) else none
  | 0xD => some (.lda i n k x)
  | _ => none

/-- The operands of an operation that works on a pair (R164). -/
def CmacOp.pair? : CmacOp → Option (BitVec 2 × BitVec 5 × BitVec 5)
  | .mpy2 _ _ k x y | .mac2 _ _ k x y | .cmpy _ _ k x y | .cmac _ _ k x y
  | .cmpyC _ _ k x y | .cmacC _ _ k x y => some (k, x, y)
  | _ => none

/-- The accumulators that an operation writes (R192, item 7). -/
def CmacOp.writes (op : CmacOp) : List Nat :=
  match op with
  | .nop => []
  | .clra k | .mpy _ _ k _ _ | .mac _ _ k _ _ | .adda _ k _ | .asra k _ | .asla k _
  | .lda _ _ k _ => [k.toNat]
  | .mpy2 _ _ k _ _ | .mac2 _ _ k _ _ | .cmpy _ _ k _ _ | .cmac _ _ k _ _
  | .cmpyC _ _ k _ _ | .cmacC _ _ k _ _ => [k.toNat, k.toNat + 1]

/-! ## The memory slot -/

/-- A memory-slot operation (R170 to R177). -/
inductive MemOp where
  | nop
  | ld (d : BitVec 5) (am : AddrMode)
  | st (x : BitVec 5) (am : AddrMode)
  | stAcc (m k : BitVec 2) (am : AddrMode)
  | pair (k : BitVec 5) (p : BitVec 3) (d : BitVec 10)
  | dual (ar : BitVec 5) (ap : BitVec 3) (ainc : Bool) (b : DualB) (bp : BitVec 3) (binc : Bool)
  | mvo (k : BitVec 4) (x : BitVec 5)
  | mvoAcc (k : BitVec 4) (m a : BitVec 2)
  | put (k : BitVec 4)
  | putd (k : BitVec 4)
  | xfer (write : Bool) (x : BitVec 5) (n : BitVec 3) (len : BitVec 6)
  deriving DecidableEq, Repr

/-- The address field of a single access: AB and A, or P, PM and D (R171). -/
def encAddr : AddrMode → BitVec 15
  | .abs a => 1#1 ++ a
  | .disp p d => 0#1 ++ p ++ 0#1 ++ d
  | .post p => 0#1 ++ p ++ 1#1 ++ 0#10

/-- What an address field holds (R171). -/
def decAddr (w : BitVec 15) : Option AddrMode :=
  if w.getLsbD 14 then some (.abs (w.extractLsb' 0 14))
  else if w.getLsbD 10 then
    if w.extractLsb' 0 10 = 0 then some (.post (w.extractLsb' 11 3)) else none
  else some (.disp (w.extractLsb' 11 3) (w.extractLsb' 0 10))

/-- The slot bits of a memory-slot operation. -/
def encMem : MemOp → BitVec 24
  | .nop => 0
  | .ld d am => 1#2 ++ 0#2 ++ d ++ encAddr am
  | .st x am => 1#2 ++ 1#2 ++ x ++ encAddr am
  | .stAcc m k am => 1#2 ++ 2#2 ++ m ++ 0#1 ++ k ++ encAddr am
  | .pair k p d => 2#2 ++ k ++ p ++ 0#4 ++ d
  | .dual ar ap ainc b bp binc =>
    let bt : BitVec 7 := match b with
      | .none => 0
      | .ld d => 1#2 ++ d
      | .st x => 2#2 ++ x
      | .acc m k => 3#2 ++ m ++ 0#1 ++ k
    3#2 ++ ar ++ ap ++ bit1 ainc ++ bt ++ bp ++ bit1 binc ++ 0#2
  | .mvo k x => 0#2 ++ 1#4 ++ k ++ x ++ 0#9
  | .mvoAcc k m a => 0#2 ++ 2#4 ++ k ++ m ++ a ++ 0#10
  | .put k => 0#2 ++ 3#4 ++ k ++ 0#14
  | .putd k => 0#2 ++ 4#4 ++ k ++ 0#14
  | .xfer wr x n len => 0#2 ++ (if wr then 6#4 else 5#4) ++ x ++ n ++ len ++ 0#4

/-- What a memory slot holds; none for a reserved encoding. -/
def decMem (w : BitVec 24) : Option MemOp :=
  match (w.extractLsb' 22 2).toNat with
  | 0 =>
    match (w.extractLsb' 18 4).toNat with
    | 0x0 => if w.extractLsb' 0 18 = 0 then some .nop else none
    | 0x1 => some (.mvo (w.extractLsb' 14 4) (w.extractLsb' 9 5))
    | 0x2 => some (.mvoAcc (w.extractLsb' 14 4) (w.extractLsb' 12 2) (w.extractLsb' 10 2))
    | 0x3 => some (.put (w.extractLsb' 14 4))
    | 0x4 => some (.putd (w.extractLsb' 14 4))
    | 0x5 => some (.xfer false (w.extractLsb' 13 5) (w.extractLsb' 10 3) (w.extractLsb' 4 6))
    | 0x6 => some (.xfer true (w.extractLsb' 13 5) (w.extractLsb' 10 3) (w.extractLsb' 4 6))
    | _ => none
  | 1 =>
    match decAddr (w.extractLsb' 0 15), (w.extractLsb' 20 2).toNat with
    | some am, 0 => some (.ld (w.extractLsb' 15 5) am)
    | some am, 1 => some (.st (w.extractLsb' 15 5) am)
    | some am, 2 =>
      if w.getLsbD 17 then none
      else some (.stAcc (w.extractLsb' 18 2) (w.extractLsb' 15 2) am)
    | _, _ => none
  | 2 =>
    if w.extractLsb' 10 4 ≠ 0 ∨ w.extractLsb' 17 5 = 31 then none
    else some (.pair (w.extractLsb' 17 5) (w.extractLsb' 14 3) (w.extractLsb' 0 10))
  | _ =>
    if w.extractLsb' 0 2 ≠ 0 then none
    else
      let mk (b : DualB) : MemOp :=
        .dual (w.extractLsb' 17 5) (w.extractLsb' 14 3) (w.getLsbD 13) b (w.extractLsb' 3 3)
          (w.getLsbD 2)
      match (w.extractLsb' 11 2).toNat with
      | 0 => some (mk .none)
      | 1 => some (mk (.ld (w.extractLsb' 6 5)))
      | 2 => some (mk (.st (w.extractLsb' 6 5)))
      | _ => if w.getLsbD 8 then none else some (mk (.acc (w.extractLsb' 9 2) (w.extractLsb' 6 2)))

/-! ## The ALU/control slot -/

/-- An operation on three data registers (R181, format R3). -/
inductive R3Op where
  | add | adc | sub | sbc | and | or | xor | lsl | lsr | asr | min | max
  deriving DecidableEq, Repr

/-- A shift by an immediate count (R181). -/
inductive ShOp where
  | lsl | lsr | asr
  deriving DecidableEq, Repr

/-- An operation with an 11-bit immediate (R181, format RI). -/
inductive RiOp where
  | addi | movi | movhi | ori
  deriving DecidableEq, Repr

/-- An ALU/control-slot operation (R181). -/
inductive AluOp where
  | nop
  | r3 (op : R3Op) (d a b : BitVec 5)
  | abs (d a : BitVec 5)
  | cmp (a b : BitVec 5)
  | mov (d a : BitVec 5)
  | ri (op : RiOp) (d : BitVec 5) (imm : BitVec 11)
  | sh (op : ShOp) (d a u : BitVec 5)
  | mvcTo (cr : BitVec 6) (x : BitVec 5)
  | mvcFrom (d : BitVec 5) (cr : BitVec 6)
  | moviCr (cr : BitVec 6) (imm : BitVec 10)
  | moviLc (u : BitVec 16)
  | mvxFrom (d : BitVec 5) (k part : BitVec 2)
  | mvxTo (k part : BitVec 2) (x : BitVec 5)
  | movAcc (d : BitVec 5) (m k : BitVec 2)
  | br (t : BitVec 13)
  | bcc (c : BitVec 3) (t : BitVec 13)
  | dbnz (t : BitVec 13)
  | brr (t : BitVec 13)
  | jr (x : BitVec 5)
  | tend (mask : BitVec 16)
  | rete
  | brk (u : BitVec 16)
  deriving DecidableEq, Repr

/-- The opcode of an R3 operation. -/
def R3Op.code : R3Op → BitVec 6
  | .add => 0x01
  | .adc => 0x02
  | .sub => 0x03
  | .sbc => 0x04
  | .and => 0x05
  | .or => 0x06
  | .xor => 0x07
  | .lsl => 0x08
  | .lsr => 0x09
  | .asr => 0x0A
  | .min => 0x0B
  | .max => 0x0C

/-- The opcode of an immediate shift. -/
def ShOp.code : ShOp → BitVec 6
  | .lsl => 0x14
  | .lsr => 0x15
  | .asr => 0x16

/-- The opcode of an immediate operation. -/
def RiOp.code : RiOp → BitVec 6
  | .addi => 0x10
  | .movi => 0x11
  | .movhi => 0x12
  | .ori => 0x13

/-- The R3 format of R180. -/
def r3Word (op : BitVec 6) (d a b : BitVec 5) : BitVec 22 := op ++ 0#1 ++ d ++ a ++ b

/-- The control registers of R184 that exist, and those that a program may write. -/
def crExists (cr : BitVec 6) : Bool := cr.toNat ≤ 0x25
def crWritable (cr : BitVec 6) : Bool := cr.toNat ≤ 0x22

/-- The slot bits of an ALU/control-slot operation (R180, R181). -/
def encAlu : AluOp → BitVec 22
  | .nop => 0
  | .r3 op d a b => r3Word op.code d a b
  | .abs d a => r3Word 0x0D d a 0
  | .cmp a b => r3Word 0x0E 0 a b
  | .mov d a => r3Word 0x0F d a 0
  | .ri op d imm => op.code ++ d ++ imm
  | .sh op d a u => r3Word op.code d a u
  | .mvcTo cr x => 0x18#6 ++ cr ++ 0#5 ++ x
  | .mvcFrom d cr => 0x19#6 ++ cr ++ 0#5 ++ d
  | .moviCr cr imm => 0x1A#6 ++ cr ++ imm
  | .moviLc u => 0x1B#6 ++ u
  | .mvxFrom d k part => 0x1C#6 ++ 0#1 ++ d ++ part ++ 0#6 ++ k
  | .mvxTo k part x => 0x1D#6 ++ 0#1 ++ x ++ part ++ 0#6 ++ k
  | .movAcc d m k => 0x1E#6 ++ 0#1 ++ d ++ m ++ 0#6 ++ k
  | .br t => 0x20#6 ++ 0#3 ++ t
  | .bcc c t => 0x21#6 ++ c ++ t
  | .dbnz t => 0x22#6 ++ 0#3 ++ t
  | .brr t => 0x23#6 ++ 0#3 ++ t
  | .jr x => r3Word 0x24 0 x 0
  | .tend m => 0x28#6 ++ m
  | .rete => 0x29#6 ++ 0#16
  | .brk u => 0x2A#6 ++ u

/-- What an ALU/control slot holds; none for a reserved encoding. -/
def decAlu (w : BitVec 22) : Option AluOp :=
  let d := w.extractLsb' 10 5
  let a := w.extractLsb' 5 5
  let b := w.extractLsb' 0 5
  let rs := w.getLsbD 15
  let cr := w.extractLsb' 10 6
  let part := w.extractLsb' 8 2
  let ax0 := rs || decide (w.extractLsb' 2 6 ≠ 0)
  let k := w.extractLsb' 0 2
  let t := w.extractLsb' 0 13
  let c := w.extractLsb' 13 3
  let r3 (op : R3Op) : Option AluOp := if rs then none else some (.r3 op d a b)
  match (w.extractLsb' 16 6).toNat with
  | 0x00 => if w.extractLsb' 0 16 = 0 then some .nop else none
  | 0x01 => r3 .add
  | 0x02 => r3 .adc
  | 0x03 => r3 .sub
  | 0x04 => r3 .sbc
  | 0x05 => r3 .and
  | 0x06 => r3 .or
  | 0x07 => r3 .xor
  | 0x08 => r3 .lsl
  | 0x09 => r3 .lsr
  | 0x0A => r3 .asr
  | 0x0B => r3 .min
  | 0x0C => r3 .max
  | 0x0D => if rs || b ≠ 0 then none else some (.abs d a)
  | 0x0E => if rs || d ≠ 0 then none else some (.cmp a b)
  | 0x0F => if rs || b ≠ 0 then none else some (.mov d a)
  | 0x10 => some (.ri .addi (w.extractLsb' 11 5) (w.extractLsb' 0 11))
  | 0x11 => some (.ri .movi (w.extractLsb' 11 5) (w.extractLsb' 0 11))
  | 0x12 => some (.ri .movhi (w.extractLsb' 11 5) (w.extractLsb' 0 11))
  | 0x13 => some (.ri .ori (w.extractLsb' 11 5) (w.extractLsb' 0 11))
  | 0x14 => if rs then none else some (.sh .lsl d a b)
  | 0x15 => if rs then none else some (.sh .lsr d a b)
  | 0x16 => if rs then none else some (.sh .asr d a b)
  | 0x18 => if crWritable cr then some (.mvcTo cr b) else none
  | 0x19 => if crExists cr then some (.mvcFrom b cr) else none
  | 0x1A => if crWritable cr then some (.moviCr cr (w.extractLsb' 0 10)) else none
  | 0x1B => some (.moviLc (w.extractLsb' 0 16))
  | 0x1C => if ax0 || part = 3 then none else some (.mvxFrom d k part)
  | 0x1D => if ax0 || part = 3 then none else some (.mvxTo k part d)
  | 0x1E => if ax0 then none else some (.movAcc d part k)
  | 0x20 => if c ≠ 0 then none else some (.br t)
  | 0x21 => some (.bcc c t)
  | 0x22 => if c ≠ 0 then none else some (.dbnz t)
  | 0x23 => if c ≠ 0 then none else some (.brr t)
  | 0x24 => if rs || d ≠ 0 || b ≠ 0 then none else some (.jr a)
  | 0x28 => some (.tend (w.extractLsb' 0 16))
  | 0x29 => if w.extractLsb' 0 16 = 0 then some .rete else none
  | 0x2A => some (.brk (w.extractLsb' 0 16))
  | _ => none

/-- The operation is a transfer (R192, item 1). -/
def AluOp.transfer : AluOp → Bool
  | .br _ | .bcc _ _ | .dbnz _ | .brr _ | .jr _ | .tend _ | .rete => true
  | _ => false

/-! ## The word -/

/-- The slots of a word (R160). -/
def slotCmac (w : BitVec 64) : BitVec 18 := w.extractLsb' 46 18
def slotMem (w : BitVec 64) : BitVec 24 := w.extractLsb' 22 24
def slotAlu (w : BitVec 64) : BitVec 22 := w.extractLsb' 0 22

/-- A word from its three slots (R160). -/
def leWord (c : BitVec 18) (m : BitVec 24) (a : BitVec 22) : BitVec 64 := c ++ m ++ a

/-- The word of an issue whose CMAC slot holds `op`. -/
def withCmac (w : BitVec 64) (op : CmacOp) : BitVec 64 :=
  leWord (encCmac op) (slotMem w) (slotAlu w)
def withMem (w : BitVec 64) (op : MemOp) : BitVec 64 :=
  leWord (slotCmac w) (encMem op) (slotAlu w)
def withAlu (w : BitVec 64) (op : AluOp) : BitVec 64 :=
  leWord (slotCmac w) (slotMem w) (encAlu op)

end Sys2Proof.Machine
end

