-- ==== Sys2Proof/Machine/Operands.lean ====
section
/-! DEFINITION. The operand forms of the Loop Engines: rotating registers, address modes, access
rights, accumulators and their conversions (R107 to R133, R164 to R167). -/

namespace Sys2Proof.Machine

/-! ## Registers -/

/-- The physical register of a logical one (R115). -/
def physD (rotb : BitVec 4) (k : Nat) : Nat := if k < 16 then k else 16 + (k - 16 + rotb.toNat) % 16

/-- A data register, by its logical number. -/
def Engine.dreg (x : Engine) (k : Nat) : W24 := tget 0 x.d (physD x.rotb k)

/-- The engine with the register of a logical number written. -/
def Engine.setDreg (x : Engine) (k : Nat) (v : W24) : Engine :=
  { x with d := tset 0 x.d (physD x.rotb k) v }

/-- The status word as a program reads it (R113): XB and the pins are live. -/
def Engine.swRead (x : Engine) : W24 :=
  (x.sw &&& 0x000F8F) ||| (x.acc.pin.setWidth 24 <<< 12) ||| (if x.xfer.isSome then 0x10000 else 0)

/-- SW.EXH. -/
def Engine.exh (x : Engine) : Bool := bitOf x.sw 11

/-- The bits of SW's sticky flags (R113). -/
def swEcc1 : W24 := 0x400
def swAccv : W24 := 0x200
def swModv : W24 := 0x100
def swSat : W24 := 0x080

/-! ## Accumulators -/

/-- One accumulator with its excursion counter and pin. -/
structure AccV where
  v : W56
  ex : Int
  pin : Bool
  deriving DecidableEq, Repr

/-- Accumulator `k` of a set. -/
def Accs.get (a : Accs) (k : Nat) : AccV :=
  match k with
  | 0 => ⟨a.a0, a.ex0, a.pin.getLsbD 0⟩
  | 1 => ⟨a.a1, a.ex1, a.pin.getLsbD 1⟩
  | 2 => ⟨a.a2, a.ex2, a.pin.getLsbD 2⟩
  | _ => ⟨a.a3, a.ex3, a.pin.getLsbD 3⟩

/-- A 4-bit set of pins with pin `k` set to `b`. -/
def setPin (p : BitVec 4) (k : Nat) (b : Bool) : BitVec 4 :=
  if b then p ||| BitVec.ofNat 4 (2 ^ k) else p &&& ~~~ BitVec.ofNat 4 (2 ^ k)

/-- The set with accumulator `k` replaced. -/
def Accs.set (a : Accs) (k : Nat) (x : AccV) : Accs :=
  match k with
  | 0 => { a with a0 := x.v, ex0 := x.ex, pin := setPin a.pin 0 x.pin }
  | 1 => { a with a1 := x.v, ex1 := x.ex, pin := setPin a.pin 1 x.pin }
  | 2 => { a with a2 := x.v, ex2 := x.ex, pin := setPin a.pin 2 x.pin }
  | _ => { a with a3 := x.v, ex3 := x.ex, pin := setPin a.pin 3 x.pin }

/-- A change of an excursion counter by `d` (R122): it stays at its limit and pins, and a pinned
one does not change. -/
def moveEx (ex : Int) (pin : Bool) (d : Int) : Int × Bool :=
  if pin then (ex, true)
  else if ex + d > 3 then (3, true)
  else if ex + d < -4 then (-4, true)
  else (ex + d, false)

/-- An addition into an accumulator (R121). -/
def accAdd (x : AccV) (t : Int) : AccV :=
  let sum := x.v.toInt + t
  let d : Int := if 2 ^ 55 ≤ sum then 1 else if sum < -(2 ^ 55) then -1 else 0
  let m := moveEx x.ex x.pin d
  ⟨BitVec.ofInt 56 sum, m.1, m.2⟩

/-- A fresh accumulator value: EX 0, pin clear (R122, R164). -/
def accNew (t : Int) : AccV := ⟨BitVec.ofInt 56 t, 0, false⟩

/-- A product (R117), as an exact integer of the accumulator's scale; the two forms have the same
integer product and differ in how its bits are read. -/
def product (neg : Bool) (a b : W24) : Int :=
  let p := a.toInt * b.toInt
  if neg then -p else p

/-- ADDA (R166). -/
def accAdda (neg : Bool) (k j : AccV) : AccV :=
  let t := if neg then -j.v.toInt else j.v.toInt
  let ej := if neg then -j.ex else j.ex
  let r := accAdd k t
  if j.pin then
    ⟨r.v, (if ej > 3 then 3 else ej), true⟩
  else
    let m := moveEx r.ex r.pin ej
    ⟨r.v, m.1, m.2⟩

/-- The write-back of a shifted exact value (R167). -/
def accPut (v : Int) : AccV :=
  let a := (BitVec.ofInt 56 v)
  let m := moveEx 0 false ((v - a.toInt) / 2 ^ 56)
  ⟨a, m.1, m.2⟩

/-- ASRA (R167): rounds toward minus infinity. -/
def accAsra (x : AccV) (sh : Nat) : AccV :=
  if x.pin then ⟨BitVec.ofInt 56 (x.v.toInt / 2 ^ sh), x.ex, true⟩
  else accPut ((x.v.toInt + x.ex * 2 ^ 56) / 2 ^ sh)

/-- ASLA (R167). -/
def accAsla (x : AccV) (sh : Nat) : AccV :=
  if x.pin then ⟨BitVec.ofInt 56 (x.v.toInt * 2 ^ sh), x.ex, true⟩
  else accPut ((x.v.toInt + x.ex * 2 ^ 56) * 2 ^ sh)

/-- A value held within a signed range of `w` bits, and whether it saturated. -/
def satInt (w : Nat) (v : Int) : Int × Bool :=
  if v > 2 ^ (w - 1) - 1 then (2 ^ (w - 1) - 1, true)
  else if v < -(2 ^ (w - 1)) then (-(2 ^ (w - 1)), true)
  else (v, false)

/-- The width of a store mode's target (R123, R172). -/
def modeWidth (m : BitVec 2) : Nat := if m = 1 ∨ m = 2 then 48 else 24

/-- A store mode's conversion of an accumulator, before the choice of a half (R123 to R125). -/
def convFull (m : BitVec 2) (x : AccV) : Int × Bool :=
  let w := modeWidth m
  if x.ex > 0 then (2 ^ (w - 1) - 1, true)
  else if x.ex < 0 then (-(2 ^ (w - 1)), true)
  else if m = 0 then satInt 24 ((x.v.toInt + 2 ^ 22) / 2 ^ 23)
  else satInt w x.v.toInt

/-- The word that a store or move of an accumulator gives (R172), and whether it saturated. -/
def conv (m : BitVec 2) (x : AccV) : W24 × Bool :=
  let r := convFull m x
  let v := if m = 1 then r.1 / 2 ^ 24 else r.1
  (BitVec.ofInt 24 v, r.2)

/-- MVX from an accumulator (R126). -/
def mvxRead (part : BitVec 2) (x : AccV) : W24 :=
  match part.toNat with
  | 0 => x.v.extractLsb' 0 24
  | 1 => x.v.extractLsb' 24 24
  | _ => 0#12 ++ bit1 x.pin ++ BitVec.ofInt 3 x.ex ++ x.v.extractLsb' 48 8

/-- MVX into an accumulator (R126). -/
def mvxWrite (part : BitVec 2) (x : AccV) (w : W24) : AccV :=
  match part.toNat with
  | 0 => { x with v := x.v.extractLsb' 24 32 ++ w }
  | 1 => { x with v := x.v.extractLsb' 48 8 ++ w ++ x.v.extractLsb' 0 24 }
  | _ => ⟨w.extractLsb' 0 8 ++ x.v.extractLsb' 0 48, (w.extractLsb' 8 3).toInt, w.getLsbD 11⟩

/-! ## Addresses -/

/-- The effective address of `[Pn+#d]` with a given offset (R130, R133), and whether MODV is
set. -/
def Engine.ea (x : Engine) (p : Nat) (ofs : BitVec 14) (d : Nat) : Nat × Bool :=
  let b := (tget 0 x.base p).toNat
  let l := (tget 0 x.len p).toNat
  if l = 0 then ((b + ofs.toNat + d) % 16384, false)
  else if ofs.toNat < l then ((b + (ofs.toNat + d) % l) % 16384, false)
  else ((b + ofs.toNat + d) % 16384, true)

/-- The offset after a post-modify (R131). -/
def Engine.postOfs (x : Engine) (p : Nat) (ofs : BitVec 14) : BitVec 14 :=
  let l := (tget 0 x.len p).toNat
  let t : Int := ofs.toNat + (tget 0 x.str p).toInt
  if l = 0 then BitVec.ofInt 14 t else BitVec.ofInt 14 (t % l)

/-- An access: its address, whether MODV is set, and the offsets after it. -/
structure Acx where
  a : Nat
  modv : Bool := false
  ofs : Table (BitVec 14)
  deriving DecidableEq, Repr

/-- An access through a pointer, with the offsets that stand before it (R129 to R133, R175). -/
def Engine.viaPtr (x : Engine) (ofs : Table (BitVec 14)) (p d : Nat) (inc : Bool) : Acx :=
  let o := tget 0 ofs p
  let r := x.ea p o d
  ⟨r.1, r.2, if inc then tset 0 ofs p (x.postOfs p o) else ofs⟩

/-- An access in one of the four modes (R129). -/
def Engine.viaMode (x : Engine) : AddrMode → Acx
  | .abs a => ⟨a.toNat, false, x.ofs⟩
  | .disp p d => x.viaPtr x.ofs p.toNat d.toNat false
  | .post p => x.viaPtr x.ofs p.toNat 0 true

/-! ## The local data memory -/

/-- Scratch (R106). -/
def isScratch (a : Nat) : Bool := 0x3000 ≤ a && a < 0x3800

/-- A read that R106 allows the running stage. -/
def mayRead (slot a : Nat) : Bool :=
  (slot * 1024 ≤ a && a < slot * 1024 + 1024) || 0x3000 ≤ a

/-- A write that R106 and R108 allow the running stage. -/
def mayWrite (slot a : Nat) : Bool :=
  (slot * 1024 ≤ a && a < slot * 1024 + 1023) || isScratch a

/-- A scratch address in the range of the running transfer (R179). -/
def Xfer.covers (t : Xfer) (a : Nat) : Bool := t.scr ≤ a && a < t.scr + t.len

/-- The library stage whose state word stands at an LDM address of the running stage's drawer; none where
a loop program has written the word since (R106, R196). -/
def EngRun.libWord (r : EngRun) (a : Nat) : Option Nat :=
  if libStateWord (a % 1024) && r.slot == a / 1024 && decide (a % 1024 ∉ r.libOwn) then r.lib else none

/-- A loop program writes an LDM address: a state word of the library there is then the program's. -/
def EngRun.noteWrite (r : EngRun) (a : Nat) : EngRun :=
  if (r.libWord a).isSome then { r with libOwn := a % 1024 :: r.libOwn } else r

/-- What the LDM holds at an address; the constant area holds the library's tables (R106),
and the library's state words in a drawer are its own (R196). -/
def Engine.ldmAt (x : Engine) (a : Nat) : W24 :=
  if isScratch a then
    match x.xfer with
    | some t =>
      if !t.write && t.covers a then Config.scratchXfer x.scrEpoch a x.n
      else (tget none x.scr a).getD (Config.scratch x.scrEpoch a)
    | none => (tget none x.scr a).getD (Config.scratch x.scrEpoch a)
  else if 0x3800 ≤ a then Config.constArea a
  else match x.run.bind (fun r => r.libWord a) with
    | some e => Config.libState e (a % 1024)
    | none => tget 0 x.ldm a

/-- The engine with an LDM word written, without a check of rights. A write makes fresh check
bits, so an uncorrectable mark and a pending write-back end. -/
def Engine.ldmPut (x : Engine) (a : Nat) (v : W24) : Engine :=
  let x := { x with bad := x.bad.filter (· ≠ a), fix := x.fix.filter (· ≠ a) }
  if isScratch a then
    let x := { x with scr := tset none x.scr a (some v) }
    match x.xfer with
    | some t => if t.covers a then { x with xfer := some { t with touched := a :: t.touched } } else x
    | none => x
  else { x with ldm := tset 0 x.ldm a v, run := x.run.map (fun r => r.noteWrite a) }

end Sys2Proof.Machine
end

