-- ==== Sys2Proof/Machine/Dispatcher.lean ====
section
/-! DEFINITION. The dispatcher's rows: dispatch, drawers, placement, cancels and the token latch
(R61 to R97, R804, R805). -/

namespace Sys2Proof.Machine

/-! ## Drawer moves (R64, R79, R805) -/

/-- The LDM entries of a drawer slot, by word number. -/
def slotWords (m : Table W24) (k : Nat) : Table W24 :=
  (m.filter (fun p => k * 1024 ≤ p.1 && p.1 < (k + 1) * 1024)).map
    (fun p => (p.1 - k * 1024, p.2))

/-- An LDM without the words of a drawer slot. -/
def clearSlot (m : Table W24) (k : Nat) : Table W24 :=
  m.filter (fun p => !(k * 1024 ≤ p.1 && p.1 < (k + 1) * 1024))

/-- An LDM with a drawer slot filled. -/
def fillSlot (m : Table W24) (k : Nat) (ws : Table W24) : Table W24 :=
  ws.foldl (fun m p => tset 0 m (k * 1024 + p.1) p.2) (clearSlot m k)

/-- The engine without the drawer in slot `k`. -/
def Engine.dropSlot (x : Engine) (k : Nat) : Engine :=
  { x with ldm := clearSlot x.ldm k, slots := tset 0 x.slots k 0,
           bad := x.bad.filter (fun a => a / 1024 != k), fix := x.fix.filter (fun a => a / 1024 != k),
           lru := x.lru.filter (· ≠ tget 0 x.slots k) }

/-- The engine with a drawer placed in slot `k`, as its most recently run. -/
def Engine.placeSlot (x : Engine) (k c : Nat) (ws : Table W24) : Engine :=
  { x with ldm := fillSlot x.ldm k ws, slots := tset 0 x.slots k c,
           lru := x.lru.filter (· ≠ c) ++ [c] }

/-- The counters of an uncorrectable word `w` of a drawer that moves: of its engine, or of the cabinet
(R81, R158, R775). -/
def State.drawerUe (s : State) (c w : Nat) : State :=
  match s.resident c with
  | some (e, _) => s.bump LE_ECC_UE e
  | none =>
    (s.bump CAB_ECC_UE).setRg CAB_UE_ADDR 0 (BitVec.ofNat 32 (2 ^ 31 + drawerHome c w))

/-- The word of a resident drawer that the scrubber or a read has marked uncorrectable (R155). -/
def State.markedWord (s : State) (c : Nat) : Option Nat :=
  match s.resident c with
  | some (e, k) => ((s.eng e).bad.find? (fun a => a / 1024 == k)).map (· % 1024)
  | none => none

/-- A drawer moves while word `w` of it is uncorrectable (R81): DRAWER_ECC, and its context is disabled at
the next hinge point. -/
def State.drawerBad (s : State) (c w : Nat) : State :=
  let s := (s.drawerUe c w).post 0x0C31 .severe c
  s.setCtx c { s.ctx c with disable := true }

/-- A drawer that moves without a dispatch: a marked word is found (R81, R155). -/
def State.foundMarked (s : State) (c : Nat) : State :=
  match s.markedWord c with
  | some w => s.drawerBad c w
  | none => s

/-- A drawer is written back to its cabinet home and leaves the LDM (R79); a bank that is not ON
takes nothing (R718). -/
def State.evict (s : State) (e k : Nat) : State :=
  let x := s.eng e
  let c := tget 0 x.slots k
  let ws (w : Nat) : W24 := s.drawerSeen c w
  let s := s.foundMarked c
  let s := s.touchBank (c * 4096)
  let s := if s.isOn 7 then
      (List.range 1024).foldl
        (fun s w => s.setCabWord (drawerHome c w) ((ws w).setWidth 32)) s
    else s
  s.setEng e ((s.eng e).dropSlot k)

/-- The words of a drawer at its cabinet home; a bank that is not ON reads 0. -/
def State.homeWords (s : State) (c : Nat) : Table W24 :=
  if s.isOn 7 then
    (List.range 1024).foldl
      (fun m w => tset 0 m w ((s.cabWord (drawerHome c w)).setWidth 24)) []
  else []

/-- Some stage of the context is running or ready (R79). -/
def State.ctxBusy (s : State) (c : Nat) : Bool := ((s.run c).map CtxRun.busy).getD false

/-- The slot that a drawer would take in an engine: a free one, else that of the least recently
run drawer of an idle context (R79). The second part says that it must be written back. -/
def State.slotFor (s : State) (e : Nat) : Option (Nat × Bool) :=
  let x := s.eng e
  match (List.range 12).find? (fun k => tget 0 x.slots k == 0) with
  | some k => some (k, false)
  | none =>
    match x.lru.find? (fun c => !s.ctxBusy c) with
    | some c => (x.slotOf c).map (fun k => (k, true))
    | none => none

/-- A drawer moves into an engine's LDM, with the 64 ns turns it takes (R79, R805). -/
def State.bringDrawer (s : State) (c e : Nat) : State × Nat × Bool :=
  match s.resident c with
  | some (e', k') =>
    if e' = e then (s, 0, false)
    else
      let ws := slotWords (s.eng e').ldm k'
      match s.slotFor e with
      | none => (s, 0, false)
      | some (k, ev) =>
        let s := if ev then s.evict e k else s
        let s := s.setEng e' ((s.eng e').dropSlot k')
        (s.setEng e ((s.eng e).placeSlot k c ws), (if ev then 2 else 1), true)
  | none =>
    match s.slotFor e with
    | none => (s, 0, false)
    | some (k, ev) =>
      let s := if ev then s.evict e k else s
      let s := s.touchBank (c * 4096)
      (s.setEng e ((s.eng e).placeSlot k c (s.homeWords c)), (if ev then 2 else 1), true)

/-! ## Engine choice (R75 to R80) -/

/-- PIN and KEEP of a header (R66). -/
def hdrPin (h : W64) : Nat := bitsOf h 44 43
def hdrPinId (h : W64) : Nat := bitsOf h 42 38
def hdrKeep (h : W64) : Nat := bitsOf h 37 32

/-- The context's pin and keep set allow an engine (R75). -/
def State.mayRun (s : State) (c e : Nat) : Bool :=
  let h := s.hdr c
  let pin := match hdrPin h with
    | 1 => e / 6 == hdrPinId h
    | 2 => e == hdrPinId h
    | _ => true
  pin && (hdrKeep h == 0 || (s.ctx c).home / 6 == e / 6)

/-- The engine's cluster takes stages. -/
def State.engUp (s : State) (e : Nat) : Bool := s.isOn (engDom e) && (s.dom (engDom e)).usable

/-- Which condition of R75 makes a ready stage eligible for an idle engine, 0 for none. -/
def State.eligible (s : State) (e c i : Nat) (x : StageRun) : Nat :=
  let h := s.hdr c
  let a := (s.ctx c).aff
  let w := (s.bt - x.readyAt).toNat
  let aff := s.rf DISP_AFF 0 9 0
  let room := ((s.resident c).map (fun p => p.1 == e)).getD false || (s.slotFor e).isSome
  let ok := s.mayRun c e && room && s.engUp e &&
    !((s.run c).map CtxRun.running).getD false &&
    (!stwBg (s.stw c i) || s.cyc.phase == .sill)
  if !ok then 0
  else if a == e then 1
  else if decide (aff ≤ w) && a / 6 == e / 6 && decide (a < 24) then 2
  else if decide (2 * aff ≤ w) && hdrPin h == 0 && hdrKeep h == 0 then 3
  else 0

/-- An engine is idle: it runs no stage and no transfer of the last one (R138). -/
def Engine.idle (x : Engine) : Bool := x.run.isNone && x.xfer.isNone

/-- The first stage in ready-list order that an engine may take (R76). -/
def State.firstFor (s : State) (e : Nat) : Option (Nat × Nat × Nat × StageRun) :=
  s.readyList.findSome? (fun t =>
    let k := s.eligible e t.1 t.2.1 t.2.2
    if k = 0 then none else some (k, t.1, t.2.1, t.2.2))

/-- The registers at the start of a stage (R80, R114); memories and drawers stay. -/
def Engine.start (x : Engine) (r : EngRun) (entry : BitVec 13) (epoch : Nat) : Engine :=
  { d := tset 0 (tset 0 [] 0 (BitVec.ofNat 24 r.ctx)) 1
      (BitVec.ofNat 24 (r.stage + (if r.cancelRun then 0x800000 else 0)))
    base := tset 0 [] 0 (BitVec.ofNat 14 (r.slot * 1024))
    pc := entry, run := some r, scrEpoch := epoch
    ldm := x.ldm, bad := x.bad, fix := x.fix, imFix := x.imFix, slots := x.slots, lru := x.lru,
    busy := x.busy, mean := x.mean }

/-- At the dispatch of ST0 of an axis, the flags word's bits are copied into FLAGS_SEEN and
cleared (R198). -/
def State.flagsSeen (s : State) (c : Nat) : State :=
  if c ≤ 128 then
    let f := s.drawer c 0x3FF
    (s.setDrawer c 0x3F2 (f &&& 0xF)).setDrawer c 0x3FF (f &&& ~~~ (0xF : W24))
  else s

/-- An idle engine takes a stage (R76, R79 to R81). -/
def State.dispatchTo (s : State) (e k c i : Nat) (x : StageRun) (ecc : Option (Fin 1024)) : State :=
  let src := ((s.resident c).map Prod.fst).getD 0xFF
  let moves := decide (src ≠ e)
  let ue := (ecc.map Fin.val).or (s.markedWord c)
  if moves && ue.isSome then (s.drawerBad c (ue.getD 0)).cancelStage c i x
  else
    let (s, turns, moved) := s.bringDrawer c e
    let s := if moved then s.trace .migrate c i 8 e src e else s
    let s := if i = 0 then s.flagsSeen c else s
    let w := s.stw c i
    let s := s.retireStage c i x
    let s := s.setStage c i { x with st := .running, delivered := 0, eng := e }
    let s := s.setCtx c { s.ctx c with aff := e }
    let r : EngRun :=
      { ctx := c, stage := i, slot := ((s.eng e).slotOf c).getD 0, cancelRun := x.cancelRun,
        flowEn := stwFlowEn w, near := bitOf (s.hdr c) 31 && decide (c ≤ 128),
        succ := stwSucc w, startAt := s.bt + BitVec.ofNat 64 (64 * turns), lib := s.libDraw c,
        libOwn := (tget {} s.axes c).libOwn }
    let (ep, s) := s.draw
    let y := (s.eng e).start r (stwEntry w) ep
    let s := s.setEng e { y with lru := y.lru.filter (· ≠ c) ++ [c] }
    let s := if k = 2 then s.bump DISP_SPILL_CL else if k = 3 then s.bump DISP_SPILL_ANY else s
    let flags := b2n x.cancelRun + (if k = 2 then 2 else 0) + (if k = 3 then 4 else 0) +
      (if moved then 8 else 0)
    s.trace .dispatch c i flags e (min (s.bt - x.readyAt).toNat 0xFFFF)
      (if stwFlowEn w then x.tag else 0xFFFF)

/-- A stage that waits for a shelf credit which it now holds enters its ready list, at the place of the
instant at which it became ready. -/
def State.readyOnCredit (s : State) (c i : Nat) : State :=
  match s.stage? c i with
  | some x => if x.st == .credit && s.hasCredit c i x then s.setStage c i { x with st := .ready } else s
  | none => s

/-- SHELF_CREDIT (R73, R88): the stages that wait for a shelf credit which they now hold enter
their ready lists, in ascending context and stage number. -/
def State.shelfCredit (s : State) : State :=
  s.runs.foldl (fun s p => (List.range 16).foldl (fun s i => s.readyOnCredit p.1 i) s) s

/-- SHELF_CREDIT. -/
def execShelfCredit (s : State) : Host.Outcome State Fault Refusal :=
  .next (s.shelfCredit)

/-! ## Cancel of a run (R91 to R95) -/

/-- A cancel token between stages of a run that is cancelled as a whole. -/
def State.markTok (s : State) (c j : Nat) : State :=
  match s.stage? c j with
  | none => s
  | some x =>
    if x.resolved || x.cnt = 0 then s else
    let s := if stwBg (s.stw c j) then s else s.issue 1
    s.setStage c j { x with cnt := x.cnt - 1, delivered := x.delivered + 1, cancelTok := true }

/-- A stage of a cancelled run loses its external-token requirement (R94). -/
def State.waive (s : State) (c i : Nat) : State :=
  match s.stage? c i with
  | none => s
  | some x =>
    if x.resolved then s
    else if stwTok (s.stw c i) ≠ 0 && !x.extSeen && x.cnt ≠ 0 then
      let s := if stwBg (s.stw c i) then s else s.issue 1
      s.setStage c i { x with cnt := x.cnt - 1, delivered := x.delivered + 1, extSeen := true,
                              cancelTok := true }
    else s.setStage c i { x with cancelTok := true }

/-- A stage of a cancelled run is resolved, or becomes ready for its cancel run (R92, R93). -/
def State.settle (s : State) (c i : Nat) : State :=
  match s.stage? c i with
  | none => s
  | some x =>
    if x.resolved then s
    else if stwRoc (s.stw c i) then
      if x.cnt = 0 then s.makeReady c i x else s
    else
      let s := s.markCancelled c i x
      (maskList (stwSucc (s.stw c i))).foldl (fun s j => s.markTok c j) s

/-- Every stage of a context's run is cancelled (R91 to R94). -/
def State.cancelRun (s : State) (c : Nat) : State :=
  match s.run c with
  | none => s
  | some r =>
    let s := s.setRun c { r with cancelled := true }
    let s := (List.range 16).foldl (fun s i => s.waive c i) s
    (List.range 16).foldl (fun s i => s.settle c i) s

/-- DISP_TOK_LATCH (R74): the live ledger is copied and cleared in one step. -/
def State.tokLatch (s : State) : State :=
  if !s.isOn 1 then s
  else
    let t := s.disp.tok
    let s := ((s.setRg DISP_TOK_ISSUED 0 t.issued).setRg DISP_TOK_RETIRED 0 t.retired).setRg
      DISP_TOK_DROPPED 0 t.dropped
    { s.setRg DISP_TOK_STRAY 0 t.stray with disp.tok := {} }

/-- The command (the write of its register). -/
def execDispTokLatch (s : State) : Host.Outcome State Fault Refusal :=
  .next (s.tokLatch)

/-! ## Homes and placement (R82 to R85, R804) -/

/-- The enabled contexts with a drawer of their own. -/
def State.enabledCtxs (s : State) : List Nat := (List.range 256).filter (fun c => s.ctxEn c)

/-- The homes on an engine. -/
def State.homesOn (s : State) (e : Nat) : Nat :=
  (s.enabledCtxs.filter (fun c => (s.ctx c).home == e)).length

/-- The entry with the least key, the earliest one first. -/
def leastBy {α : Type} (key : α → Nat) : List α → Option α
  | [] => none
  | a :: as => some (as.foldl (fun b x => if key x < key b then x else b) a)

/-- The entry with the greatest key, the earliest one first. -/
def mostBy {α : Type} (key : α → Nat) : List α → Option α
  | [] => none
  | a :: as => some (as.foldl (fun b x => if key b < key x then x else b) a)

/-- A cluster takes homes: it is ON and no entry of it has been requested (R85). -/
def State.takesHomes (s : State) (q : Nat) : Bool := s.isOn (3 + q) && decide (q ∉ s.disp.retain)

/-- The cluster of a keep set (R804, item 2): that of a pin, else that of its other members when it takes
homes, else the one with the fewest homes. -/
def State.keepCluster (s : State) (c : Nat) : Option Nat :=
  let k := hdrKeep (s.hdr c)
  let ms := s.enabledCtxs.filter (fun m => hdrKeep (s.hdr m) == k)
  let pins := ms.filterMap (fun m =>
    let h := s.hdr m
    match hdrPin h with
    | 1 => some (hdrPinId h)
    | 2 => some (hdrPinId h / 6)
    | _ => none)
  let homes := ((ms.filter (fun m => (s.ctx m).home < 24)).map (fun m => (s.ctx m).home / 6)).filter
    s.takesHomes
  let ons := (List.range 4).filter s.takesHomes
  (pins.head?).or ((homes.head?).or
    (leastBy (fun q => ((List.range 6).map (fun i => s.homesOn (6 * q + i))).sum) ons))

/-- The home engine that placement assigns to a context as it is enabled (R804). -/
def State.assignHome (s : State) (c : Nat) : State :=
  let h := s.hdr c
  let cl := if hdrKeep h = 0 then none else s.keepCluster c
  let ok (e : Nat) : Bool := s.takesHomes (e / 6) &&
    (match cl with
      | some q => e / 6 == q
      | none => true) &&
    (match hdrPin h with
      | 1 => e / 6 == hdrPinId h
      | _ => true)
  let e := if hdrPin h = 2 then some (hdrPinId h)
    else leastBy s.homesOn ((List.range 24).filter ok)
  match e with
  | some e => s.setCtx c { s.ctx c with home := e, aff := e }
  | none => s

/-- The engines of ON clusters. -/
def State.onEngines (s : State) : List Nat := (List.range 24).filter (fun e => s.isOn (engDom e))

/-- A move that R82, R84 and R85 allow: from the busiest engine, of a context whose own mean does
not exceed half the difference, to an ON engine that its pin and keep set allow. -/
def State.moveOk (s : State) (busiest half : Nat) (m : Move) : Bool :=
  (s.ctx m.ctx).home == busiest && decide ((s.ctx m.ctx).mean ≤ half) &&
    s.isOn (engDom m.dst) && decide (m.dst < 24) && hdrPin (s.hdr m.ctx) != 2 &&
    s.ctxEn m.ctx && s.mayRun m.ctx m.dst

/-- A keep set that moves to another cluster whole (R84). -/
def State.groupOk (s : State) (busiest half : Nat) (g : List Move) : Bool :=
  match g with
  | [m] => s.moveOk busiest half m
  | [] => false
  | m :: _ =>
    let k := hdrKeep (s.hdr m.ctx)
    let ms := s.enabledCtxs.filter (fun c => hdrKeep (s.hdr c) == k)
    k != 0 && ms == sortBy id (g.map Move.ctx) && decide (g.length ≤ s.rf DISP_PLACE 0 2 0) &&
      g.all (fun x => x.dst / 6 == m.dst / 6 && s.isOn (engDom x.dst) && decide (x.dst < 24) &&
        hdrPin (s.hdr x.ctx) == 0) &&
      g.any (fun x => (s.ctx x.ctx).home == busiest && decide ((s.ctx x.ctx).mean ≤ half))

/-- A cluster that placement may empty (R85): no pin names it, and the other ON engines carry the
measured load below 70 % of DEADLINE. -/
def State.mayEmpty (s : State) (q : Nat) : Bool :=
  let rest := s.onEngines.filter (fun e => e / 6 != q)
  let load := ((s.onEngines.map (fun e => (s.eng e).mean))).sum
  bitOf (s.rg DISP_PLACE) 16 && s.auto (3 + q) && s.isOn (3 + q) && decide (rest ≠ []) &&
    decide (10 * load < 7 * s.deadline * rest.length) &&
    s.enabledCtxs.all (fun c =>
      let h := s.hdr c
      !(hdrPin h == 1 && hdrPinId h == q) && !(hdrPin h == 2 && hdrPinId h / 6 == q))

/-- A T0 counts a cycle of the placement window; the 256th closes it, with the means per cycle of every
engine and context (R82). -/
def State.countWindow (s : State) : State :=
  let n := s.disp.window + 1
  if n < 256 then { s with disp.window := n }
  else
    let s := (List.range 24).foldl
      (fun s e => s.setEng e { s.eng e with mean := (s.eng e).busy / 256, busy := 0 }) s
    let s := s.ctxs.foldl (fun s p =>
      s.setCtx p.1 { s.ctx p.1 with mean := (s.ctx p.1).busy / 256, busy := 0 }) s
    { s with disp.window := 0, disp.due := true }

/-- The moves planned from the busiest engine `h` to correct a difference `diff` of the means
(R82), or the report that pins and keep sets prevent any. -/
def State.planMoves (s : State) (plan : List (List Move)) (h diff : Nat) : State :=
  let here := s.enabledCtxs.filter (fun c => (s.ctx c).home == h &&
    decide ((s.ctx c).mean ≤ diff / 2))
  let stuck := here.all (fun c =>
    s.onEngines.all (fun e => e == h || !s.mayRun c e || hdrPin (s.hdr c) == 2))
  let t := if decide (here ≠ []) && stuck then s.post 0x0C32 .info 0 else s
  { t with disp.plan := plan.filter (s.groupOk h (diff / 2)) }

/-- The comparison of the busiest and the least busy engine (R82). -/
def State.compareLoads (s : State) (plan : List (List Move)) : State :=
  match mostBy (fun e => (s.eng e).mean) s.onEngines, leastBy (fun e => (s.eng e).mean) s.onEngines with
  | some h, some l =>
    let diff := (s.eng h).mean - (s.eng l).mean
    if s.rf DISP_PLACE 0 15 8 * s.rf DISP_CYC_PERIOD 0 19 0 < 100 * diff then
      s.planMoves plan h diff
    else s
  | _, _ => s

/-- A retained cluster wakes when an engine is too busy (R727). -/
def State.wakeCluster (s : State) : State :=
  if s.onEngines.any (fun e => decide (7 * s.deadline < 10 * (s.eng e).mean)) then
    match (List.range 4).find? (fun q => s.auto (3 + q) && (s.dom (3 + q)).st == .ret) with
    | some q => (s.wakeDom (3 + q) []).post 0x0909 .info 0 (payOf [3 + q, 3])
    | none => s
  else s

/-- Placement's look at the finished window (R82, R85, R727). Which of the drawers that qualify are
moved, and where, is placement's own choice: `plan` and `empty` state it. -/
def State.placement (s : State) (plan : List (List Move)) (empty : Option Nat) : State :=
  let s := s.compareLoads plan
  let s := match empty with
    | some q => if s.mayEmpty q then { s with disp.retain := [q] } else s
    | none => s
  s.wakeCluster

/-- PLACEMENT_WINDOW (R82): placement looks at a window that has ended. With PLACE_EN = 0 it looks at
none, while the measurement goes on (DESIGN CHOICE, log 149). -/
def execPlacementWindow (plan : List (Nat × Nat)) (set : List (Nat × Nat)) (empty : Option (Fin 4))
    (s : State) : Host.Outcome State Fault Refusal :=
  let t := { s with disp.due := false }
  if !s.disp.due then .next s
  else if !bitOf (s.rg DISP_PLACE) 31 then .next t
  else
    let one := plan.map (fun p => [Move.mk p.1 p.2])
    let grp := if set = [] then [] else [set.map (fun p => Move.mk p.1 p.2)]
    .next (t.placement (one ++ grp) (empty.map Fin.val))

/-- A planned group of moves still keeps to pins and keep sets (R84), whatever has been committed since
it was planned: a single move within what its context may run on, or a keep set whole. -/
def State.stillOk (s : State) (g : List Move) : Bool :=
  g.all (fun m => s.ctxEn m.ctx && decide (m.dst < 24) && s.isOn (engDom m.dst)) &&
  (match g with
    | [] => false
    | [m] => hdrPin (s.hdr m.ctx) != 2 && s.mayRun m.ctx m.dst
    | m :: _ =>
      let k := hdrKeep (s.hdr m.ctx)
      k != 0 && s.enabledCtxs.filter (fun c => hdrKeep (s.hdr c) == k) == sortBy id (g.map Move.ctx) &&
        g.all (fun x => x.dst / 6 == m.dst / 6 && hdrPin (s.hdr x.ctx) == 0))

/-- Some stage of the context is running (R805). -/
def State.ctxRunning (s : State) (c : Nat) : Bool := ((s.run c).map CtxRun.running).getD false

/-- One planned move is carried out (R83): the drawer moves, and home and affinity engine change. The
record of a move by placement has STAGE 0 (DESIGN CHOICE, log 150). -/
def State.migrate (s : State) (m : Move) : State :=
  let src := ((s.resident m.ctx).map Prod.fst).getD 0xFF
  let s := if src = m.dst then s else s.foundMarked m.ctx
  let s := (s.bringDrawer m.ctx m.dst).1
  let s := s.setCtx m.ctx { s.ctx m.ctx with home := m.dst, aff := m.dst }
  let s := (s.bump DISP_MIG_COUNT).trace .migrate m.ctx 0 8 m.dst src m.dst
  { s with cyc.moves := s.cyc.moves + 1 }

/-- The plan without the groups that pins and keep sets no longer allow (R84). -/
def State.livePlan (s : State) : List (List Move) := s.disp.plan.filter s.stillOk

/-- DRAWER_MIGRATION (R83, R84, R805): in the sill, the next planned move, or keep set, whose contexts run
no stage is carried out while the sill's allowance lasts. -/
def execDrawerMigration (s : State) : Host.Outcome State Fault Refusal :=
  match s.livePlan.find? (fun g => g.all (fun m => !s.ctxRunning m.ctx)) with
  | some g =>
    if s.cyc.phase == .sill && decide (s.cyc.moves + g.length ≤ min 4 (s.rf DISP_PLACE 0 2 0)) then
      .next ((g.foldl State.migrate { s with disp.plan := s.livePlan.erase g }).upTo
        (s.bt + BitVec.ofNat 64 (64 * g.length)))
    else .next s
  | none => .next s

end Sys2Proof.Machine
end

