-- ==== Sys2Proof/Machine/Exact.lean ====
section
/-! DEFINITION. Roots, the number π, and the sine, cosine, angle and exponential that the laws and the
trajectories name: each is computed to 64 binary places, and what lies below is free. -/

namespace Sys2Proof.Machine

/-- A remainder of a computed number: it lies within 2^-64 of 0. -/
def tiny (r : Rat) : Rat := max (-1 / 2 ^ 64) (min (1 / 2 ^ 64) r)

/-- The greatest `r + i` with `i` below 2^`k` whose square does not exceed `n`. -/
def isqrtFrom (n : Nat) : Nat → Nat → Nat
  | 0, r => r
  | k + 1, r => isqrtFrom n k (if (r + 2 ^ k) * (r + 2 ^ k) ≤ n then r + 2 ^ k else r)

/-- The whole square root. -/
def isqrt (n : Nat) : Nat := isqrtFrom n (n.log2 / 2 + 1) 0

/-- The square root; 0 of a negative number. -/
def root (x : Rat) : Rat :=
  if x ≤ 0 then 0
  else
    let r : Rat := (isqrt (x * 2 ^ 128).floor.toNat : Rat) / 2 ^ 64
    if r * r = x then r else r + max 0 (tiny (Config.sqrt x))

/-- The number π. -/
def piVal : Rat := 31415926535897932384626433832795028841971 / 10 ^ 40 + max 0 (tiny Config.pi)

/-- π in units of 2^-128. -/
def piFix : Int := 31415926535897932384626433832795028841971 * 2 ^ 128 / 10 ^ 40

/-- The sum of a series in units of 2^-128: `t` is its term of order `k`, and each term of the next
order but one is `-x²/((k+1)(k+2))` times it. -/
def altSeries (x : Int) : Nat → Nat → Int → Int
  | 0, _, t => t
  | n + 1, k, t => t + altSeries x n (k + 2) (-(t * x / 2 ^ 128 * x / 2 ^ 128 / ((k + 1) * (k + 2) : Nat)))

/-- Sine and cosine of a part of a turn below a quarter. -/
def quarter (g : Rat) : Rat × Rat :=
  let x := (2 * g * piFix).floor
  ((altSeries x 24 1 x : Rat) / 2 ^ 128, (altSeries x 24 0 (2 ^ 128) : Rat) / 2 ^ 128)

/-- Sine and cosine of an angle in turns, without their remainders. -/
def sinCos (a : Rat) : Rat × Rat :=
  let q := (4 * a).floor
  let g := a - (q : Rat) / 4
  let (s, c) := if g = 0 then (0, 1) else quarter g
  match (q % 4).toNat with
  | 0 => (s, c)
  | 1 => (c, -s)
  | 2 => (-s, -c)
  | _ => (-c, s)

/-- Sine of an angle in turns. -/
def sinT (a : Rat) : Rat :=
  let s := (sinCos a).1
  if 4 * a = (4 * a).floor then s else s + tiny (Config.sinTurns a)

/-- Cosine of an angle in turns. -/
def cosT (a : Rat) : Rat :=
  let c := (sinCos a).2
  if 4 * a = (4 * a).floor then c else c + tiny (Config.cosTurns a)

/-- The part of a quarter turn, in steps of 2^-72, at which a vector of two positive parts stands. -/
def bisectAngle (x y : Rat) : Nat → Rat → Rat → Rat
  | 0, lo, _ => lo
  | n + 1, lo, w =>
    let m := lo + w / 2
    let (s, c) := quarter m
    bisectAngle x y n (if x * s ≤ y * c then m else lo) (w / 2)

/-- The angle, in turns from 0 to 1, of a vector. -/
def angle (x y : Rat) : Rat :=
  if x = 0 ∧ y = 0 then 0
  else if y = 0 then (if 0 < x then 0 else 1 / 2)
  else if x = 0 then (if 0 < y then 1 / 4 else 3 / 4)
  else
    let first (a b : Rat) : Rat := bisectAngle a b 70 0 (1 / 4)
    let t := if 0 < x then (if 0 < y then first x y else 3 / 4 + first (-y) x)
      else if 0 < y then 1 / 4 + first y (-x) else 1 / 2 + first (-x) (-y)
    t + tiny (Config.angleOf x y)

/-- `tan (π x)`; at a half the quotient by zero is free. -/
def tanHalf (x : Rat) : Rat :=
  let c := cosT (x / 2)
  if c = 0 then Config.tanPi x else sinT (x / 2) / c

/-- `exp (-x)` in units of 2^-128 for a small `x` in these units: `t` is the term of order `k`. -/
def expSeries (x : Int) : Nat → Nat → Int → Int
  | 0, _, t => t
  | n + 1, k, t => t + expSeries x n (k + 1) (-(t * x / 2 ^ 128 / ((k + 1 : Nat) : Int)))

/-- The 2^`n`-th power of a number in units of 2^-128. -/
def powTwo : Nat → Int → Int
  | 0, v => v
  | n + 1, v => powTwo n (v * v / 2 ^ 128)

/-- `exp (-2 π x)` for `x ≥ 0`. -/
def expNeg (x : Rat) : Rat :=
  if x = 0 then 1
  else if 16 ≤ x then max 0 (tiny (Config.expNeg2Pi x))
  else (powTwo 8 (expSeries (2 * x * piFix / 256).floor 24 0 (2 ^ 128)) : Rat) / 2 ^ 128 +
    tiny (Config.expNeg2Pi x)

end Sys2Proof.Machine
end

