-- ==== Sys2Proof/Machine/Traj.lean ====
section
/-! DEFINITION. Jerk-limited trajectories (R326, R334, R337): their pieces of constant jerk, their
value at an instant, their end and their reversal. Times are in seconds. -/

namespace Sys2Proof.Machine

/-- The commanded state after `t` seconds of constant jerk. -/
def Kin.after (k : Kin) (j t : Rat) : Kin :=
  { p := k.p + k.v * t + k.a * t * t / 2 + j * t * t * t / 6, v := k.v + k.a * t + j * t * t / 2,
    a := k.a + j * t }

/-- The state after some pieces (jerk, duration). -/
def runAll (k : Kin) (l : List (Rat × Rat)) : Kin := l.foldl (fun k p => k.after p.1 p.2) k

/-- The state `t` seconds after the start of the pieces. -/
def runTo (k : Kin) : List (Rat × Rat) → Rat → Kin
  | [], _ => k
  | (j, d) :: ps, t => if t ≤ d then k.after j (max 0 t) else runTo (k.after j d) ps (t - d)

/-- The duration of some pieces. -/
def piecesTime (l : List (Rat × Rat)) : Rat := (l.map Prod.snd).sum

/-- The sign of a number. -/
def sgn (x : Rat) : Rat := if 0 < x then 1 else if x < 0 then -1 else 0

/-- The absolute value of a number. -/
def absR (x : Rat) : Rat := if x < 0 then -x else x

/-- A change of velocity by `dv ≥ 0` in the direction `s`, from acceleration `b0` to `b1` measured in
that direction, under the acceleration limit `l` and the jerk limit `j`: rise, hold and fall. -/
def accelPieces (s dv b0 b1 l j : Rat) : List (Rat × Rat) :=
  if l < b0 then
    let hold := (dv - (b0 * b0 - b1 * b1) / (2 * j)) / l
    if hold < 0 then [(-s * j, (b0 - b1) / j)]
    else [(-s * j, (b0 - l) / j), (0, hold), (-s * j, (l - b1) / j)]
  else
    let hold := (dv - (2 * l * l - b0 * b0 - b1 * b1) / (2 * j)) / l
    if 0 ≤ hold then [(s * j, (l - b0) / j), (0, hold), (-s * j, (l - b1) / j)]
    else
      let ap := min l (max (max b0 b1) (root (j * dv + (b0 * b0 + b1 * b1) / 2)))
      [(s * j, (ap - b0) / j), (-s * j, (ap - b1) / j)]

/-- The ramp from a state to a velocity with no acceleration (R334, R337). It passes through zero
without dwell and with at most min(A, D) there, falling to zero under D and rising from it under A. -/
def ramp (k : Kin) (v1 : Rat) (m : Lims) : List (Rat × Rat) :=
  let rest := k.v + k.a * absR k.a / (2 * m.j)
  if rest = v1 then (if k.a = 0 then [] else [(-(sgn k.a) * m.j, absR k.a / m.j)])
  else
    let s := sgn (v1 - rest)
    let b0 := s * k.a
    let dv := s * (v1 - k.v)
    if k.v * s < 0 && decide (0 < v1 * s) then
      let lo := min m.a m.d
      if absR v1 ≤ lo * lo / (2 * m.j) then accelPieces s dv b0 0 m.d m.j
      else if (if b0 ≤ lo then lo * lo - b0 * b0 else b0 * b0 - lo * lo) / (2 * m.j) ≤ absR k.v then
        accelPieces s (absR k.v) b0 lo m.d m.j ++ accelPieces s (absR v1) lo 0 m.a m.j
      else accelPieces s dv b0 0 (if b0 ≤ lo then m.a else lo) m.j
    else accelPieces s dv b0 0 (if 0 < v1 * s then m.a else m.d) m.j

/-- Halving: a place from `lo` to `lo + w` up to which `f`, which holds at `lo`, still holds. -/
def bisect (f : Rat → Bool) : Nat → Rat → Rat → Rat
  | 0, lo, _ => lo
  | n + 1, lo, w => bisect f n (if f (lo + w / 2) then lo + w / 2 else lo) (w / 2)

/-- The pieces that lead to a position with the velocity `e` and no acceleration there (R334): by a
ramp up, a cruise and a ramp down; where the axis brakes already and must only brake less, by a
jerk piece before the ramp down. Halving finds the peak speed. -/
def piecesTo (k : Kin) (x e : Rat) (m : Lims) : List (Rat × Rat) :=
  let stop := ramp k e m
  let xs := (runAll k stop).p
  if xs = x then stop
  else
    let s := sgn (x - xs)
    let up (v : Rat) : List (Rat × Rat) := ramp k (s * v) m
    let down (v : Rat) : List (Rat × Rat) := ramp (runAll k (up v)) e m
    let left (v : Rat) : Rat := s * (x - (runAll k (up v ++ down v)).p)
    let via (v : Rat) : List (Rat × Rat) := up v ++ (0, left v / v) :: down v
    let rest := s * (k.v + k.a * absR k.a / (2 * m.j))
    let less (t : Rat) : Kin := k.after (s * m.j) t
    let leftLess (t : Rat) : Rat := s * (x - (runAll (less t) (ramp (less t) e m)).p)
    let lo := if s * e < rest && rest < m.v then rest else max 0 (s * e)
    if 0 ≤ left m.v then via m.v
    else if s * k.a < 0 && decide (0 < s * k.v) && decide (left lo < 0) then
      let t := bisect (fun t => decide (0 ≤ leftLess t)) 100 0 (absR k.a / m.j)
      (s * m.j, t) :: ramp (less t) e m
    else
      let v := bisect (fun v => decide (0 ≤ left v)) 100 lo (m.v - lo)
      if v = 0 then stop else via v

/-- The legs of a path one after the other (R358): each ends at its place with its velocity. -/
def legPieces (k : Kin) : List Leg → List (Rat × Rat) × Kin
  | [] => ([], k)
  | l :: ls =>
    let r := legPieces { p := l.p, v := l.v, a := 0 } ls
    (piecesTo k l.p l.v l.lims ++ r.1, r.2)

/-- The pieces of a trajectory. -/
def Plan.pieces (pl : Plan) : List (Rat × Rat) :=
  let r := legPieces (runAll pl.start pl.pre) pl.legs
  pl.pre ++ (r.1 ++ match pl.goal with
    | .pos x => piecesTo r.2 x 0 pl.lims
    | .vel v => ramp r.2 v pl.lims)

/-- Seconds from the start of a trajectory to an instant of BT. -/
def Plan.sec (pl : Plan) (t : Int) : Rat := ((t - pl.t0 : Int) : Rat) / 1000000000

/-- The trajectory has led where it leads at an instant. -/
def Plan.done (pl : Plan) (t : Int) : Bool := decide (piecesTime pl.pieces ≤ pl.sec t)

/-- The commanded state at an instant: exactly the goal from the end on. -/
def Plan.at (pl : Plan) (t : Int) : Kin :=
  let ps := pl.pieces
  let d := piecesTime ps
  let x := pl.sec t
  if x < d then runTo pl.start ps x
  else match pl.goal with
    | .pos q => { p := q, v := 0, a := 0 }
    | .vel v => { p := (runAll pl.start ps).p + v * (x - d), v := v, a := 0 }

/-- The time at which the velocity reaches zero within a piece that it leaves with the other sign. -/
def zeroTime (k : Kin) (j s : Rat) : Rat :=
  if j = 0 then -k.v / k.a else (-s * root (k.a * k.a - 2 * j * k.v) - k.a) / j

/-- Where the velocity changes sign along pieces, with the time since their start, up to `t`. -/
def signChange (k : Kin) (s t : Rat) : List (Rat × Rat) → Option Rat
  | [] => none
  | (j, d) :: ps =>
    if t ≤ 0 then none
    else
      let e := k.after j d
      let s := if s = 0 then (if k.v = 0 then sgn e.v else sgn k.v) else s
      if e.v * s < 0 then
        let z := zeroTime k j s
        if z ≤ t then some (k.after j z).p else none
      else if e.v = 0 && decide (e.a * s < 0) && ps ≠ [] && d ≤ t then some e.p
      else signChange e s (t - d) ps

/-- The reversal position that a trajectory has reached at an instant (R334). -/
def Plan.reversal (pl : Plan) (t : Int) : Option Rat :=
  signChange pl.start 0 (pl.sec t) pl.pieces

/-- A trajectory whose positions are shifted (R389). -/
def Plan.shift (pl : Plan) (d : Rat) : Plan :=
  { pl with start := { pl.start with p := pl.start.p + d },
            legs := pl.legs.map (fun l => { l with p := l.p + d }),
            goal := match pl.goal with
              | .pos x => .pos (x + d)
              | .vel v => .vel v }

end Sys2Proof.Machine
end

