-- ==== Sys2Proof/Machine/Gen.lean ====
section
/-! DEFINITION. The profile generators: masters, cams, the modes of R327, limits in motion and homing
(R323 to R353, R384 to R401). -/

namespace Sys2Proof.Machine

/-! ## Measured position -/

/-- The position that the inbox of a context holds, and its width (R242, R431). -/
def State.inboxPos (s : State) (c : Nat) : W32 × Nat :=
  let cnt : W32 := (s.drawer c 0x3E1).extractLsb' 0 8 ++ s.drawer c 0x3E0
  match s.nearOf c with
  | none => (cnt, 32)
  | some n =>
    let src := s.rf FB_CFG n 1 0
    if src = 2 then ((s.drawer c 0x3E7).extractLsb' 0 8 ++ s.drawer c 0x3E6,
        min 32 (s.rf FB_SSI_CFG n 5 0))
    else if src = 3 then ((s.drawer c 0x3E9).extractLsb' 0 8 ++ s.drawer c 0x3E8, 32)
    else if src = 1 then (cnt, 32)
    else (0, 32)

/-- The signed difference of two counters of a width. -/
def cntDiff (a b : W32) (w : Nat) : Int := sbitsOf (a - b) (w - 1) 0

/-- The 64-bit extension of the measured position follows the inbox (R128). -/
def State.extendPos (s : State) (c : Nat) : State :=
  let x := s.ax c
  let (p, w) := s.inboxPos c
  s.setAx c { x with pos := (BitVec.ofInt 64 (x.pos + cntDiff p x.posLast w)).toInt, posLast := p }

/-- The measured position on the axis's scale. -/
def Axis.meas (x : Axis) : Rat := (x.pos : Rat) + x.ofs

/-- The place on the scale of a counter value near the present one. -/
def State.onScale (s : State) (c : Nat) (cnt : W32) : Rat :=
  let x := s.ax c
  ((x.pos + cntDiff cnt x.posLast 32 : Int) : Rat) + x.ofs

/-- The position scale moves by an offset (R389), and HOMED is set: the measured position, p_cmd and every stored
trajectory position move with it. -/
def State.shiftAxis (s : State) (c : Nat) (d : Rat) : State :=
  let x := s.ax c
  let up (k : Kin) : Kin := { k with p := k.p + d }
  let l := x.law
  (s.setAx c { x with
    ofs := x.ofs + d, kin := up x.kin, plan := x.plan.map (·.shift d),
    pvt := x.pvt.map (fun g => { g with p := g.p + d }), pvtFrom := up x.pvtFrom,
    stepP := x.stepP + d, stepQ := x.stepQ + d,
    follow := { x.follow with pEng := x.follow.pEng + d, cOfs := x.follow.cOfs + d },
    next := x.next.map up, nextNew := x.nextNew.map up, rev := x.rev.map (· + d),
    hm := { x.hm with entry := x.hm.entry + d, rev := x.hm.rev.map (· + d) },
    law := { l with pMeas := l.pMeas + d, pPrev := l.pPrev + d, pFb := l.pFb + d, pHat := l.pHat + d } }).setHomed c true

/-! ## Limits of motion (R326, R384, R397 to R401) -/

/-- VMAX, AMAX, DMAX and JMAX of a drawer. -/
def State.drawerLims (s : State) (c : Nat) : Lims :=
  ⟨s.dw48 c 0x200, s.dw48 c 0x203, s.dw48 c 0x206, s.dw48 c 0x209⟩

/-- A limit of a descriptor (R326): 0 selects the drawer's, and a larger one is replaced. -/
def pickLim (v drw : Rat) : Rat := if v = 0 then drw else min v drw

/-- A chatter latch holds a limit active (R400). -/
def Axis.latched (x : Axis) : Bool := x.inP.chat || x.inN.chat

/-- The velocity limit of a move (R400). -/
def State.capV (s : State) (c : Nat) (v : Rat) : Rat :=
  if (s.ax c).latched then min v (s.dw48 c 0x301) else v

/-- The limit of a direction is active. -/
def State.limActive (s : State) (c : Nat) (v : Rat) : Bool :=
  (decide (0 < v) && s.inLevel c 0) || (decide (v < 0) && s.inLevel c 1)

/-- The software limits act (R401). -/
def State.swlOn (s : State) (c : Nat) : Bool := bitOf (s.drawer c 0x300) 4 && (s.ax c).homed

/-- A position outside SWL_NEG to SWL_POS. -/
def State.outsideSwl (s : State) (c : Nat) (p : Rat) : Bool :=
  decide (p < s.dw48 c 0x317) || decide (s.dw48 c 0x314 < p)

/-! ## Master sources (R343 to R346) -/

/-- A master source. -/
def State.ms (s : State) (k : Nat) : Ms := tget {} s.mss k

/-- The state with it set. -/
def State.setMs (s : State) (k : Nat) (x : Ms) : State := { s with mss := tset {} s.mss k x }

/-- KIND and SRC of a source. -/
def State.msKind (s : State) (k : Nat) : Nat := s.rf PRF_MS_CFG k 2 0
def State.msSrc (s : State) (k : Nat) : Nat := s.rf PRF_MS_CFG k 15 8

/-- A consumer's unwrapped POS (R346). -/
def Follow.unwrap (f : Follow) (v : MsVal) : Follow :=
  { f with m := f.m + (v.pos - f.last).toInt, last := v.pos }

/-- Exact counts of a Q32.32 quantity. -/
def ofQ32 (i : Int) : Rat := (i : Rat) / 2 ^ 32

/-- What VEL adds to POS at an instant, in counts (R343). -/
def MsVal.travel (v : MsVal) (t : Int) : Rat :=
  ofQ32 v.vel.toInt * ((BitVec.ofInt 32 t - v.tref).toInt : Rat) / 1000000000

/-- The unwrapped master value of a consumer at an instant, in counts (R343, R346). -/
def Follow.master (f : Follow) (v : MsVal) (t : Int) : Rat := ofQ32 f.m + v.travel t

/-- A Q32.32 word. -/
def q32 (r : Rat) : W64 := BitVec.ofInt 64 (r * 2 ^ 32).floor

/-- A producing run writes a source's value (R343, R344); one whose axis is disabled does not. -/
def State.produce (s : State) (kind src : Nat) (p v : Rat) (t : Int) : State :=
  (List.range 16).foldl (fun s k =>
    if s.msKind k = kind && s.msSrc k = src then
      let x := s.ms k
      s.setMs k { x with live := { pos := q32 p, vel := q32 v, tref := BitVec.ofInt 32 t, valid := true },
                         fresh := true }
    else s) s

/-- The seconds of constant acceleration that a virtual master needs to its target velocity; none: with
no acceleration it never reaches it. -/
def Ms.need (x : Ms) : Option Rat :=
  let d := ofQ32 x.vmV.toInt - x.vmStart.v
  let a := absR (ofQ32 x.vmA.toInt)
  if d = 0 then some 0 else if a = 0 then none else some (absR d / a)

/-- The motion that VM_SET gave a virtual master, exactly, `t` seconds after it applied (R344). -/
def Ms.motion (x : Ms) (t : Rat) : Kin :=
  let goal := ofQ32 x.vmV.toInt
  let acc := sgn (goal - x.vmStart.v) * absR (ofQ32 x.vmA.toInt)
  let k : Kin := { x.vmStart with a := acc }
  match x.need with
  | none => k.after 0 t
  | some n =>
    if t < n then k.after 0 t
    else { p := (k.after 0 n).p + goal * (t - n), v := goal, a := 0 }

/-- A near encoder's latch produces its sources' values (R344): VEL from successive latches. -/
def State.produceNear (s : State) (n : Nat) : State :=
  let cnt := (s.fb n).cnt
  let dt : Rat := max 1 (s.rf DISP_CYC_PERIOD 0 19 0)
  (List.range 16).foldl (fun s k =>
    if s.msKind k = 3 && s.msSrc k = n then
      let x := s.ms k
      let p : W64 := cnt ++ (0 : W32)
      let d := (p - x.live.pos).toInt
      let v : Rat := ofQ32 d * 1000000000 / dt
      let ofs := s.cyc.t0 + BitVec.ofNat 64 (s.rf DISP_CYC_SAMPLE 0 19 0)
      s.setMs k { x with live := { pos := p, vel := q32 v, tref := ofs.setWidth 32, valid := true },
                         fresh := true }
    else s) s

/-- A virtual master moves to this T0 (R344): constant acceleration to its target velocity; VM_SET
completes when it is reached. -/
def State.moveVirtual (s : State) (k : Nat) : State :=
  let x := s.ms k
  let t := s.cyc.t0.setWidth 32
  let ns := x.vmT + (t - x.live.tref).toInt
  let m := x.motion ((ns : Rat) / 1000000000)
  let there := match x.need with
    | some n => decide (n * 1000000000 ≤ ns)
    | none => false
  let s := s.setMs k { x with live := { pos := q32 m.p, vel := q32 m.v, tref := t, valid := true },
                              vmT := ns, fresh := true, cmd := if there then none else x.cmd }
  if there then s.reply 0 x.cmd 0 else s

/-- A source whose value was due in the cycle that ends: that of an axis only in a run of its context
(R345). -/
def State.msDue (s : State) (k : Nat) : Bool :=
  !(s.msKind k == 1 || s.msKind k == 2) || hdrRuns (s.hdr (s.msSrc k)) (s.cyc.count - 1).toNat

/-- The value of a source at a T0 (R343, R345): VALID falls when its producing run did not complete, or
its axis is disabled. -/
def State.freezeOne (s : State) (k : Nat) : State :=
  let x := s.ms k
  let off := (s.msKind k == 1 || s.msKind k == 2) && !(s.ax (s.msSrc k)).enabled
  let f := if x.fresh then x.live else { x.live with valid := x.live.valid && !off && !s.msDue k }
  let x := if x.fresh then { x with prevVel := x.froz.vel, prevRef := x.froz.tref } else x
  s.setMs k { x with froz := f, live := f, fresh := false, held := if f.valid then 0 else min 15 (x.held + 1) }

/-- At a T0 the values are frozen (R343, R345). -/
def State.freezeMs (s : State) : State :=
  (List.range 16).foldl (fun s k =>
    let s := if s.msKind k = 4 then s.moveVirtual k else s
    if s.msKind k = 0 then s else s.freezeOne k) s

/-- A consumer looks at its source (R345): after HOLD runs on an invalid value MS_INVALID is posted
and the axis takes its stop reaction; `true` when it goes on. -/
def State.msLook (s : State) (c k : Nat) : State × Bool :=
  let x := s.ax c
  if (s.ms k).froz.valid then (s.setAx c { x with msHeld := 0 }, true)
  else if x.msHeld < s.rf PRF_MS_CFG k 19 16 then
    (s.setAx c { x with msHeld := x.msHeld + 1 }, true)
  else ((s.post 0x0329 .severe c (payOf [k])).stopReact c, false)

/-! ## Cam tables (R349, R352) -/

/-- A cam table. -/
def State.cam (s : State) (k : Nat) : Cam := tget {} s.cams k

/-- A tridiagonal system with 1 beside its diagonal, from the ratio and value that the rows above
leave: rows are (diagonal, right side). -/
def solveTri (c d : Rat) : List (Rat × Rat) → List Rat
  | [] => []
  | (b, r) :: rows =>
    let c' := 1 / (b - c)
    let d' := (r - d) * c'
    let xs := solveTri c' d' rows
    (d' - c' * xs.headD 0) :: xs

/-- The points of a table. -/
def Cam.ys (x : Cam) : List Rat := (List.range x.n).map (fun i => ofQ48 (tget 0 x.pts i))

/-- RISE of a table. -/
def Cam.rise (x : Cam) : Rat := x.ys.getD (x.n - 1) 0 - x.ys.getD 0 0

/-- The second derivatives of the spline at the points, times the spacing squared: natural, or with
matching first and second derivatives at the ends (R349). -/
def Cam.bends (x : Cam) : List Rat :=
  let ys := x.ys
  let y (i : Nat) : Rat := ys.getD i 0
  let rhs (i : Nat) : Rat := 6 * (y (i + 1) - 2 * y i + y (i - 1))
  if x.cyclic then
    let n := x.n - 1
    let r0 := 6 * (y 1 - 2 * y 0 + (y (n - 1) - x.rise))
    let diag (i : Nat) : Rat := if i = 0 then 8 else if i = n - 1 then 17 / 4 else 4
    let a := solveTri 0 0 ((List.range n).map (fun i => (diag i, if i = 0 then r0 else rhs i)))
    let q := solveTri 0 0 ((List.range n).map (fun i =>
      (diag i, if i = 0 then -4 else if i = n - 1 then 1 else 0)))
    let dot (l : List Rat) : Rat := l.getD 0 0 - l.getD (n - 1) 0 / 4
    let f := dot a / (1 + dot q)
    let m := (a.zip q).map (fun p => p.1 - f * p.2)
    m ++ [m.getD 0 0]
  else
    let inner := solveTri 0 0 ((List.range (x.n - 2)).map (fun i => (4, rhs (i + 1))))
    0 :: (inner ++ [0])

/-- The curve of a table at a master position from 0 to X_LEN, with its first two derivatives by the
master position. -/
def Cam.curve (x : Cam) (u : Rat) : Kin :=
  let len := ofQ32 x.xlen.toNat
  let h := len / (x.n - 1 : Nat)
  let i := min (x.n - 2) (u / h).floor.toNat
  let t := u / h - i
  let r := 1 - t
  let m := x.bends
  let ys := x.ys
  let m0 := m.getD i 0
  let m1 := m.getD (i + 1) 0
  let y0 := ys.getD i 0
  let y1 := ys.getD (i + 1) 0
  { p := y0 * r + y1 * t + ((t * t * t - t) * m1 + (r * r * r - r) * m0) / 6
    v := (y1 - y0 + ((3 * t * t - 1) * m1 - (3 * r * r - 1) * m0) / 6) / h
    a := (t * m1 + r * m0) / (h * h) }

/-- The commanded position of an axis on a table at a master position `x` (M_OFS taken off), the slope
and the bend, and whether `x` lies beyond a one-shot table (R352). -/
def Cam.value (c : Cam) (cOfs x : Rat) : Kin × Bool :=
  let len := ofQ32 c.xlen.toNat
  if c.cyclic then
    let n := (x / len).floor
    let k := c.curve (x - n * len)
    ({ k with p := cOfs + c.rise * n + k.p }, false)
  else
    let u := max 0 (min len x)
    let k := c.curve u
    ({ k with p := cOfs + k.p }, decide (x < 0) || decide (len < x))

/-! ## Instants (R201, R324) -/

/-- The sample instant of this cycle. -/
def State.sampleT (s : State) : Int := (s.cyc.t0.toNat + s.rf DISP_CYC_SAMPLE 0 19 0 : Nat)

/-- The instant to which the feedback of a run refers (R324). -/
def State.genInstant (s : State) (c : Nat) : Int :=
  if s.prof c = 2 && bitOf (s.drawer c 0x080) 7 then
    s.sampleT + (s.dwn c 0x3F1 + s.dwn c 0x0AF : Nat)
  else s.sampleT

/-- Ts in seconds. -/
def State.ts (s : State) (c : Nat) : Rat := (max 1 (s.tsNs c) : Nat) / (1000000000 : Rat)

/-- T0 as an instant. -/
def State.t0i (s : State) : Int := s.cyc.t0.toNat

/-! ## Modes at a hinge point (R327) -/

/-- A trajectory from the commanded state at this T0. -/
def State.planFrom (s : State) (c : Nat) (g : Goal) (m : Lims) : Plan :=
  { start := (s.ax c).kin, goal := g, lims := m, t0 := s.t0i }

/-- p_cmd of a locked axis in GEAR at a master value, rounded down to 2^-16 counts (R347). -/
def Follow.geared (f : Follow) (m : Rat) : Rat :=
  ((f.pEng + (f.num : Rat) / f.den * (m - f.mEng)) * 2 ^ 16).floor / 2 ^ 16

/-- The velocity of an axis in GEAR (R347). -/
def Follow.gearVel (f : Follow) (v : MsVal) : Rat := (f.num : Rat) / f.den * ofQ32 v.vel.toInt

/-- A point of a Hermite segment (R338): `u` of its way, over `d` seconds. -/
def hermite (a : Kin) (p v u d : Rat) : Kin :=
  let dp := p - a.p
  let c2 := 3 * dp - d * (2 * a.v + v)
  let c3 := d * (a.v + v) - 2 * dp
  { p := a.p + d * a.v * u + c2 * u * u + c3 * u * u * u
    v := (d * a.v + 2 * c2 * u + 3 * c3 * u * u) / d
    a := (2 * c2 + 6 * c3 * u) / (d * d) }

/-- The curve of queued segments, `k` runs of `ts` seconds after the state `a` (R338, R340). -/
def pvtAt (ts : Rat) (a : Kin) (k : Rat) : List PvtSeg → Kin
  | [] => { a with v := 0, a := 0 }
  | g :: gs =>
    let n : Rat := (max 1 g.n : Nat)
    if k ≤ n then hermite a g.p g.v (k / n) (n * ts)
    else pvtAt ts { p := g.p, v := g.v, a := (hermite a g.p g.v 1 (n * ts)).a } (k - n) gs

/-- The commanded state of an axis on its trajectory at an instant of BT (R325, R364). -/
def State.kinAt (s : State) (c : Nat) (t : Int) : Kin :=
  let x := s.ax c
  let dt : Rat := ((t - x.kinT : Int) : Rat) / 1000000000
  match x.plan with
  | some pl => pl.at t
  | none => match x.mode with
    | .gear =>
      let v := (s.ms x.follow.ms).froz
      let f := x.follow.unwrap v
      { p := f.geared (f.master v t), v := f.gearVel v, a := x.kin.a }
    | .cam =>
      let v := (s.ms x.follow.ms).froz
      let f := x.follow.unwrap v
      let (k, past) := (s.cam f.ct).value f.cOfs (f.master v t - ofQ32 f.mOfs)
      let mv := if past then 0 else ofQ32 v.vel.toInt
      { p := k.p, v := k.v * mv, a := k.a * mv * mv }
    | .pvt => pvtAt (s.ts c) x.pvtFrom ((x.pvtK : Rat) + dt / s.ts c) x.pvt
    | .step => { x.kin with p := x.kin.p + x.kin.v * dt }
    | .group => x.kin.after 0 dt
    | _ => x.kin

/-- The commanded state at this T0, and what completes there; the state that the group computed in the
cycle that ended is the one of the next run (R325, R327, R355). -/
def State.advance (s : State) (c : Nat) : State :=
  let x := s.ax c
  let t := s.t0i
  let x := { x with kin := s.kinAt c t, kinT := t, next := x.nextNew.or x.next, nextNew := none }
  match x.plan with
  | none => s.setAx c x
  | some pl =>
    let rev := match x.mode with
      | .homing => x.rev
      | _ => (pl.reversal t).or x.rev
    let s := s.setAx c { x with rev := rev }
    if !pl.done t then s
    else match x.mode with
      | .ptp => (s.endMotion c 0).setAx c { (s.endMotion c 0).ax c with mode := .idle, plan := none }
      | .stop => (s.endMotion c 0).setAx c { (s.endMotion c 0).ax c with mode := .idle, plan := none }
      | .vel => match pl.goal with
        | .vel _ => s.endMotion c 0
        | .pos _ =>
          let s := (s.endMotion c 0x0348).post 0x0347 .warn c
          s.setAx c { s.ax c with mode := .idle, plan := none }
      | _ => s

/-- Every enabled axis at a hinge point. -/
def State.advanceAll (s : State) : State :=
  axisCtxs.foldl (fun s c => if (s.ax c).enabled then s.advance c else s) s

/-! ## Modes in a run -/

/-- One run in PVT (R338, R340). -/
def State.runPvt (s : State) (c : Nat) : State :=
  let x := s.ax c
  match x.pvt with
  | [] => s.setAx c { x with kin := { x.kin with v := 0, a := 0 } }
  | g :: gs =>
    let k := x.pvtK + 1
    let n : Rat := (max 1 g.n : Nat)
    let kin := hermite x.pvtFrom g.p g.v (k / n) (n * s.ts c)
    if k < g.n then s.setAx c { x with kin := kin, pvtK := k }
    else
      let e : Kin := { p := g.p, v := g.v, a := kin.a }
      let s := s.setAx c { x with kin := e, pvt := gs, pvtK := 0, pvtFrom := e }
      let s := match g.cmd with
        | some _ => s.completeMotion c g.cmd 0
        | none => s
      if gs = [] && g.v ≠ 0 then (s.post 0x0327 .severe c).stopReact c else s

/-- STEP_CNT of a near axis as its inbox holds it. -/
def State.stepCount (s : State) (n : Nat) : W32 :=
  let c := s.ctxOfNear n
  if c = 0 then (s.fb n).stepCnt
  else (s.drawer c 0x3E9).extractLsb' 0 8 ++ s.drawer c 0x3E8

/-- One run in STEP (R341, R342). -/
def State.runStep (s : State) (c : Nat) : State :=
  let x := s.ax c
  let cnt := s.stepCount x.stepSrc
  let st := x.stepS + cntDiff cnt x.stepLast 32
  let q := x.stepP + (s.dwn c 0x20F : Rat) * st
  let v := (q - x.stepQ) / s.ts c
  let k : Kin := { p := x.stepQ, v := v, a := (v - x.kin.v) / s.ts c }
  let s := s.setAx c { x with kin := k, stepS := st, stepLast := cnt, stepQ := q }
  if s.dw48 c 0x200 < absR v then s.post 0x0328 .warn c else s

/-- One run in GEAR (R347). -/
def State.runGear (s : State) (c : Nat) (t : Int) : State :=
  let (s, ok) := s.msLook c (s.ax c).follow.ms
  if !ok then s
  else
    let x := s.ax c
    let v := (s.ms x.follow.ms).froz
    let f := x.follow.unwrap v
    let m := f.master v t
    let gv := f.gearVel v
    let f := { f with vel := gv }
    if f.locked then
      s.setAx c { x with follow := f, kin := { p := f.geared m, v := gv, a := (gv - x.follow.vel) / s.ts c } }
    else
      let pl := match x.plan with
        | some p => if p.goal = .vel gv then p else s.planFrom c (.vel gv) p.lims
        | none => s.planFrom c (.vel gv) (s.drawerLims c)
      let k := pl.at t
      if k.v = gv && k.a = 0 then
        (s.setAx c { x with plan := none, kin := k,
                            follow := { f with locked := true, pEng := k.p, mEng := m } }).endMotion c 0
      else s.setAx c { x with plan := some pl, follow := f }

/-- One run in CAM (R352). -/
def State.runCam (s : State) (c : Nat) (t : Int) : State :=
  let (s, ok) := s.msLook c (s.ax c).follow.ms
  if !ok then s
  else
    let x := s.ax c
    let v := (s.ms x.follow.ms).froz
    let f := x.follow.unwrap v
    let (k, past) := (s.cam f.ct).value f.cOfs (f.master v t - ofQ32 f.mOfs)
    let mv := ofQ32 v.vel.toInt
    if past then
      (s.setAx c { x with follow := f, mode := .idle, kin := { p := k.p, v := 0, a := 0 } }).endMotion c 0
    else s.setAx c { x with follow := f, kin := { p := k.p, v := k.v * mv, a := k.a * mv * mv } }

/-! ## Limits in motion (R397 to R401) -/

/-- A speed above a newly lower limit first falls to it under DMAX and JMAX (R326), unless the axis
could then no longer stop at its target. -/
def State.slowFirst (s : State) (c : Nat) (pl : Plan) (v : Rat) : List (Rat × Rat) :=
  let m := s.drawerLims c
  let k := pl.start
  let ps := if v < absR k.v then ramp k (sgn k.v * v) { m with a := m.d } else []
  let e := runAll k ps
  match pl.goal with
  | .pos q => if 0 ≤ sgn k.v * (q - (runAll e (ramp e 0 pl.lims)).p) then ps else []
  | .vel _ => ps

/-- A newly lower velocity limit applies to a running move (R326, R400). -/
def State.recap (s : State) (c : Nat) : State :=
  let x := s.ax c
  let v := s.capV c (s.dw48 c 0x200)
  let slower (pl : Plan) : State :=
    let g := match pl.goal with
      | .vel w => .vel (max (-v) (min v w))
      | .pos q => .pos q
    let p : Plan := { start := pl.at s.t0i, goal := g, lims := { pl.lims with v := v }, t0 := s.t0i }
    s.setAx c { x with plan := some { p with pre := s.slowFirst c p v } }
  match x.mode, x.plan with
  | .ptp, some pl => if v < pl.lims.v then slower pl else s
  | .vel, some pl => if v < pl.lims.v then slower pl else s
  | _, _ => s

/-- In VEL the generator comes to rest exactly at a software limit (R401, item 2): from the run at
which the next two runs would leave no room to stop. -/
def State.swlVel (s : State) (c : Nat) : State :=
  let x := s.ax c
  match x.mode, x.plan with
  | .vel, some pl =>
    if !s.swlOn c then s
    else match pl.goal with
      | .pos _ => s
      | .vel _ =>
        let m := { s.drawerLims c with v := max (absR x.kin.v) (s.dw48 c 0x200) }
        let k := pl.at (s.t0i + 2 * s.tsNs c)
        let e := (runAll k (ramp k 0 m)).p
        let lim := if 0 < k.v then s.dw48 c 0x314 else s.dw48 c 0x317
        if (decide (0 < k.v) && decide (lim < e)) || (decide (k.v < 0) && decide (e < lim)) then
          s.setAx c { x with plan := some (s.planFrom c (.pos lim) { m with v := max (absR x.kin.v) 1 }) }
        else s
  | _, _ => s

/-- A limit that has become active stops the motion toward it (R397, R398). -/
def State.limitHit (s : State) (c : Nat) (v : Rat) : State :=
  let x := s.ax c
  let was (k : Nat) : Bool := x.inPrev.getLsbD k
  let hit := (decide (0 < v) && s.inLevel c 0 && !was 0) || (decide (v < 0) && s.inLevel c 1 && !was 1)
  if !hit then s
  else match x.mode with
    | .idle | .ptp | .vel | .stop =>
      let s := (s.endMotion c 0x0348).post 0x0342 .warn c
      if x.stop = .none then s.stopAt c (s.dw48 c 0x20C) else s
    | .homing => s
    | _ => (s.post 0x0342 .severe c).stopReact c

/-- A position outside the software limits in the following modes (R401, item 3). -/
def State.swlFollow (s : State) (c : Nat) : State :=
  let x := s.ax c
  match x.mode with
  | .pvt | .step | .gear | .cam | .group =>
    if s.swlOn c && s.outsideSwl c x.kin.p then (s.post 0x0347 .severe c).stopReact c else s
  | _ => s

/-! ## Homing (R386 to R394) -/

/-- The sign of DIR. -/
def Homing.dir (h : Homing) : Rat := if h.neg then -1 else 1

/-- Homing enters a state by a stop at QSTOP_DEC; its ramp follows at rest. -/
def State.homeStop (s : State) (c : Nat) (st : HmSt) : State :=
  let x := s.ax c
  let q := s.dw48 c 0x20C
  let pl := s.planFrom c (.vel 0) ⟨0, q, q, s.dw48 c 0x209⟩
  s.setAx c { x with plan := some pl, hm := { x.hm with st := st, entry := x.kin.p } }

/-- The velocity to which a homing state ramps (R387). -/
def State.homeSpeed (s : State) (c : Nat) : Rat :=
  let h := (s.ax c).hm
  match h.st with
  | .search => h.dir * s.dw48 c 0x301
  | .reversed => -h.dir * s.dw48 c 0x301
  | .clear => -h.dir * s.dw48 c (if h.fast then 0x301 else 0x304)
  | .creep | .indexSeek | .push => h.dir * s.dw48 c 0x304
  | .backoff => 0

/-- The ramp of a homing state to its velocity. -/
def State.homeRamp (s : State) (c : Nat) : State :=
  let x := s.ax c
  let v := s.homeSpeed c
  let a := s.dw48 c 0x307
  s.setAx c { x with plan := some (s.planFrom c (.vel v) ⟨absR v, a, a, s.dw48 c 0x209⟩) }

/-- A reference at a position of the scale (R389). -/
def State.reference (s : State) (c : Nat) (at_ : Rat) : State :=
  s.shiftAxis c (s.dw48 c 0x30A - at_)

/-- The reference is found: the axis stops, and homing completes at rest. -/
def State.homeFound (s : State) (c : Nat) (at_ : Rat) : State :=
  let s := (s.reference c at_).homeStop c (s.ax c).hm.st
  s.setAx c { s.ax c with hm := { (s.ax c).hm with found := true } }

/-- Homing completes (R387, R394). -/
def State.homeDone (s : State) (c : Nat) : State :=
  let x := s.ax c
  let s := s.setAx c { x with mode := .idle, plan := none, pushing := false, rev := x.hm.rev }
  (s.hmResult c 0 0).endMotion c 0

/-- The index is reported in this run, and where (R242, R430). -/
def State.indexAt (s : State) (c : Nat) : Option Rat :=
  if bitOf (s.drawer c 0x3E1) 14 then
    some (s.onScale c ((s.drawer c 0x3E3).extractLsb' 0 8 ++ s.drawer c 0x3E2))
  else none

/-- An input has become active since the previous run. -/
def State.became (s : State) (c k : Nat) : Bool := s.inLevel c k && !(s.ax c).inPrev.getLsbD k

/-- The failure that a run finds (R392), as its CAUSE; `v` is v_cmd. -/
def State.homeFault (s : State) (c : Nat) (v : Rat) : Option Nat :=
  let x := s.ax c
  let h := x.hm
  let hi := x.homeIn
  let pushy := h.st == .push || h.st == .backoff
  -- a limit other than home becomes active in the direction of travel
  let ahead := (decide (0 < v) && hi != 0 && s.became c 0) || (decide (v < 0) && hi != 1 && s.became c 1)
  let chat := (!pushy && x.inH.chat) || x.inP.chat || x.inN.chat
  if h.found then none
  else if h.st == .reversed && (s.became c 0 || s.became c 1) then some 1
  else if (h.st == .clear || h.st == .creep || h.st == .indexSeek) && ahead then some 2
  else if pushy && (s.became c 0 || s.became c 1) then some 3
  else if chat then some 4
  else if s.dw48 c 0x311 < absR (x.kin.p - h.entry) then some 5
  else if [0, 1, 2].any (fun k => s.homingUses c k && (x.inp k).wb) then some 6
  else none

/-- The runs for which the applied current has been at its threshold (R391). -/
def State.stallRuns (s : State) (c : Nat) : Nat :=
  let x := s.ax c
  if 9 * s.dwq c 0x30D / 10 ≤ x.law.iqApplied then x.hm.stall + 1 else 0

/-- One run of homing in PUSH (R390, R391). -/
def State.homePush (s : State) (c : Nat) : State :=
  let n := s.stallRuns c
  let x := s.ax c
  let s := s.setAx c { x with hm := { x.hm with stall := n } }
  if absR x.law.vFb < s.dwq c 0x30E && decide ((s.dwn c 0x30F) * 1000000 ≤ n * s.tsNs c) then
    let s := s.reference c x.meas
    let x := s.ax c
    let k : Kin := { p := x.meas, v := 0, a := 0 }
    let a := s.dw48 c 0x307
    let pl : Plan :=
      { start := k, goal := .pos (k.p - x.hm.dir * (s.dwn c 0x310 : Rat)),
        lims := ⟨s.dw48 c 0x304, a, a, s.dw48 c 0x209⟩, t0 := s.t0i }
    s.setAx c { x with kin := k, plan := some pl, hm := { x.hm with st := .backoff, entry := k.p } }
  else if (s.dwn c 0x096 : Rat) / 2 ≤ absR x.law.ep then
    let x := s.ax c
    s.setAx c { x with plan := x.plan.map (fun p => { p with t0 := p.t0 + s.tsNs c }) }
  else s

/-- Homing goes on in another state with the trajectory that runs. -/
def State.homeGo (s : State) (c : Nat) (st : HmSt) : State :=
  let x := s.ax c
  s.setAx c { x with hm := { x.hm with st := st, entry := x.kin.p } }

/-- The search has met the limit in its way (R387): it stops, and the place where it will reverse is
recorded (R394). -/
def State.homeReverse (s : State) (c : Nat) : State :=
  let s := s.homeStop c .reversed
  let x := s.ax c
  let rev := x.plan.map (fun (p : Plan) => (p.at (p.t0 + 10 ^ 15)).p)
  s.setAx c { x with rev := rev, hm := { x.hm with rev := rev } }

/-- The state of R387 that an event of this run leads to; none: no event. -/
def State.homeEvent (s : State) (c : Nat) : Option State :=
  let x := s.ax c
  let h := x.hm
  let hi := x.homeIn
  let on := s.became c hi
  let off := !s.inLevel c hi && x.inPrev.getLsbD hi
  let tl := if h.neg then 1 else 0
  match h.st with
  | .search =>
    if on then some (s.homeStop c .clear)
    else if tl ≠ hi && s.became c tl then some (s.homeReverse c)
    else none
  | .reversed =>
    if on then some ((s.setAx c { x with hm := { h with fast := true } }).homeGo c .clear) else none
  | .clear => if off then some (s.homeStop c .creep) else none
  | .creep =>
    if !on then none
    else if h.method = 2 then some (s.homeGo c .indexSeek)
    else some (s.homeFound c (s.onScale c x.homeLatch))
  | .indexSeek => (s.indexAt c).map (s.homeFound c)
  | _ => none

/-- The step of the state table of R387 that a run takes; `rest` says that the running trajectory has
ended. After a stop the state's ramp follows. -/
def State.homeStep (s : State) (c : Nat) (rest : Bool) : State :=
  let x := s.ax c
  let h := x.hm
  let stopped := match x.plan with
    | some pl => pl.goal == Goal.vel 0 && rest
    | none => true
  if h.found then (if rest then s.homeDone c else s)
  else if h.st = .push then s.homePush c
  else if h.st = .backoff then (if rest then s.homeDone c else s)
  else match s.homeEvent c with
    | some t => t
    | none => if stopped then s.homeRamp c else s

/-- One run of homing (R387, R392, R393). -/
def State.runHoming (s : State) (c : Nat) (t : Int) : State :=
  match s.homeFault c (s.kinAt c t).v with
  | some 3 => ((s.homingEnd c 3).post 0x0342 .severe c).stopReact c
  | some k => s.homingFail c k
  | none =>
    let rest := match (s.ax c).plan with
      | some pl => pl.done t
      | none => true
    s.homeStep c rest

/-! ## One run of a generator -/

/-- One run of an enabled axis's generator (R324): the state after it, and the commanded state that
the loops follow. -/
def State.genRun (s : State) (c : Nat) : State × Kin :=
  let t := s.genInstant c
  let s := ((s.recap c).swlVel c)
  let s := match (s.ax c).mode with
    | .pvt => s.runPvt c
    | .step => s.runStep c
    | .gear => s.runGear c t
    | .cam => s.runCam c t
    | .group =>
      let x := s.ax c
      match x.next, x.plan with
      | some k, _ => s.setAx c { x with kin := k, plan := none }
      | none, some _ => s
      | none, none => s.setAx c { x with kin := { x.kin with v := 0, a := 0 } }
    | .homing => s.runHoming c t
    | _ => s
  let s := if (s.ax c).plan.isSome then s else s.setAx c { s.ax c with kinT := t }
  let v := match (s.ax c).plan with
    | some pl => (pl.at t).v
    | none => (s.ax c).kin.v
  let s := (s.limitHit c v).swlFollow c
  let x := s.ax c
  let lv (k : Nat) : Nat := b2n (s.inLevel c k) * 2 ^ k
  let k := match x.plan with
    | some pl => pl.at t
    | none => x.kin
  (s.setAx c { x with inPrev := BitVec.ofNat 3 (lv 0 + lv 1 + lv 2), kin := k, kinT := t }, k)

end Sys2Proof.Machine
end

