-- ==== Sys2Proof/Machine/Motion.lean ====
section
/-! DEFINITION. The axis descriptors: enable, moves, modes, homing and limits (R327 to R353, R381,
R386, R395, R399 to R402). -/

namespace Sys2Proof.Machine

/-! ## Shared parts -/

/-- What an axis descriptor other than AX_ENABLE is refused with whatever it asks (R330); one that
arrives during a stop reaction finds no axis ready. -/
def State.notReady (s : State) (c : Nat) : Option (BitVec 16) :=
  let x := s.ax c
  if !x.enabled || x.stop ≠ .none then some 0x0322
  else if x.group.isSome then some 0x0323
  else none

/-- The earlier descriptor of an axis, and those of its queued segments, end as a new mode begins
(R328). -/
def State.supersede (s : State) (c : Nat) : State :=
  let x := s.ax c
  let s := x.pvt.foldl (fun s g => s.endSeg c g 0x0320) (s.endMotion c 0x0320)
  s.setAx c { s.ax c with pvt := [], pvtK := 0, pushing := false, rev := none }

/-- A mode with a trajectory begins (R325, R327). -/
def State.begin (s : State) (c : Nat) (m : AxMode) (pl : Plan) (cmd : Option Cmd) : State :=
  let s := s.supersede c
  s.setAx c { s.ax c with mode := m, plan := some pl, cmd := cmd }

/-- A mode without a trajectory begins. -/
def State.enter (s : State) (c : Nat) (m : AxMode) (cmd : Option Cmd) : State :=
  let s := s.supersede c
  s.setAx c { s.ax c with mode := m, plan := none, cmd := cmd }

/-- A limit of an axis is active (R399). -/
def State.anyLimit (s : State) (c : Nat) : Bool := s.inLevel c 0 || s.inLevel c 1

/-- The limits of a move descriptor (R326), `none` when a field is negative. -/
def State.descLims (s : State) (c : Nat) (v a d j : Rat) : Option Lims :=
  if v < 0 ∨ a < 0 ∨ d < 0 ∨ j < 0 then none
  else
    let m := s.drawerLims c
    some ⟨s.capV c (pickLim v m.v), pickLim a m.a, pickLim d m.d, pickLim j m.j⟩

/-- A Q48.16 field of a descriptor. -/
def descQ (d : Desc) (lo : Nat) : Rat := (d.les lo 8 : Rat) / 2 ^ 16

/-- The axis of a descriptor. -/
def descCtx (d : Desc) : Nat := bitsOf d.target 7 0

/-! ## AX_ENABLE (R204, R223, R331, R332) -/

/-- A fault source of an axis is still active (R331). -/
def State.faultActive (s : State) (c : Nat) : Bool :=
  match s.nearOf c with
  | none => (s.ax c).encFault || (s.ax c).drvFault
  | some n =>
    let x := s.fb n
    let bad := x.lineOpen ||| x.lineShort
    let src := s.rf FB_CFG n 1 0
    let used := if src = 1 then decide (bad &&& 7 ≠ 0) else if src = 2 then decide (bad &&& 8 ≠ 0)
      else false
    used || decide (x.stuck ≠ 0) || decide (s.mapped n ≠ 0)

/-- The notches of a profile (R193). -/
def notchesOf (prof : Nat) : List Nat := if prof = 1 then [0, 1] else if prof = 2 then [0, 1, 2, 3] else []

/-- The first word of a notch (R222). -/
def notchBase (n : Nat) : Nat := 0x100 + 16 * n

/-- Every notch of the profile restarts with zero state (R204, R221). -/
def State.clearNotches (s : State) (c : Nat) : State :=
  (notchesOf (s.prof c)).foldl (fun s n =>
    (List.range 4).foldl (fun s k => s.setDrawer c (notchBase n + 9 + k) 0) s) s

/-- The laws at an enable (R204, R223): every state is 0 and the positions are the measured one. -/
def State.initLaw (s : State) (c : Nat) : State :=
  let x := s.ax c
  let p := x.meas
  let s := (s.setAx c { x with law := { pMeas := p, pPrev := p, pFb := p, pHat := p } }).clearNotches c
  if s.prof c = 2 then s.setDrawer c 0x131 (s.drawer c 0x143) else s

/-- A group loses a member. -/
def State.leaveGroup (s : State) (c : Nat) : State :=
  match (s.ax c).group with
  | some g =>
    let x := s.grp g
    (s.setGrp g { x with members := x.members.filter (· ≠ c) }).setAx c { s.ax c with group := none }
  | none => s

/-- The axis is enabled (R331). -/
def State.enableAxis (s : State) (c : Nat) : State :=
  let s := ((s.supersede c).leaveGroup c).initLaw c
  -- the count of R47 starts from 0 at each enable
  let s := s.setCtx c { s.ctx c with lostRuns := 0 }
  let x := s.ax c
  s.setAx c { x with enabled := true, faulted := false, stop := .none, engage := false, od := false,
                     mode := .idle, plan := none, next := none, nextNew := none, cmd := none,
                     msHeld := 0, kin := { p := x.meas }, kinT := s.t0i }

/-- AX_ENABLE at its hinge point (R331, R547). -/
def applyAxEnable (d : Desc) (cmd : Option Cmd) (s : State) : State :=
  let c := descCtx d
  let x := s.ax c
  if bitOf d.aux 0 then
    let paired := s.mirrorOn || s.twin.st == .standby
    if paired && !s.isNear c && s.drawer c 0x099 = 0 then s.answer c cmd 0x0712
    else if !s.ctxEn c || (x.faulted && !bitOf d.aux 1) || s.faultActive c then s.answer c cmd 0x0322
    else (s.enableAxis c).answer c cmd 0
  else if x.enabled then
    let s := ((s.endAllMotion c 0x0320).leaveGroup c).axisOff c
    s.answer c cmd 0
  else s.answer c cmd 0

/-- AX_ENABLE. -/
def execAxEnable (d : Desc) (s : State) : Host.Outcome State Fault Refusal :=
  .next (s.runDesc 0x10 d applyAxEnable)

/-! ## Moves (R334 to R337, R399 to R401) -/

/-- AX_MOVE takes effect with the commanded state `k` at the instant `t` (R334, R335, R399, R401). -/
def State.move (s : State) (c : Nat) (d : Desc) (cmd : Option Cmd) (k : Kin) (t : Int) : State :=
  let x := s.ax c
  let base : Rat := if !bitOf d.aux 0 then 0 else match x.mode, x.cmd, x.plan with
    | .ptp, some _, some pl => (match pl.goal with
      | .pos q => q
      | .vel _ => k.p)
    | _, _, _ => k.p
  let target := base + descQ d 16
  match s.descLims c (descQ d 24) (descQ d 32) (descQ d 40) (descQ d 48) with
  | none => s.answer c cmd 0x0324
  | some m =>
    if s.limActive c (target - k.p) then s.answer c cmd 0x0343
    else if s.swlOn c && s.outsideSwl c target then s.answer c cmd 0x0346
    else s.begin c .ptp { start := k, goal := .pos target, lims := m, t0 := t } cmd

/-- AX_VEL takes effect (R337, R399). -/
def State.moveVel (s : State) (c : Nat) (d : Desc) (cmd : Option Cmd) (k : Kin) (t : Int) : State :=
  let v := descQ d 16
  match s.descLims c (absR v) (descQ d 24) (descQ d 32) (descQ d 40) with
  | none => s.answer c cmd 0x0324
  | some m =>
    let v := if v = 0 then 0 else sgn v * m.v
    if s.limActive c v then s.answer c cmd 0x0343
    else s.begin c .vel { start := k, goal := .vel v, lims := m, t0 := t } cmd

/-- A follower's first look at its master at an instant. -/
def State.followNow (s : State) (k : Nat) : Follow :=
  let v := (s.ms k).froz
  { ms := k, m := v.pos.toInt, last := v.pos }

/-- AX_CAM takes effect (R352, R353, R399). -/
def State.moveCam (s : State) (c : Nat) (d : Desc) (cmd : Option Cmd) (k : Kin) (t : Int) : State :=
  let ct := d.le 16 1
  let ms := d.le 17 1
  if 64 ≤ ct || 16 ≤ ms || s.msKind ms = 0 then s.answer c cmd 0x0324
  else if s.anyLimit c then s.answer c cmd 0x0343
  else if !(s.cam ct).ready then s.answer c cmd 0x032B
  else
    let f := { s.followNow ms with ct := ct, mOfs := d.les 24 8, cOfs := descQ d 32 }
    let (y, _) := (s.cam ct).value f.cOfs (f.master (s.ms ms).froz t - ofQ32 f.mOfs)
    if 1 < absR (k.p - y.p) then s.answer c cmd 0x032C
    else
      let s := s.enter c .cam cmd
      s.setAx c { s.ax c with follow := f, kin := k, kinT := t, msHeld := 0 }

/-- A move that waits for a slot (R372); it takes the place of one that waits already. -/
def State.hold (s : State) (c : Nat) (op : BitVec 8) (d : Desc) (cmd : Option Cmd) : State :=
  let s := match (s.ax c).held with
    | some h => s.answer c h.cmd 0x0320
    | none => s
  s.setAx c { s.ax c with held := some ⟨op, d, cmd, bitsOf d.aux 15 8⟩ }

/-- The fields of a move that waits for its slot are in their ranges (R372, R373). -/
def holdOk (op : BitVec 8) (d : Desc) : Bool :=
  if op = 0x11 then [24, 32, 40, 48].all (fun i => decide (0 ≤ descQ d i))
  else if op = 0x12 then [24, 32, 40].all (fun i => decide (0 ≤ descQ d i))
  else decide (d.le 16 1 < 64) && decide (d.le 17 1 < 16)

/-- A descriptor that moves an axis, now or from its slot's fire (R372). -/
def State.moveOrHold (s : State) (op : BitVec 8) (d : Desc) (cmd : Option Cmd)
    (go : Nat → Desc → Option Cmd → Kin → Int → State) : State :=
  let c := descCtx d
  match s.notReady c with
  | some st => s.answer c cmd st
  | none =>
    if bitOf d.aux 1 then (if holdOk op d then s.hold c op d cmd else s.answer c cmd 0x0324)
    else go c d cmd (s.ax c).kin s.t0i

/-- AX_MOVE at its hinge point. -/
def applyAxMove (d : Desc) (cmd : Option Cmd) (s : State) : State :=
  s.moveOrHold 0x11 d cmd s.move

/-- AX_MOVE. -/
def execAxMove (d : Desc) (s : State) : Host.Outcome State Fault Refusal :=
  .next (s.runDesc 0x11 d applyAxMove)

/-- AX_VEL at its hinge point. -/
def applyAxVel (d : Desc) (cmd : Option Cmd) (s : State) : State :=
  s.moveOrHold 0x12 d cmd s.moveVel

/-- AX_VEL. -/
def execAxVel (d : Desc) (s : State) : Host.Outcome State Fault Refusal :=
  .next (s.runDesc 0x12 d applyAxVel)

/-- AX_CAM at its hinge point. -/
def applyAxCam (d : Desc) (cmd : Option Cmd) (s : State) : State :=
  s.moveOrHold 0x16 d cmd s.moveCam

/-- AX_CAM. -/
def execAxCam (d : Desc) (s : State) : Host.Outcome State Fault Refusal :=
  .next (s.runDesc 0x16 d applyAxCam)

/-- AX_PVT at its hinge point (R338, R339, R399). -/
def applyAxPvt (d : Desc) (cmd : Option Cmd) (s : State) : State :=
  let c := descCtx d
  let x := s.ax c
  let n := bitsOf d.aux 1 0
  let seg (i : Nat) : PvtSeg :=
    { p := descQ d (16 + 20 * i), v := descQ d (24 + 20 * i), n := d.le (32 + 20 * i) 4,
      cmd := if i + 1 = n then cmd else none }
  let segs := (List.range n).map seg
  match s.notReady c with
  | some st => s.answer c cmd st
  | none =>
    if n = 0 || 2 < n || segs.any (fun g => g.n = 0 || decide (65535 < g.n)) then s.answer c cmd 0x0324
    else if s.anyLimit c then s.answer c cmd 0x0343
    else if segs.any (fun g => decide (s.dw48 c 0x200 < absR g.v)) then s.answer c cmd 0x0324
    else if x.mode = .pvt then
      if 16 < x.pvt.length + n then s.answer c cmd 0x0326
      else if x.pvt = [] then s.setAx c { x with pvt := segs, pvtK := 0, pvtFrom := x.kin }
      else s.setAx c { x with pvt := x.pvt ++ segs }
    else
      let s := s.enter c .pvt none
      s.setAx c { s.ax c with pvt := segs, pvtK := 0, pvtFrom := x.kin }

/-- AX_PVT. -/
def execAxPvt (d : Desc) (s : State) : Host.Outcome State Fault Refusal :=
  .next (s.runDesc 0x13 d applyAxPvt)

/-- AX_STEP at its hinge point (R341, R342, R399). -/
def applyAxStep (d : Desc) (cmd : Option Cmd) (s : State) : State :=
  let c := descCtx d
  let n := bitsOf d.aux 2 0
  match s.notReady c with
  | some st => s.answer c cmd st
  | none =>
    if s.anyLimit c then s.answer c cmd 0x0343
    else if (s.ax c).kin.v ≠ 0 then s.answer c cmd 0x0325
    else
      let s := s.enter c .step none
      let x := s.ax c
      (s.setAx c { x with stepSrc := n, stepP := x.kin.p, stepQ := x.kin.p, stepS := 0,
                          stepLast := s.stepCount n }).answer c cmd 0

/-- AX_STEP. -/
def execAxStep (d : Desc) (s : State) : Host.Outcome State Fault Refusal :=
  .next (s.runDesc 0x14 d applyAxStep)

/-- AX_GEAR at its hinge point (R347, R348, R399). -/
def applyAxGear (d : Desc) (cmd : Option Cmd) (s : State) : State :=
  let c := descCtx d
  let ms := d.le 24 1
  let den := d.le 20 4
  match s.notReady c with
  | some st => s.answer c cmd st
  | none =>
    if 16 ≤ ms || den = 0 || s.msKind ms = 0 then s.answer c cmd 0x0324
    else if s.anyLimit c then s.answer c cmd 0x0343
    else match s.descLims c 0 (descQ d 32) (descQ d 40) (descQ d 48) with
      | none => s.answer c cmd 0x0324
      | some m =>
        let v := (s.ms ms).froz
        let num := d.les 16 4
        let gv := (num : Rat) / den * ofQ32 v.vel.toInt
        let f := { s.followNow ms with num := num, den := den, engage := bitOf d.aux 0 }
        if bitOf d.aux 0 then
          let s := s.begin c .gear (s.planFrom c (.vel gv) m) cmd
          s.setAx c { s.ax c with follow := f, msHeld := 0 }
        else
          let s := s.enter c .gear none
          let x := s.ax c
          let f := { f with locked := true, pEng := x.kin.p, mEng := f.master v s.t0i, vel := gv }
          (s.setAx c { x with follow := f, msHeld := 0, kin := { x.kin with v := gv, a := 0 } }).answer
            c cmd 0

/-- AX_GEAR. -/
def execAxGear (d : Desc) (s : State) : Host.Outcome State Fault Refusal :=
  .next (s.runDesc 0x15 d applyAxGear)

/-- AX_STOP at its hinge point (R235, R336). -/
def applyAxStop (d : Desc) (cmd : Option Cmd) (s : State) : State :=
  let c := descCtx d
  match s.notReady c with
  | some st => s.answer c cmd st
  | none =>
    if bitOf d.aux 0 then
      let s := (s.supersede c).axisQstop c
      s.setAx c { s.ax c with cmd := cmd }
    else match s.descLims c 0 0 (descQ d 24) (descQ d 32) with
      | none => s.answer c cmd 0x0324
      | some m => s.begin c .stop (s.planFrom c (.vel 0) { m with v := 0, a := m.d }) cmd

/-- AX_STOP. -/
def execAxStop (d : Desc) (s : State) : Host.Outcome State Fault Refusal :=
  .next (s.runDesc 0x17 d applyAxStop)

/-! ## Homing (R381, R386, R387, R395) -/

/-- The axis has an index (R386, item 2). -/
def State.hasIndex (s : State) (c : Nat) : Bool :=
  match s.nearOf c with
  | some n => s.rf FB_CFG n 1 0 == 1
  | none => true

/-- The axis's feedback is absolute (R386, item 4). -/
def State.isAbsolute (s : State) (c : Nat) : Bool :=
  match s.nearOf c with
  | some n => s.rf FB_CFG n 1 0 == 2
  | none => match s.farOf c with
    | some (r, n, _) => bitOf ((s.ring r).node n).caps 6
    | none => false

/-- What R386 refuses. -/
def State.homingBad (s : State) (c : Nat) : Bool :=
  match bitsOf (s.drawer c 0x300) 2 0 with
  | 0 => true
  | 2 => !s.hasIndex c
  | 4 => !s.hasIndex c
  | 5 => bitsOf (s.drawer c 0x080) 1 0 == 0
  | 6 => !s.isAbsolute c
  | 7 => true
  | _ => false

/-- HM_START at its hinge point (R386, R387, R396). -/
def applyHmStart (d : Desc) (cmd : Option Cmd) (s : State) : State :=
  let c := descCtx d
  match s.notReady c with
  | some st => s.answer c cmd st
  | none =>
    if s.homingBad c then s.answer c cmd 0x0341
    else
      let m := bitsOf (s.drawer c 0x300) 2 0
      let s := (s.enter c .homing cmd).setHomed c false
      let x := s.ax c
      let s := s.setAx c { x with pushing := decide (m = 5),
                                  hm := { entry := x.kin.p, method := m, neg := bitOf (s.drawer c 0x300) 3 } }
      if m = 6 then
        let s := (s.reference c (s.ax c).meas).homeDone c
        if (s.ax c).kin.v = 0 then s else s.stopAt c (s.dw48 c 0x20C)
      else
        let home := s.inLevel c (s.ax c).homeIn
        let st : HmSt := if m = 4 then .indexSeek else if m = 5 then .push
          else if home then .clear else .search
        let s := s.setAx c { s.ax c with hm := { (s.ax c).hm with st := st } }
        s.homeRamp c

/-- HM_START. -/
def execHmStart (d : Desc) (s : State) : Host.Outcome State Fault Refusal :=
  .next (s.runDesc 0x18 d applyHmStart)

/-- HM_SET at its hinge point (R395). -/
def applyHmSet (d : Desc) (cmd : Option Cmd) (s : State) : State :=
  let c := descCtx d
  match s.notReady c with
  | some st => s.answer c cmd st
  | none =>
    if (s.ax c).kin.v ≠ 0 then s.answer c cmd 0x0325
    else (s.shiftAxis c (descQ d 16 - (s.ax c).meas)).answer c cmd 0

/-- HM_SET. -/
def execHmSet (d : Desc) (s : State) : Host.Outcome State Fault Refusal :=
  .next (s.runDesc 0x19 d applyHmSet)

/-- An input's chatter latch may not be cleared yet (R381). -/
def State.stillChatters (s : State) (c k : Nat) : Bool :=
  decide (s.chatMax c < (recentTrans s.bt ((s.ax c).inp k).trans).length) ||
    (k != 2 && s.inFilt c k)

/-- LIM_CLEAR at its hinge point (R381). -/
def applyLimClear (d : Desc) (cmd : Option Cmd) (s : State) : State :=
  let c := descCtx d
  let ks := [0, 1, 2].filter (fun k => bitOf d.aux k)
  match s.notReady c with
  | some st => s.answer c cmd st
  | none =>
    if ks.any (s.stillChatters c) then s.answer c cmd 0x0349
    else
      let x := ks.foldl (fun (x : Axis) k => x.setInp k { x.inp k with chat := false }) (s.ax c)
      (s.setAx c x).answer c cmd 0

/-- LIM_CLEAR. -/
def execLimClear (d : Desc) (s : State) : Host.Outcome State Fault Refusal :=
  .next (s.runDesc 0x1A d applyLimClear)

/-! ## Cam tables and virtual masters (R344, R350, R351) -/

/-- An axis in CAM follows a table (R351). -/
def State.camUsed (s : State) (k : Nat) : Bool :=
  axisCtxs.any (fun c => (s.ax c).mode == .cam && (s.ax c).enabled && (s.ax c).follow.ct == k)

/-- CT_LOAD at its hinge point (R350, R351). -/
def applyCtLoad (d : Desc) (cmd : Option Cmd) (s : State) : State :=
  let k := bitsOf d.aux 7 0
  let f := bitsOf d.aux 17 8
  if 64 ≤ k || 1024 < f + 5 then s.reply 0 cmd 0x0324
  else if s.camUsed k then s.reply 0 cmd 0x032A
  else
    let x := s.cam k
    let ld := (List.range 5).foldl (fun m i =>
      tset 0 m (f + i) (BitVec.ofNat 64 (d.le (16 + 8 * i) 8))) x.load
    let y := { x with load := ld }
    { s with cams := tset {} s.cams k y }.reply 0 cmd 0

/-- CT_LOAD. -/
def execCtLoad (d : Desc) (s : State) : Host.Outcome State Fault Refusal :=
  .next (s.runDesc 0x32 d applyCtLoad)

/-- CT_COMMIT at its hinge point (R349 to R351). -/
def applyCtCommit (d : Desc) (cmd : Option Cmd) (s : State) : State :=
  let k := bitsOf d.aux 7 0
  let n := d.le 16 2
  if 64 ≤ k || n < 4 || 1024 < n || d.le 24 8 = 0 || 1 < d.le 32 1 then s.reply 0 cmd 0x0324
  else if s.camUsed k then s.reply 0 cmd 0x032A
  else
    let x := s.cam k
    let s := s.reply 0 x.cmd 0x0320
    let y := { x with n := n, xlen := BitVec.ofNat 64 (d.le 24 8), cyclic := d.le 32 1 == 1,
                      pts := x.load, ready := false, computing := true, cmd := cmd }
    { s with cams := tset {} s.cams k y }

/-- CT_COMMIT. -/
def execCtCommit (d : Desc) (s : State) : Host.Outcome State Fault Refusal :=
  .next (s.runDesc 0x33 d applyCtCommit)

/-- CAM_TABLE_READY (R350): the spline of a table has been computed in the sill. -/
def execCamTableReady (k : Fin 64) (s : State) : Host.Outcome State Fault Refusal :=
  let x := s.cam k
  if x.computing then
    let y := { x with computing := false, ready := true, cmd := none }
    .next ({ s with cams := tset {} s.cams k y }.reply 0 x.cmd 0)
  else .next s

/-- VM_SET at its hinge point (R344). -/
def applyVmSet (d : Desc) (cmd : Option Cmd) (s : State) : State :=
  let k := bitsOf d.aux 3 0
  if s.msKind k ≠ 4 then s.reply 0 cmd 0x0324
  else
    let x := s.ms k
    let s := s.reply 0 x.cmd 0x0320
    let set := bitOf d.aux 4
    let pos := if set then BitVec.ofNat 64 (d.le 32 8) else x.live.pos
    let m := x.motion ((x.vmT : Rat) / 1000000000)
    let from_ : Kin := { p := if set then ofQ32 pos.toInt else m.p, v := m.v, a := 0 }
    let live := { x.live with pos := pos, tref := s.cyc.t0.setWidth 32, valid := true }
    s.setMs k { x with vmV := BitVec.ofNat 64 (d.le 16 8), vmA := BitVec.ofNat 64 (d.le 24 8),
                       vmStart := from_, vmT := 0, live := live, froz := live, cmd := cmd }

/-- VM_SET. -/
def execVmSet (d : Desc) (s : State) : Host.Outcome State Fault Refusal :=
  .next (s.runDesc 0x34 d applyVmSet)

end Sys2Proof.Machine
end

