-- ==== Sys2Proof/Machine/Groups.lean ====
section
/-! DEFINITION. Coordinated groups: members, path segments, the path's trajectory and the group's run
(R354 to R362). -/

namespace Sys2Proof.Machine

/-- The group of a descriptor. -/
def descGrp (d : Desc) : Nat := bitsOf d.target 7 0 - 129

/-- The indexes that a mask names. -/
def segMembers (g : Seg) : List Nat := (List.range 16).filter (fun i => g.mask.getLsbD i)

/-! ## GRP_DEFINE (R354, R399) -/

/-- The member list of a descriptor: 0 ends it. -/
def defineList (d : Desc) : List Nat := ((List.range 16).map (fun i => d.le (16 + i) 1)).takeWhile (· ≠ 0)

/-- A member that a group may have (R354). -/
def State.memberOk (s : State) (g c : Nat) : Bool :=
  let h := s.hdr c
  let k := s.hdr (129 + g)
  decide (c ≤ 128) && (s.ax c).enabled && (s.ax c).stop == StopSt.none &&
    ((s.ax c).group == none || (s.ax c).group == some g) &&
    hdrKeep h == g + 1 && bitsOf h 59 55 == bitsOf k 59 55

/-- The queued segments of a group complete with a status, and its path ends. -/
def State.dropSegs (s : State) (g : Nat) (st : BitVec 16) : State :=
  let x := s.grp g
  let s := x.queue.foldl (fun (s : State) q => s.reply (129 + g) q.cmd st) s
  s.setGrp g { x with queue := [], path := none, gone := 0, back := none, st := .idle }

/-- A member leaves for a mode of its own: one that moves comes to rest first (R325). -/
def State.toRest (s : State) (c : Nat) (rest : AxMode) (move : AxMode) (g : Option Nat) : State :=
  let x := { s.ax c with group := g, next := none, nextNew := none }
  if x.kin.v = 0 ∧ x.kin.a = 0 then s.setAx c { x with mode := rest, plan := none }
  else s.setAx c { x with mode := move, plan := some (s.planFrom c (.vel 0) (s.drawerLims c)) }

/-- A member is released to IDLE; one that moves reaches it through STOP. -/
def State.release (s : State) (c : Nat) : State :=
  let x := s.ax c
  if x.enabled && x.stop == StopSt.none then s.toRest c .idle .stop none
  else s.setAx c { x with group := none, next := none, nextNew := none }

/-- A member enters GROUP; one that moves comes to rest there (R325). -/
def State.joinGroup (s : State) (g c : Nat) : State := (s.enter c .group none).toRest c .group .group (some g)

/-- GRP_DEFINE at its hinge point (R354). -/
def applyGrpDefine (d : Desc) (cmd : Option Cmd) (s : State) : State :=
  let g := descGrp d
  let ms := defineList d
  let x := s.grp g
  if !ms.all (s.memberOk g) || decide (ms.eraseDups.length ≠ ms.length) then s.reply (129 + g) cmd 0x032D
  else if ms.any s.anyLimit then s.reply (129 + g) cmd 0x0343
  else
    let s := s.dropSegs g 0x0320
    let s := (x.members.filter (fun c => c ∉ ms)).foldl State.release s
    let s := (ms.filter (fun c => c ∉ x.members)).foldl (fun s c => s.joinGroup g c) s
    (s.setGrp g { s.grp g with members := ms }).reply (129 + g) cmd 0

/-- GRP_DEFINE. -/
def execGrpDefine (d : Desc) (s : State) : Host.Outcome State Fault Refusal :=
  .next (s.runDesc 0x20 d applyGrpDefine)

/-! ## Geometry (R356, R357) -/

/-- Where a segment begins for a member: the end of the last queued segment that moves it, else its
commanded position. -/
def State.segFrom (s : State) (g i : Nat) : Rat :=
  let x := s.grp g
  match x.queue.reverse.find? (fun q => q.mask.getLsbD i) with
  | some q => tget 0 q.ends i
  | none => (s.ax (x.members.getD i 0)).kin.p

/-- The turns that an arc travels, from its start. -/
def Seg.turns (q : Seg) (from_ : Table Rat) : Rat :=
  let a0 := angle (tget 0 from_ q.x - q.cx) (tget 0 from_ q.y - q.cy)
  let a1 := angle (tget 0 q.ends q.x - q.cx) (tget 0 q.ends q.y - q.cy)
  let d := if q.cw then a0 - a1 else a1 - a0
  let f := d - d.floor
  if f = 0 then 1 else f

/-- The radius of an arc at its start. -/
def Seg.radius (q : Seg) (from_ : Table Rat) : Rat :=
  let dx := tget 0 from_ q.x - q.cx
  let dy := tget 0 from_ q.y - q.cy
  root (dx * dx + dy * dy)

/-- The way of a member along a segment. -/
def Seg.delta (q : Seg) (from_ : Table Rat) (i : Nat) : Rat := tget 0 q.ends i - tget 0 from_ i

/-- The length of a segment: L of R356, or of the arc. -/
def Seg.length (q : Seg) (from_ : Table Rat) : Rat :=
  if q.arc then 2 * piVal * q.radius from_ * q.turns from_
  else (segMembers q).foldl (fun m i => max m (absR (q.delta from_ i))) 0

/-- The share of a segment's length that a member moves. -/
def Seg.share (q : Seg) (from_ : Table Rat) (i : Nat) : Rat :=
  if q.arc && (i = q.x || i = q.y) then 1 else absR (q.delta from_ i) / q.length from_

/-- A limit of a segment; 0 sets none. -/
def segLim (v m : Rat) : Rat := if v = 0 then m else min v m

/-- The limits of a member; a latched limit holds it to HOME_SPEED (R400). -/
def State.memberLims (s : State) (c : Nat) : Lims :=
  let m := s.drawerLims c
  { m with v := s.capV c m.v }

/-- The effective path limits of a segment (R356, R357). -/
def State.segLims (s : State) (g : Nat) (q : Seg) (from_ : Table Rat) : Lims :=
  let ms := (s.grp g).members
  let each (f : Lims → Rat) : List Rat := (segMembers q).filterMap (fun i =>
    let r := q.share from_ i
    if r = 0 then none else some (f (s.memberLims (ms.getD i 0)) / r))
  let least (v : Rat) (l : List Rat) : Rat := l.foldl (fun m y => segLim m y) v
  let v := least q.lims.v (each Lims.v)
  let a := least q.lims.a (each (fun m => min m.a m.d))
  let v := if q.arc then segLim v (root (a * q.radius from_)) else v
  ⟨v, a, a, least q.lims.j (each Lims.j)⟩

/-- The ends of a segment over where it began. -/
def Seg.after (q : Seg) (from_ : Table Rat) : Table Rat :=
  (segMembers q).foldl (fun m i => tset 0 m i (tget 0 q.ends i)) from_

/-- The state of a member at the path state `k`, of which `u` lies on the segment. -/
def Seg.member (q : Seg) (from_ : Table Rat) (i : Nat) (k : Kin) (u : Rat) : Kin :=
  let p0 := tget 0 from_ i
  if !q.mask.getLsbD i then { p := p0 }
  else if q.arc && (i = q.x || i = q.y) then
    let r := q.radius from_
    let sg : Rat := if q.cw then -1 else 1
    let a := angle (tget 0 from_ q.x - q.cx) (tget 0 from_ q.y - q.cy) +
      sg * u / (2 * piVal * r)
    let c := cosT a
    let n := sinT a
    if i = q.x then
      { p := q.cx + r * c, v := -sg * n * k.v, a := -sg * n * k.a - c * k.v * k.v / r }
    else { p := q.cy + r * n, v := sg * c * k.v, a := sg * c * k.a - n * k.v * k.v / r }
  else
    let f := q.delta from_ i / q.length from_
    { p := p0 + f * u, v := f * k.v, a := f * k.a }

/-! ## The path (R358 to R360) -/

/-- The queued segments that the path runs through without a stop: up to the first one with BLEND
0. -/
def chain : List Seg → List Seg
  | [] => []
  | q :: qs => if q.blend = 0 then [q] else q :: chain qs

/-- Some segments one after the other from the place `p`: where each ends, under its own limits. -/
def State.pathLegs (s : State) (g : Nat) : List Seg → Table Rat → Rat → List Leg
  | [], _, _ => []
  | q :: qs, from_, p =>
    let e := p + q.length from_
    { p := e, v := 0, lims := s.segLims g q from_ } :: s.pathLegs g qs (q.after from_) e

/-- The greatest speed at the place `p` from which a leg's end is reached at its velocity. -/
def Leg.entry (l : Leg) (p : Rat) : Rat :=
  let fits (v : Rat) : Bool :=
    let k : Kin := { p := p, v := v }
    decide ((runAll k (ramp k l.v l.lims)).p ≤ l.p)
  if l.lims.v ≤ l.v then l.lims.v else bisect fits 60 l.v (l.lims.v - l.v)

/-- The speeds at the ends of legs from which the rest of the path can stop (R358), and the speed at its
begin. -/
def legsBack (p : Rat) : List Leg → List Leg × Rat
  | [] => ([], 0)
  | l :: ls =>
    let r := legsBack l.p ls
    let l := { l with v := min r.2 l.lims.v }
    (l :: r.1, l.entry p)

/-- The speeds at the ends of legs that the path can reach from a state. -/
def legsForth (k : Kin) : List Leg → List Leg
  | [] => []
  | l :: ls =>
    let fits (v : Rat) : Bool := decide ((runAll k (ramp k v l.lims)).p ≤ l.p)
    let lo := min l.v (max 0 (k.v + k.a * absR k.a / (2 * l.lims.j)))
    let v := if fits l.v then l.v else bisect fits 60 lo (l.v - lo)
    { l with v := v } :: legsForth { p := l.p, v := v, a := 0 } ls

/-- The path's trajectory from a state, to the end of the chain: each segment under its own limits, with
no acceleration along the path at the ends of segments (R356, R358). -/
def State.pathFrom (s : State) (g : Nat) (k : Kin) (t : Int) : Option Plan :=
  let x := s.grp g
  let ls := legsForth k (legsBack k.p (s.pathLegs g (chain x.queue) x.from_ x.gone)).1
  ls.getLast?.map (fun l => { start := k, goal := .pos l.p, lims := l.lims, t0 := t, legs := ls.dropLast })

/-- The path starts on its first queued segment. -/
def State.startPath (s : State) (g : Nat) (t : Int) : State :=
  let x := s.grp g
  let from_ := x.members.zipIdx.foldl (fun m p => tset 0 m p.2 (s.ax p.1).kin.p) []
  let s := s.setGrp g { x with from_ := from_, gone := 0, back := none, st := .run }
  s.setGrp g { s.grp g with path := s.pathFrom g {} t }

/-- The limits under which a path stops from a state: those of the segments that it still enters. -/
def stopLims (k : Kin) (m : Lims) : List Leg → Lims
  | [] => m
  | l :: ls =>
    let m : Lims := ⟨min m.v l.lims.v, min m.a l.lims.a, min m.d l.lims.d, min m.j l.lims.j⟩
    if (runAll k (ramp k 0 m)).p ≤ l.p then m else stopLims k m ls

/-- The trajectory of a path that stops from a state (R360). -/
def State.stopPlan (s : State) (g : Nat) (k : Kin) (m : Lims) : Plan :=
  let x := s.grp g
  let ls := s.pathLegs g (chain x.queue) x.from_ x.gone
  let m := match ls with
    | [] => m
    | l :: _ => stopLims k l.lims ls
  { start := k, goal := .vel 0, lims := m, t0 := s.t0i }

/-- The path stops under its limits (R360). -/
def State.stopPath (s : State) (g : Nat) (st : GrpSt) : State :=
  let x := s.grp g
  s.setGrp g { x with path := x.path.map (fun p => s.stopPlan g (p.at s.t0i) p.lims), st := st }

/-- TAG of the running segment (R374); 0 when none runs. -/
def Grp.runTag (x : Grp) : Nat :=
  match x.path, x.queue with
  | some _, q :: _ => (q.cmd.map (·.tag.toNat)).getD 0
  | _, _ => 0

/-- Segments that the path has passed end (R362); `n` bounds their number. -/
def State.passSegs : Nat → State → Nat → Kin → Bool → State
  | 0, s, _, _, _ => s
  | n + 1, s, g, k, fin =>
    let x := s.grp g
    match x.queue with
    | [] => s
    | q :: qs =>
      let l := q.length x.from_
      let passed := if qs = [] || q.blend = 0 then fin else decide (x.gone + l ≤ k.p)
      if !passed then s
      else
        let s := s.setGrp g { x with queue := qs, from_ := q.after x.from_, gone := x.gone + l,
                                     back := some (q.blend, l, q.mask) }
        (s.reply (129 + g) q.cmd 0).passSegs n g k (fin && q.blend ≠ 0)

/-- The blended corner in which the path stands (R359): its BLEND, and the members that move along it. -/
def Grp.blendAt (x : Grp) (q : Seg) (next : Option Seg) (u : Rat) : Option (Nat × BitVec 16) :=
  let l := q.length x.from_
  match next, x.back with
  | some n, _ =>
    if q.blend ≠ 0 && decide (l - u < min l (n.length (q.after x.from_)) / 2) then
      some (q.blend, q.mask ||| n.mask)
    else behind x q l u
  | none, _ => behind x q l u
where
  /-- The corner behind. -/
  behind (x : Grp) (q : Seg) (l u : Rat) : Option (Nat × BitVec 16) :=
    match x.back with
    | some (b, l0, m) => if b ≠ 0 && decide (u < min l0 l / 2) then some (b, m ||| q.mask) else none
    | none => none

/-- The members' deviations from the path at a place lie together within a bound (R359). -/
def blendFits (b : Nat) (mask : BitVec 16) (p : Rat) : Bool :=
  decide ((((List.range 16).filter (fun i => mask.getLsbD i)).map (fun i =>
    Config.blendDev i p * Config.blendDev i p)).sum ≤ (b : Rat) * b)

/-- A member in a blended corner: within BLEND of the programmed path; its velocity and acceleration are
those of the transition. -/
def blended (corner : Option (Nat × BitVec 16)) (i : Nat) (p : Rat) (k : Kin) : Kin :=
  match corner with
  | some (b, m) =>
    if m.getLsbD i && blendFits b m p then
      { p := k.p + Config.blendDev i p, v := Config.blendVel i p, a := Config.blendAcc i p }
    else k
  | none => k

/-- What the group computes for its members' next run (R355). -/
def State.moveMembers (s : State) (g : Nat) (k : Kin) : State :=
  let x := s.grp g
  let give (s : State) (c : Nat) (m : Kin) : State := s.setAx c { s.ax c with nextNew := some m }
  match x.queue with
  | [] => x.members.zipIdx.foldl (fun s p => give s p.1 { p := tget 0 x.from_ p.2 }) s
  | q :: qs =>
    let u := k.p - x.gone
    let corner := x.blendAt q qs.head? u
    x.members.zipIdx.foldl (fun s p => give s p.1 (blended corner p.2 k.p (q.member x.from_ p.2 k u))) s

/-- Every member is at rest. -/
def State.membersRest (s : State) (g : Nat) : Bool :=
  (s.grp g).members.all (fun c => (s.ax c).kin.v == 0)

/-- A running path is planned anew while a chatter latch holds one of its members back (R400). -/
def State.capPath (s : State) (g : Nat) : State :=
  let x := s.grp g
  match x.st, x.path with
  | .run, some pl =>
    if x.members.any (fun c => (s.ax c).latched) then
      s.setGrp g { x with path := (s.pathFrom g (pl.at s.t0i) s.t0i).or x.path }
    else s
  | _, _ => s

/-- One run of a group's context (R354 to R360). -/
def State.groupRun (s : State) (g : Nat) : State :=
  let x := s.grp g
  let t := s.sampleT
  let s := if x.path.isNone && x.queue ≠ [] && (x.st == .idle || x.st == .run) && s.membersRest g then
      s.startPath g s.t0i
    else s
  let s := s.capPath g
  let x := s.grp g
  match x.path with
  | none => s
  | some pl =>
    let k := pl.at t
    let fin := pl.done t
    match x.st with
    | .run =>
      let s := s.passSegs 65 g k fin
      let s := s.moveMembers g k
      if fin then s.setGrp g { s.grp g with path := none, st := .idle } else s
    | .hold => (s.passSegs 65 g k false).moveMembers g k
    | .stopping =>
      let s := (s.passSegs 65 g k false).moveMembers g k
      if fin then s.dropSegs g 0x0321 else s
    | .idle => s

/-! ## Segments (R356 to R358, R362) -/

/-- The radii of an arc's start and end differ by more than 2 counts (R357). -/
def arcBad (q : Seg) (from_ : Nat → Rat) : Bool :=
  let sq (x y : Rat) : Rat := (x - q.cx) * (x - q.cx) + (y - q.cy) * (y - q.cy)
  let a := sq (from_ q.x) (from_ q.y)
  let b := sq (tget 0 q.ends q.x) (tget 0 q.ends q.y)
  let d := max a b - min a b - 4
  decide (0 < d) && decide (16 * min a b < d * d)

/-- A segment whose end positions are known is queued; a path that runs toward its end is planned
anew (R357, R358). -/
def State.queueSeg (s : State) (g : Nat) (q : Seg) : State :=
  if q.arc && arcBad q (s.segFrom g) then s.reply (129 + g) q.cmd 0x032E
  else
    let x := s.grp g
    let s := s.setGrp g { x with queue := x.queue ++ [q] }
    match x.st, x.path with
    | .run, some pl =>
      s.setGrp g { s.grp g with path := (s.pathFrom g (pl.at s.t0i) s.t0i).or x.path }
    | _, _ => s

/-- A segment descriptor opens a segment, which its GRP_POS descriptors complete (R358, R362). -/
def State.openSeg (s : State) (g : Nat) (sq : BitVec 6) (q : Seg) : State :=
  let x := s.grp g
  let bad := q.mask = 0 || (segMembers q).any (fun i => decide (x.members.length ≤ i))
  if bad then s.reply (129 + g) q.cmd 0x0324
  else if 64 ≤ x.queue.length then s.reply (129 + g) q.cmd 0x032F
  else
    let s := match x.open_ with
      | some o => (o.seg.cmd :: o.cmds).foldl (fun (s : State) m => s.reply (129 + g) m 0x0330) s
      | none => s
    s.setGrp g { s.grp g with open_ := some { seg := q, sq := sq, need := segMembers q } }

/-- GRP_LINE at its hinge point (R356). -/
def applyGrpLine (d : Desc) (cmd : Option Cmd) (s : State) : State :=
  let v := descQ d 16
  let a := descQ d 24
  let j := descQ d 32
  if v < 0 ∨ a < 0 ∨ j < 0 then s.reply (129 + descGrp d) cmd 0x0324
  else s.openSeg (descGrp d) d.sq
    { arc := false, lims := ⟨v, a, a, j⟩, blend := d.le 40 4, mask := BitVec.ofNat 16 (d.le 44 2),
      cmd := cmd }

/-- GRP_LINE. -/
def execGrpLine (d : Desc) (s : State) : Host.Outcome State Fault Refusal :=
  .next (s.runDesc 0x21 d applyGrpLine)

/-- GRP_ARC at its hinge point (R357). -/
def applyGrpArc (d : Desc) (cmd : Option Cmd) (s : State) : State :=
  let v := descQ d 16
  let a := descQ d 24
  let j := descQ d 32
  let x := d.le 60 1
  let y := d.le 61 1
  let h := d.le 62 1
  let bad := decide (v < 0) || decide (a < 0) || decide (j < 0) || 16 ≤ x || 16 ≤ y || x = y ||
    (h ≠ 255 && (16 ≤ h || h = x || h = y)) || 1 < d.le 63 1
  if bad then s.reply (129 + descGrp d) cmd 0x0324
  else
    let m := 2 ^ x + 2 ^ y + (if h = 255 then 0 else 2 ^ h)
    s.openSeg (descGrp d) d.sq
      { arc := true, lims := ⟨v, a, a, j⟩, blend := d.le 56 4, mask := BitVec.ofNat 16 m,
        cx := descQ d 40, cy := descQ d 48, x := x, y := y, h := if h = 255 then none else some h,
        cw := d.le 63 1 = 1, cmd := cmd }

/-- GRP_ARC. -/
def execGrpArc (d : Desc) (s : State) : Host.Outcome State Fault Refusal :=
  .next (s.runDesc 0x22 d applyGrpArc)

/-- GRP_POS at its hinge point (R362): up to six end positions of the open segment. -/
def applyGrpPos (d : Desc) (cmd : Option Cmd) (s : State) : State :=
  let g := descGrp d
  match (s.grp g).open_ with
  | none => s.reply (129 + g) cmd 0x0330
  | some o =>
    if o.sq ≠ d.sq then s.reply (129 + g) cmd 0x0330
    else
      let take := o.need.take 6
      let ends := take.zipIdx.foldl (fun m p => tset 0 m p.1 (descQ d (16 + 8 * p.2))) o.seg.ends
      let seg : Seg := { o.seg with ends := ends }
      let o : SegOpen := { o with seg := seg, need := o.need.drop 6, cmds := o.cmds ++ [cmd] }
      if o.need ≠ [] then s.setGrp g { s.grp g with open_ := some o }
      else
        let s := s.setGrp g { s.grp g with open_ := none }
        (o.cmds.foldl (fun (s : State) m => s.reply (129 + g) m 0) s).queueSeg g o.seg

/-- GRP_POS. -/
def execGrpPos (d : Desc) (s : State) : Host.Outcome State Fault Refusal :=
  .next (s.runDesc 0x2E d applyGrpPos)

/-! ## GRP_HOLD, GRP_RESUME, GRP_FLUSH (R360) -/

/-- GRP_HOLD at its hinge point. -/
def applyGrpHold (d : Desc) (cmd : Option Cmd) (s : State) : State :=
  let g := descGrp d
  let s := match (s.grp g).st with
    | .run | .idle => s.stopPath g .hold
    | _ => s
  s.reply (129 + g) cmd 0

/-- GRP_HOLD. -/
def execGrpHold (d : Desc) (s : State) : Host.Outcome State Fault Refusal :=
  .next (s.runDesc 0x23 d applyGrpHold)

/-- GRP_RESUME at its hinge point. -/
def applyGrpResume (d : Desc) (cmd : Option Cmd) (s : State) : State :=
  let g := descGrp d
  let x := s.grp g
  let s := match x.st with
    | .hold =>
      let pl := match x.path with
        | some p => s.pathFrom g (p.at s.t0i) s.t0i
        | none => none
      s.setGrp g { x with st := if pl.isSome then .run else .idle, path := pl }
    | _ => s
  s.reply (129 + g) cmd 0

/-- GRP_RESUME. -/
def execGrpResume (d : Desc) (s : State) : Host.Outcome State Fault Refusal :=
  .next (s.runDesc 0x24 d applyGrpResume)

/-- A group's path stops and its queued segments then complete with MOVE_ABORTED (R360). -/
def State.flushGroup (s : State) (g : Nat) : State :=
  if (s.grp g).path.isSome then s.stopPath g .stopping else s.dropSegs g 0x0321

/-- GRP_FLUSH at its hinge point. -/
def applyGrpFlush (d : Desc) (cmd : Option Cmd) (s : State) : State :=
  (s.flushGroup (descGrp d)).reply (129 + descGrp d) cmd 0

/-- GRP_FLUSH. -/
def execGrpFlush (d : Desc) (s : State) : Host.Outcome State Fault Refusal :=
  .next (s.runDesc 0x25 d applyGrpFlush)

end Sys2Proof.Machine
end

