-- ==== Sys2Proof/Machine/Events.lean ====
section
/-! DEFINITION. Compare slots: arming, evaluation, fires and their actions (R363 to R372). -/

namespace Sys2Proof.Machine

/-! ## The source of a slot (R364, R365) -/

/-- The commanded position of an axis at an instant (R364); a member of a group follows its path one run
late (R355). -/
def State.ownerAt (s : State) (c : Nat) (t : Int) : Rat :=
  let x := s.ax c
  match x.mode, x.group, x.plan with
  | .group, some g, none =>
    let y := s.grp g
    match y.path, y.queue with
    | some pl, q :: _ =>
      let k := pl.at (t - (s.tsNs c : Int))
      (q.member y.from_ (y.members.idxOf c) k (k.p - y.gone)).p
    | _, _ => (s.kinAt c t).p
  | _, _, _ => (s.kinAt c t).p

/-- The value of a slot's source at an instant (R364): counts for an axis source, 2^-32 counts of a
master, unwrapped from its present value. -/
def State.evSource (s : State) (e : Ev) (t : Int) : Rat :=
  let quad (p v a dt : Rat) : Rat := p + v * dt + a * dt * dt / 2
  if e.source < 16 then
    let x := s.ms e.source
    let dt := ((BitVec.ofInt 32 t - x.froz.tref).toInt : Rat) / 1000000000
    if s.msKind e.source = 4 then
      (x.froz.pos.toInt : Rat) + ((x.motion ((x.vmT : Rat) / 1000000000 + dt)).p -
        (x.motion ((x.vmT : Rat) / 1000000000)).p) * 2 ^ 32
    else
      let v := ofQ32 x.froz.vel.toInt
      let gap : Rat := ((x.froz.tref - x.prevRef).toInt : Rat) / 1000000000
      let a := if gap = 0 then 0 else (v - ofQ32 x.prevVel.toInt) / gap
      (x.froz.pos.toInt : Rat) + quad 0 v a dt * 2 ^ 32
  else if e.source = 17 then s.ownerAt e.owner t
  else
    let x := s.ax e.owner
    let vs : Rat := (s.dwu48 e.owner 0x081 : Rat)
    let a := (x.law.vMeas - x.law.wPrev) * vs / s.ts e.owner
    quad x.law.pMeas (x.law.vMeas * vs) a (((t - s.sampleT : Int) : Rat) / 1000000000)

/-- The source is at or above X (R365). -/
def Ev.above (e : Ev) (v : Rat) : Bool :=
  if e.source < 16 then decide ((BitVec.ofInt 64 v.floor - e.x).toNat < 2 ^ 63)
  else decide (ofQ48 e.x ≤ v)

/-- The source value of a check as a completion holds it (R368). -/
def Ev.word (e : Ev) (v : Rat) : W64 := if e.source < 16 then BitVec.ofInt 64 v.floor else q48 v

/-- The source is past X in a slot's direction. -/
def Ev.pastX (e : Ev) (above : Bool) : Bool := if e.dir = 2 then !above else above

/-- The first instant of a window, to 1 ns, at which the source crosses X in the slot's direction;
`was` is where it stood 1 ns before. -/
def State.firstCross (s : State) (e : Ev) : Nat → Int → Bool → Option Int
  | 0, _, _ => none
  | n + 1, t, was =>
    let now := e.above (s.evSource e t)
    if (now && !was && e.dir != 2) || (!now && was && e.dir != 1) then some t
    else s.firstCross e n (t + 1) now

/-! ## Evaluation (R364 to R368) -/

/-- The T0 of the next cycle. -/
def State.nextT0i (s : State) : Int := s.cyc.nextT0.toNat

/-- The slot as it will look for its next crossing once its scheduled fires have happened (R369): it has
not been past its X. -/
def Ev.ahead (e : Ev) : Ev :=
  if e.repeat_ then
    { e with x := e.x + BitVec.ofNat 64 e.sched.length * e.step,
             past := if e.sched.isEmpty then e.past else e.dir == 2 || (e.dir == 3 && e.step.msb) }
  else e

/-- A slot's fire is scheduled for a crossing (R366, R367). An edge that has passed already is late and
comes at once; a FAR_SET waits for its owner's EMIT. -/
def State.schedule (s : State) (k : Nat) (t : Int) (late : Bool) : State :=
  let e := s.ev k
  let edge := t + e.ofs
  let f : EvFire := { at_ := BitVec.ofInt 64 t, edge := BitVec.ofInt 64 (max edge s.bt.toNat),
                      late := late || decide (edge < s.bt.toNat) }
  let s := s.setEv k { e with sched := e.sched ++ [f] }
  if e.action = 3 then
    { s with go.fars := s.go.fars ++ [{ slot := k, owner := e.owner, edge := f.edge, point := e.point,
                                        value := e.value }] }
  else s

/-- The first check after arming (R368): EV_ARM completes; `true` when the slot goes on to look for a
crossing. -/
def State.firstCheck (s : State) (k : Nat) (v : Rat) (above : Bool) : State × Bool :=
  let e := s.ev k
  let behind := e.dir ≠ 3 && e.pastX above
  let pay : Payload := e.word v ++ BitVec.ofNat 64 (b2n behind)
  let s := s.setEv k { e with first := false, cmd := none, behind := behind, past := above }
  if !behind then (s.complete e.cmd 0 pay, true)
  else if e.policy = 2 then
    ((s.setEv k { s.ev k with armed := false }).complete e.cmd 0x0333 pay, false)
  else if e.policy = 1 then ((s.complete e.cmd 0 pay).schedule k s.nextT0i false, false)
  else (s.complete e.cmd 0 pay, true)

/-- One evaluation of an armed slot in cycle c, for the window of cycle c + 1 (R364, R367). A slot that
goes on after its scheduled fire looks for the next X (R369). -/
def State.evalSlot (s : State) (k : Nat) : State :=
  let e := (s.ev k).ahead
  if !e.armed || (!e.sched.isEmpty && !e.repeat_) then s
  else
    let t := s.nextT0i
    let v := s.evSource e t
    let above := e.above v
    let (s, go) := if e.first then s.firstCheck k v above else (s, true)
    if !go then s
    else
      let n := s.rf DISP_CYC_PERIOD 0 19 0
      let before := e.above (s.evSource e (t - 1))
      let past := e.past
      let late := !e.first && before == above && past != above &&
        (if e.dir = 1 then above else if e.dir = 2 then !above else true)
      let s := s.setEv k { s.ev k with past := above }
      if late then s.schedule k t true
      else match s.firstCross e n t before with
        | some c => s.schedule k c false
        | none => s

/-- The CASCADE stage of an owner evaluates its slots (R363, R364). -/
def State.evalSlots (s : State) (c : Nat) : State :=
  (List.range 256).foldl (fun s k => if (s.ev k).owner = c then s.evalSlot k else s) s

/-! ## FAR_SET (R371) -/

/-- TA of a FAR_SET in a cell of this cycle, in 8 ns (R371). -/
def State.farTa (s : State) (f : FarSet) : Nat := (f.edge.toNat - s.cyc.t0.toNat + 7) / 8

/-- The item of a FAR_SET. -/
def State.farItem (s : State) (f : FarSet) : List Byte :=
  let p := f.point.toNat
  ([0xA5, p / 65536 % 256, 0, 1] ++ beBytes 4 (p % 2 ^ 25) ++ beBytes 4 f.value ++
    List.replicate 16 0 ++ beBytes 2 (s.farTa f)).map (BitVec.ofNat 8)

/-- The FAR_SET items that the EMIT of an owner places in this cycle; one whose TA is too large waits for
the next one. -/
def State.farSets (s : State) (c i : Nat) : State :=
  let now := s.go.fars.filter (fun f => f.owner == c && decide (s.farTa f ≤ 65535))
  let s := { s with go.fars := s.go.fars.filter (fun f => !(f.owner == c && decide (s.farTa f ≤ 65535))) }
  now.foldl (fun s f => s.putItem c i (s.farItem f)) s

/-! ## GO balls (R370, R371, R776) -/

/-- The level of a GO ball: the FIELD block's, else the event unit's, else off (R719, R749, R776). -/
def State.goLevel (s : State) (n : Nat) : Bool :=
  if !s.isOn 22 then false
  else if bitOf (s.rg FIELD_GO_OWN) n then bitOf (s.rg FIELD_GO) n
  else if bitOf (s.rg EVT_GO_OWN) n then
    s.go.level.getLsbD n || s.go.pulses.any (fun p => p.ball == n)
  else false

/-- A GO ball is driven to its level. -/
def State.driveGo (s : State) (n : Nat) : State :=
  s.out (.ball (.go n) (if s.goLevel n then .high else .low))

/-- GO balls whose level changes between two states (R776). -/
def State.effectGo (s t : State) : State :=
  (List.range 16).foldl (fun t n => if s.goLevel n != t.goLevel n then t.driveGo n else t) t

/-- PULSE (R370, R371): the pulses on a ball combine by OR, each to its own end; the earliest end stands
first. -/
def State.goPulse (s : State) (k n : Nat) (until_ : W64) : State :=
  if !bitOf (s.rg EVT_GO_OWN) n then s
  else
    let p : GoPulse := { ball := n, slot := k, until_ := until_ }
    let sooner := s.go.pulses.filter (fun q => decide (q.until_ ≤ until_))
    let later := s.go.pulses.filter (fun q => !decide (q.until_ ≤ until_))
    { s with go.pulses := sooner ++ p :: later }.driveGo n

/-- TOGGLE (R370). -/
def State.goToggle (s : State) (n : Nat) : State :=
  if !bitOf (s.rg EVT_GO_OWN) n then s
  else { s with go.level := s.go.level ^^^ BitVec.ofNat 16 (2 ^ n) }.driveGo n

/-- GO_PULSE_END (R370): the pulse of a slot ends, WIDTH after its edge. -/
def execGoPulseEnd (k : BitVec 8) (s : State) : Host.Outcome State Fault Refusal :=
  match s.go.pulses.find? (fun p => p.slot == k.toNat) with
  | none => .next s
  | some p =>
    let s := s.upTo p.until_
    .next ({ s with go.pulses := s.go.pulses.filter (fun q => q != p) }.driveGo p.ball)

/-! ## Fires (R366, R369, R370, R372) -/

/-- The held move of an axis begins at an instant (R372); `cam` says that it must be an AX_CAM. -/
def State.startHeld (s : State) (c k : Nat) (t : Int) (cam : Bool) : State :=
  let x := s.ax c
  match x.held with
  | none => s
  | some h =>
    if h.slot ≠ k || (h.op == 0x16) != cam || !x.enabled then s
    else
      let s := s.setAx c { x with held := none }
      let kin := s.kinAt c t
      match s.notReady c with
      | some st => s.answer c h.cmd st
      | none =>
        if h.op = 0x11 then s.move c h.d h.cmd kin t
        else if h.op = 0x12 then s.moveVel c h.d h.cmd kin t
        else s.moveCam c h.d h.cmd kin t

/-- An edge of a GO ball (R370, R371): a pulse begins, or the level changes. -/
def State.goEdge (s : State) (g : GoEdge) : State :=
  match g.width with
  | some w => s.goPulse g.slot g.ball (BitVec.ofNat 64 (max s.bt.toNat g.at_.toNat + w))
  | none => s.goToggle g.ball

/-- The edge that a fire of a slot drives, if its action drives one. -/
def Ev.edge (e : Ev) (k : Nat) (f : EvFire) : Option GoEdge :=
  if e.action = 1 then some { slot := k, at_ := f.edge, ball := e.arg, width := some e.width.toNat }
  else if e.action = 2 then some { slot := k, at_ := f.edge, ball := e.arg, width := none }
  else none

/-- What a fire does at the crossing `t`, apart from an edge (R370). -/
def State.fireAction (s : State) (k : Nat) (e : Ev) (t : W64) : State :=
  match e.action with
  | 4 => s.acqEvent e.arg k t.toNat
  | 5 => s.startHeld e.arg k t.toNat false
  | 6 => s.startHeld e.arg k t.toNat true
  | _ => s

/-- After a fire (R369): the slot is disarmed, or goes on with X + STEP. -/
def Ev.rearm (e : Ev) : Ev :=
  if e.repeat_ then
    { e with sched := e.sched.drop 1, x := e.x + e.step, behind := false, past := e.ahead.past }
  else { e with sched := [], armed := false }

/-- A slot fires at its crossing (R366, R369, R370): it is counted, goes on or is disarmed, its action
begins and its token is delivered. -/
def State.fire (s : State) (n : Nat) (e : Ev) (f : EvFire) : State :=
  let s := s.upTo f.at_
  let s := if f.late then (s.bump EVT_LATE n).post 0x0334 .warn e.owner (payOf [n]) else s
  let s := (s.bump EVT_FIRED n).setEv n e.rearm
  let s := s.fireAction n e f.at_
  let s := if e.tokCtx = 0 then s else s.extArrive e.tokCtx 3
  if e.notify then
    s.post 0x0335 .info e.owner (payOf ([n, 0, 0, 0] ++ leBytes 4 f.at_.toNat)) else s

/-- The edge of a fire that is due with it is driven; a later one waits. -/
def State.edgeAfter (s : State) (g : Option GoEdge) : State :=
  match g with
  | none => s
  | some g =>
    if g.at_ ≤ s.bt then s.goEdge g
    else { s with go.edges := s.go.edges ++ [g] }

/-- An edge that waited is driven. -/
def State.edgeNow (s : State) (g : GoEdge) : State :=
  let s := s.upTo g.at_
  { s with go.edges := s.go.edges.filter (fun h => h != g) }.goEdge g

/-- A fire, or its edge that comes first. -/
def State.fireNow (s : State) (n : Nat) (e : Ev) (f : EvFire) : State :=
  match e.edge n f with
  | some g =>
    if f.driven then s.fire n e f
    else if g.at_ < f.at_ then
      let s := s.upTo g.at_
      (s.setEv n { e with sched := { f with driven := true } :: e.sched.drop 1 }).goEdge g
    else (s.fire n e f).edgeAfter (some g)
  | none => s.fire n e f

/-- EVENT_FIRE (R366, R370): the next instant of a slot comes: the edge of an earlier fire, an edge that
a negative OFS puts before its crossing, or a crossing. -/
def State.eventFire (s : State) (n : Nat) : State :=
  let e := s.ev n
  match s.go.edges.find? (fun g => g.slot == n), e.sched with
  | some g, [] => s.edgeNow g
  | some g, f :: _ => if g.at_ ≤ f.at_ then s.edgeNow g else s.fireNow n e f
  | none, f :: _ => s.fireNow n e f
  | none, [] => s

/-- EVENT_FIRE. -/
def execEventFire (k : BitVec 8) (s : State) : Host.Outcome State Fault Refusal :=
  .next (s.eventFire k.toNat)

/-! ## EV_ARM and EV_DISARM (R363, R373) -/

/-- The slot that EV_ARM describes. -/
def slotOfDesc (d : Desc) (cmd : Option Cmd) : Ev :=
  { armed := true, owner := descCtx d, tokCtx := bitsOf d.aux 15 8, x := BitVec.ofNat 64 (d.le 16 8),
    step := BitVec.ofNat 64 (d.le 24 8), width := BitVec.ofNat 32 (d.le 32 4), ofs := d.les 36 4,
    source := d.le 40 1, dir := d.le 41 1, policy := d.le 42 1, action := d.le 43 1,
    arg := d.le 44 2, repeat_ := d.le 46 1 % 2 == 1, notify := d.le 46 1 / 2 % 2 == 1,
    value := d.le 47 1, point := BitVec.ofNat 32 (d.le 48 4), first := true, cmd := cmd }

/-- The fields of a slot are in their ranges (R373). -/
def Ev.inRange (e : Ev) : Bool :=
  decide (-10000 ≤ e.ofs) && decide (e.ofs ≤ 65535) && decide (e.source ≤ 17) &&
    decide (1 ≤ e.dir) && decide (e.dir ≤ 3) && decide (e.policy ≤ 2) && decide (e.action ≤ 6) &&
    (e.action != 3 || decide (e.point.toNat < 2 ^ 25)) &&
    (if e.action = 1 || e.action = 2 then decide (e.arg < 16)
     else if e.action = 4 then decide (e.arg < 8)
     else if e.action = 5 || e.action = 6 then decide (1 ≤ e.arg) && decide (e.arg ≤ 128)
     else true)

/-- The owner may own the slot (R363). -/
def State.ownerOk (s : State) (k : Nat) (e : Ev) : Bool :=
  let c := e.owner
  let own := (List.range 256).filter (fun j => j != k && (s.ev j).armed && (s.ev j).owner == c)
  let far := own.filter (fun j => (s.ev j).action == 3)
  (s.ax c).enabled && hdrDiv (s.hdr c) == 1 && decide (own.length < 8) &&
    (e.action != 3 || (decide (far.length < 3) && (match s.farOf c with
      | some (r, _, _) => bitsOf e.point 24 24 == r
      | none => false)))

/-- EV_ARM at its hinge point (R363); it completes at its first evaluation (R368). -/
def applyEvArm (d : Desc) (cmd : Option Cmd) (s : State) : State :=
  let k := bitsOf d.aux 7 0
  let e := slotOfDesc d cmd
  if !e.inRange then s.answer e.owner cmd 0x0324
  else if !s.ownerOk k e then s.answer e.owner cmd 0x0332
  else (s.disarm k).setEv k e

/-- EV_ARM. -/
def execEvArm (d : Desc) (s : State) : Host.Outcome State Fault Refusal :=
  .next (s.runDesc 0x30 d applyEvArm)

/-- EV_DISARM at its hinge point. -/
def applyEvDisarm (d : Desc) (cmd : Option Cmd) (s : State) : State :=
  let k := bitsOf d.aux 7 0
  if (s.ev k).armed && (s.ev k).owner ≠ descCtx d then s.answer (descCtx d) cmd 0x0332
  else (s.disarm k).answer (descCtx d) cmd 0

/-- EV_DISARM. -/
def execEvDisarm (d : Desc) (s : State) : Host.Outcome State Fault Refusal :=
  .next (s.runDesc 0x31 d applyEvDisarm)

end Sys2Proof.Machine
end

