-- ==== Sys2Proof/Machine/GuardDesc.lean ====
section
/-! DEFINITION. The guard descriptors of both channels (R586, R594 to R601). -/

namespace Sys2Proof.Machine

/-! ## Passwords (R595) -/

/-- A password of 8 to 16 characters from 0x21 to 0x7E, padded with 0. -/
def goodPassword (v : BitVec 128) : Bool :=
  let bs := leBytes 16 v.toNat
  let n := (bs.takeWhile (fun x => x != 0)).length
  decide (8 ≤ n) && (bs.take n).all (fun x => decide (0x21 ≤ x) && decide (x ≤ 0x7E)) &&
    (bs.drop n).all (fun x => x == 0)

/-- A mismatch is counted; the fifth one within 10 minutes locks the channel. -/
def State.pwMismatch (s : State) (b : Bool) : State :=
  let g := s.guard b
  let fs := (g.fails.filter (fun t => decide ((s.bt - t).toNat < tenMinutes))) ++ [s.bt]
  let lock := decide (5 ≤ fs.length)
  let s := (s.setGuard b { g with fails := fs, locked := lock }).bump
    (gReg b GUARD_A_PW_FAIL GUARD_B_PW_FAIL)
  if lock then s.post 0x080E .warn 0 else s

/-- The check of a protected descriptor: the state after it, and the status that refuses it. -/
def State.checkPassword (s : State) (b : Bool) (p : BitVec 128) : State × Option (BitVec 16) :=
  let g := s.guard b
  if s.sealed_ then (s, none)
  else if g.locked then (s, some 0x0823)
  else if g.password = 0 then (s, some 0x0822)
  else if g.password = p then (s, none)
  else (s.pwMismatch b, some 0x0822)

/-- A protected descriptor that also appends to the log (R595, R598). -/
def State.protected_ (s : State) (b : Bool) (p : BitVec 128) (cmd : Option Cmd)
    (k : State → State) : State :=
  if (s.guard b).logFull then s.complete cmd 0x0826
  else match s.checkPassword b p with
    | (s, some st) => s.complete cmd st
    | (s, none) => k s

/-! ## Parameters (R581, R597, R600, R601) -/

/-- A parameter ID that a channel holds. -/
def holdsPar (b : Bool) (id : Nat) : Bool :=
  (decide (1 ≤ id) && decide (id ≤ 5)) || (decide (0x10 ≤ id) && decide (id ≤ 0x17)) ||
    (!b && decide (0x20 ≤ id) && decide (id ≤ 0x24)) || (decide (0x101 ≤ id) && decide (id ≤ 0x180))

/-- A value lies in the range of a parameter. -/
def parRange (id : Nat) (v : W32) : Bool :=
  let n := v.toNat
  let within (lo hi : Nat) : Bool := decide (lo ≤ n) && decide (n ≤ hi)
  if 0x10 ≤ id && id ≤ 0x17 then
    let i := bitsOf v 31 16
    bitsOf v 7 2 == 0 && decide (i ≤ 1200) && (!bitOf v 0 || decide (10 ≤ i))
  else if 0x101 ≤ id then
    bitsOf v 7 1 == 0 && bitsOf v 31 29 == 0 && decide (1 ≤ bitsOf v 23 16) &&
      decide (bitsOf v 23 16 ≤ 254)
  else match id with
    | 1 => within 0 1
    | 2 => within 5 100
    | 3 => within 10 1000
    | 4 => within 100 1000
    | 5 => within 1 3600
    | 0x20 => within 0 0x7FFFFF
    | 0x21 => within 100 5000
    | 0x22 => within 1 8388607
    | 0x23 => within 10 1000
    | _ => within 0 8760

/-- The INOM sum of the enabled near brakes, with the writes that wait and this one. -/
def Guard.inomSum (g : Guard) (id : Nat) (v : W32) : Nat :=
  let ps := (g.writes.foldl (fun m (w : GWrite) => tset (gReset w.id) m w.id w.val) g.params)
  let ps := tset (gReset id) ps id v
  ((List.range 8).map (fun n =>
    let p := tget (gReset (0x10 + n)) ps (0x10 + n)
    if bitOf p 0 then bitsOf p 31 16 else 0)).sum

/-- The CRC of R597 over a parameter's ID and value. -/
def confirmCrc (id : Nat) (v : W32) : W32 := crc32c (beBytes 2 id ++ beBytes 4 v.toNat)

/-- Payload bytes 16 to 31 and 32 to 47 as passwords. -/
def descPw (d : Desc) : BitVec 128 := d.payload.extractLsb' 0 128
def descPw2 (d : Desc) : BitVec 128 := d.payload.extractLsb' 128 128

/-- GX_WRITE (R595, R600): the write waits for the channel's next decision, where it completes. -/
def applyGWrite (b : Bool) (d : Desc) (cmd : Option Cmd) (s : State) : State :=
  let id := d.target.toNat
  let v : W32 := BitVec.ofNat 32 (d.le 32 4)
  s.protected_ b (descPw d) cmd (fun s =>
    if !holdsPar b id then s.complete cmd 0x0825
    else if !parRange id v || decide (4000 < (s.guard b).inomSum id v) then s.complete cmd 0x0824
    else
      let g := s.guard b
      s.setGuard b { g with writes := g.writes ++ [⟨id, v, s.sealed_, cmd⟩] })

/-- GX_READ (R597, R600). -/
def applyGRead (b : Bool) (d : Desc) (cmd : Option Cmd) (s : State) : State :=
  let id := d.target.toNat
  if !holdsPar b id then s.complete cmd 0x0825
  else
    let v := (s.guard b).par id
    s.complete cmd 0 (payOf (leBytes 4 v.toNat ++ leBytes 4 (confirmCrc id v).toNat))

/-- GX_CONFIRM (R597). -/
def applyGConfirm (b : Bool) (d : Desc) (cmd : Option Cmd) (s : State) : State :=
  let id := d.target.toNat
  let g := s.guard b
  if !holdsPar b id then s.complete cmd 0x0825
  else if g.st ≠ .unconfirmed then s.complete cmd 0x082A
  else if d.aux ≠ confirmCrc id (g.par id) then s.complete cmd 0x0827
  else
    let g := { g with unconf := g.unconf.filter (· ≠ id) }
    let s := (s.setGuard b g).complete cmd 0
    if g.unconf = [] then (s.guardMode b .run).guardSeal b else s

/-- GX_PASSWORD (R595). -/
def applyGPassword (b : Bool) (d : Desc) (cmd : Option Cmd) (s : State) : State :=
  s.protected_ b (descPw d) cmd (fun s =>
    if !goodPassword (descPw2 d) then s.complete cmd 0x0824
    else
      let s := s.setGuard b { s.guard b with password := descPw2 d }
      (s.logGuard b s.sealed_ 3 0 0).complete cmd 0)

/-- GX_FAULT_CLEAR (R582): the latches whose condition is gone are cleared. -/
def applyGFaultClear (b : Bool) (d : Desc) (cmd : Option Cmd) (s : State) : State :=
  let c := d.target.toNat
  let g := s.guard b
  if g.logFull then s.complete cmd 0x0826
  else
    let g := { g with sbtFault := g.sbtFault.filter (· ≠ c) }
    let g := match s.nearOf c with
      | some n => let x := g.swOf n; g.setSw n { x with latch := x.latch &&& x.cond }
      | none => g
    ((s.setGuard b g).logGuard b s.sealed_ 4 0 d.target).complete cmd 0

/-- GX_LOG_READ (R600). -/
def applyGLogRead (b : Bool) (d : Desc) (cmd : Option Cmd) (s : State) : State :=
  match (s.guard b).log[d.aux.toNat]? with
  | some e => s.complete cmd 0 e
  | none => s.complete cmd 0x0824

/-- The cause of SAFE is gone: the other channel's heartbeat is seen again (R590). -/
def Guard.causeGone (g : Guard) : Bool := !(g.cause == 3 && g.xmonLost)

/-- GX_RESET (R590, R595). -/
def applyGReset (b : Bool) (d : Desc) (cmd : Option Cmd) (s : State) : State :=
  s.protected_ b (descPw d) cmd (fun s =>
    let g := s.guard b
    if g.st ≠ .safe || !g.causeGone then s.complete cmd 0x082A
    else
      let s := s.setGuard b { g with st := .selftest, cause := 0 }
      ((s.logGuard b s.sealed_ 7 0 0).complete cmd 0).regrant b)

/-- The conditions of GA_SBT (R586). -/
def State.sbtOk (s : State) (c : Nat) : Bool :=
  let x := s.ax c
  let om := bitsOf (s.drawer c 0x080) 1 0
  let vs := s.dwq c 0x09C
  s.gA.st == .run && x.enabled && x.mode == .idle && decide (-vs < x.law.vFb) &&
    decide (x.law.vFb < vs) && (om == 1 || om == 2) &&
    decide ((s.gA.par 0x20).toNat ≤ s.dwn c 0x091) && s.seals.sbt.isNone

/-- GA_SBT (R586, R587): step 1 begins at the hinge point. -/
def applyGaSbt (d : Desc) (cmd : Option Cmd) (s : State) : State :=
  let c := d.target.toNat
  if !s.sbtOk c then s.complete cmd 0x0828
  else
    let s := { s with seals.sbt := some ⟨c, 1, s.bt, s.guardPos c, cmd⟩ }
    s.setGrants false (s.gA.grants.filter (· ≠ c)) s.gA.blocked

/-! ## The rows -/

/-- GA_WRITE. -/
def execGaWrite (d : Desc) (s : State) : Host.Outcome State Fault Refusal :=
  .next (s.runDesc 0x80 d (applyGWrite false))
/-- GA_READ. -/
def execGaRead (d : Desc) (s : State) : Host.Outcome State Fault Refusal :=
  .next (s.runDesc 0x81 d (applyGRead false))
/-- GA_CONFIRM. -/
def execGaConfirm (d : Desc) (s : State) : Host.Outcome State Fault Refusal :=
  .next (s.runDesc 0x82 d (applyGConfirm false))
/-- GA_PASSWORD. -/
def execGaPassword (d : Desc) (s : State) : Host.Outcome State Fault Refusal :=
  .next (s.runDesc 0x83 d (applyGPassword false))
/-- GA_FAULT_CLEAR. -/
def execGaFaultClear (d : Desc) (s : State) : Host.Outcome State Fault Refusal :=
  .next (s.runDesc 0x84 d (applyGFaultClear false))
/-- GA_SBT. -/
def execGaSbt (d : Desc) (s : State) : Host.Outcome State Fault Refusal :=
  .next (s.runDesc 0x85 d applyGaSbt)
/-- GA_LOG_READ. -/
def execGaLogRead (d : Desc) (s : State) : Host.Outcome State Fault Refusal :=
  .next (s.runDesc 0x86 d (applyGLogRead false))
/-- GA_RESET. -/
def execGaReset (d : Desc) (s : State) : Host.Outcome State Fault Refusal :=
  .next (s.runDesc 0x87 d (applyGReset false))
/-- GB_WRITE. -/
def execGbWrite (d : Desc) (s : State) : Host.Outcome State Fault Refusal :=
  .next (s.runDesc 0x90 d (applyGWrite true))
/-- GB_READ. -/
def execGbRead (d : Desc) (s : State) : Host.Outcome State Fault Refusal :=
  .next (s.runDesc 0x91 d (applyGRead true))
/-- GB_CONFIRM. -/
def execGbConfirm (d : Desc) (s : State) : Host.Outcome State Fault Refusal :=
  .next (s.runDesc 0x92 d (applyGConfirm true))
/-- GB_PASSWORD. -/
def execGbPassword (d : Desc) (s : State) : Host.Outcome State Fault Refusal :=
  .next (s.runDesc 0x93 d (applyGPassword true))
/-- GB_FAULT_CLEAR. -/
def execGbFaultClear (d : Desc) (s : State) : Host.Outcome State Fault Refusal :=
  .next (s.runDesc 0x94 d (applyGFaultClear true))
/-- GB_LOG_READ. -/
def execGbLogRead (d : Desc) (s : State) : Host.Outcome State Fault Refusal :=
  .next (s.runDesc 0x96 d (applyGLogRead true))
/-- GB_RESET. -/
def execGbReset (d : Desc) (s : State) : Host.Outcome State Fault Refusal :=
  .next (s.runDesc 0x97 d (applyGReset true))

end Sys2Proof.Machine
end

