-- ==== Sys2Proof/Machine/HostIf.lean ====
section
/-! DEFINITION. The host interface: ring set-up, the doorbell page, fetching, completion rings,
interrupts, BAR2 and configuration requests (R606 to R639, R646 to R648, R806, R807). -/

namespace Sys2Proof.Machine

/-! ## Ring set-up (R612 to R616, R807) -/

/-- The rings of a kind: 64 SQs, 64 CQs, 9 SRs. -/
def ringExists (kind n : Nat) : Bool :=
  (decide (kind ≤ 1) && decide (n < 64)) || (kind == 2 && decide (n < 9))

/-- A ring is drained (R614). -/
def State.drained (s : State) (kind n : Nat) : Bool :=
  if kind = 0 then (s.sq n).head == (s.sq n).tail && (s.sq n).opened == 0
  else if kind = 1 then (s.cq n).buf.isEmpty && (s.cq n).head == (s.cq n).tail
  else (s.strm n).head == (s.strm n).tail

/-- The base, LOG2SIZE and BIND of a ring may not change (R614). -/
def State.ringLocked (s : State) (kind n : Nat) : Bool := s.ringEn kind n || !s.drained kind n

/-- HOST_RING_ERR takes the latest refused set-up write. -/
def State.ringErr (s : State) (code kind n : Nat) : State :=
  s.setRg HOST_RING_ERR 0 (BitVec.ofNat 32 (code + n * 2 ^ 16 + kind * 2 ^ 24))

/-- RING_BUSY (R614, R615). -/
def State.ringBusy (s : State) (kind n : Nat) : State :=
  (s.ringErr 0x0E01 kind n).post 0x0E01 .warn 0 (payOf [kind, n])

/-- A write of a base register of the selected ring (R614). -/
def State.writeBase (s : State) (r : Reg) (v : W32) : State :=
  let sel := (s.rg HOST_RING_SEL).toNat
  let kind := sel / 256
  let n := sel % 64
  if !ringExists kind n then s
  else if v ≠ s.rg r sel && s.ringLocked kind n then s.ringBusy kind n
  else s.setRg r sel v

/-- A ring is enabled: the device's index restarts at 0 (R807). -/
def State.startRing (s : State) (kind n : Nat) : State :=
  if kind = 0 then s.setSq n { s.sq n with head := 0, tail := 0, fresh := true }
  else if kind = 1 then s.setCq n { s.cq n with head := 0, tail := 0, phase := true }
  else s.setStrm n { s.strm n with head := 0, tail := 0 }

/-- An enabled SQ is bound to a CQ. -/
def State.cqBound (s : State) (n : Nat) : Bool :=
  (List.range 64).any (fun m => s.ringEn 0 m && s.ringBind 0 m == n)

/-- A write of HOST_RING_CFG for the selected ring. -/
def State.writeRingCfg (s : State) (v : W32) : State :=
  let sel := (s.rg HOST_RING_SEL).toNat
  let kind := sel / 256
  let n := sel % 64
  let old := s.rg HOST_RING_CFG sel
  let v := v &&& HOST_RING_CFG.mask
  if !ringExists kind n then s
  else if (old ^^^ v) &&& 0x3F01F0 ≠ 0 && s.ringLocked kind n then s.ringBusy kind n
  else if kind = 1 && bitOf old 0 && !bitOf v 0 && s.cqBound n then s.ringBusy kind n
  else if bitOf v 0 && !bitOf old 0 then
    let lg := bitsOf v 8 4
    if lg < 4 || 16 < lg || bitsOf (s.rg HOST_RING_BASE_LO sel) 11 0 ≠ 0 then
      (s.setRg HOST_RING_CFG sel (v &&& 0xFFFFFFFE)).ringErr 0x0E02 kind n
    else (s.setRg HOST_RING_CFG sel v).startRing kind n
  else s.setRg HOST_RING_CFG sel v

/-- RING_CFG_WRITE (R612 to R615). -/
def execRingCfgWrite (v : BitVec 32) (s : State) : Host.Outcome State Fault Refusal :=
  if !s.isOn 1 then .next s else .next (s.writeRingCfg v)

/-- A ring is disabled (R620, R648). -/
def State.ringOff (s : State) (kind n : Nat) : State :=
  s.setRg HOST_RING_CFG (ringSel kind n) (s.rg HOST_RING_CFG (ringSel kind n) &&& 0xFFFFFFFE)

/-! ## Control (R618, R638, R646) -/

/-- A write of HOST_CTL. -/
def State.writeHostCtl (s : State) (v : W32) : State :=
  let was := bitOf (s.rg HOST_CTL) 0
  let s := s.setRg HOST_CTL 0 (v &&& HOST_CTL.mask)
  let now := bitOf v 0
  if was = now then s
  else { s with host.polling := now, host.aliveSeen := s.host.aliveSeen && !now }

/-- HOST_ENABLE (R618). -/
def execHostEnable (v : BitVec 32) (s : State) : Host.Outcome State Fault Refusal :=
  if !s.isOn 1 then .next s else .next (s.writeHostCtl (v ||| 1))

/-- HOST_DISABLE (R618). -/
def execHostDisable (v : BitVec 32) (s : State) : Host.Outcome State Fault Refusal :=
  if !s.isOn 1 then .next s else .next (s.writeHostCtl (v &&& 0xFFFFFFFE))

/-- The occurrences that wait in the buffers. -/
def State.evtHeld (s : State) : W32 :=
  s.host.cqs.foldl (fun n p => p.2.buf.foldl
    (fun n e => if e.ty == .command then n else n + e.occ) n) 0

/-- HOST_LATCH (R638): the live ledger is copied in one step. -/
def State.hostLatch (s : State) (v : BitVec 32) : State :=
  if !s.isOn 1 then s
  else
    if !bitOf v 0 then s
    else
      let l := s.host.ledger
      let s := (((s.setRg HOST_DESC_FETCHED 0 l.fetched).setRg HOST_CPL_CMD 0 l.cplCmd).setRg
        HOST_CMD_OPEN 0 (l.fetched - l.cplCmd - l.cmdDiscard)).setRg HOST_CMD_DISCARD 0 l.cmdDiscard
      ((((s.setRg HOST_EVT_POSTED 0 l.posted).setRg HOST_EVT_WRITTEN 0 l.written).setRg
        HOST_EVT_HELD 0 s.evtHeld).setRg HOST_EVT_DISCARD 0 l.evtDiscard)

/-- The command (the write of its register). -/
def execHostLatch (v : BitVec 32) (s : State) : Host.Outcome State Fault Refusal :=
  .next (s.hostLatch v)

/-! ## The doorbell page (R617 to R620) -/

/-- An index word that the host has written is bad (R620): `size` entries, the previous index, the
new one, and the index that bounds it. -/
def badIndex (size old new bound : Nat) : Bool :=
  decide (size ≤ new) ||
    decide ((bound + size - old % size) % size < (new + size - old % size) % size)

/-- DB_BAD (R620). -/
def State.dbBad (s : State) (kind n w : Nat) : State :=
  (s.ringOff kind n).post 0x0E04 .severe 0 (payOf [kind, n, w % 256, w / 256, kind])

/-- The word at an offset of the doorbell page, little-endian (R4, R617); the host leaves the other
bytes 0. -/
def pageWord (page : List (Nat × Byte)) (off : Nat) : W32 :=
  BitVec.ofNat 32 (leNum ((List.range 4).map (fun i => (tget 0 page (off + i)).toNat)))

/-- A ring's index word is judged. -/
def State.judge (s : State) (page : List (Nat × Byte)) (kind n : Nat) : State :=
  if !s.ringEn kind n then s
  else
    let w := bitsOf (pageWord page (kind * 256 + 4 * n)) 15 0
    let size := s.ringSize kind n
    if kind = 0 then
      let q := s.sq n
      if badIndex size q.tail w ((q.head + size - 1) % size) then s.dbBad kind n w
      else s.setSq n { q with tail := w }
    else if kind = 1 then
      let q := s.cq n
      if badIndex size q.head w q.tail then s.dbBad kind n w
      else s.setCq n { q with head := w }
    else
      let q := s.strm n
      if badIndex size q.head w q.tail then s.dbBad kind n w
      else s.setStrm n { q with head := w }

/-- HOST_ALIVE has been read (R645). -/
def State.seeAlive (s : State) (v : W32) : State :=
  if s.host.aliveSeen && s.host.alive = v then s
  else { s with host.alive := v, host.aliveSeen := true, host.aliveAt := s.bt, host.lost := false }

/-! ## Fetching (R622 to R625, R549) -/

/-- The first T0 whose HINGE_LEAD lies after a fetch at this BT (R26). -/
def State.hingeAfter (s : State) (t : W64) : Nat :=
  let n := s.cyc.nextT0.toNat
  if t.toNat + s.hingeLead < n then n else n + s.rf DISP_CYC_PERIOD 0 19 0

/-- A descriptor waits for its EXEC_AT (R625, R626): EXEC 1 with an EXEC_AT after the hinge point
that it would have without it, or EXEC 2. -/
def State.waitsAt (s : State) (d : Desc) : Bool :=
  match descExec d with
  | 1 =>
    bt32After d.execAt s.bt32 &&
      (!s.cyc.running ||
        decide (s.hingeAfter s.bt < s.bt.toNat + (d.execAt - s.bt32).toNat))
  | 2 => true
  | _ => false

/-- Descriptors of an SQ that are fetched and have not applied (R624). -/
def State.unapplied (s : State) (n : Nat) : Nat :=
  (s.host.queue.filter (fun f => f.d.sq.toNat == n && f.refuse.isNone)).length

/-- An SQ may be fetched from (R623, R624). -/
def State.mayFetch (s : State) (n : Nat) : Bool :=
  let q := s.sq n
  let c := s.cq (s.ringBind 0 n)
  s.ringEn 0 n && q.head != q.tail && decide (s.unapplied n < 8) &&
    decide (c.reserved + (c.buf.filter (fun e => e.ty == .command)).length < 224)

/-- One descriptor is fetched from an SQ (R622 to R625, R549). -/
def State.fetchOne (s : State) (n : Nat) (r : RawDesc) : State :=
  let d : Desc := { r.d with sq := BitVec.ofNat 6 n }
  let q := s.sq n
  let s := s.setSq n { q with head := (q.head + 1) % s.ringSize 0 n, fresh := true }
  let (c, s) := s.fetchCmd r.op d
  let held := s.host.queue.any (fun f => f.d.sq.toNat == n && f.waits)
  match fetchCheck r.op d with
  | some st =>
    if held then
      let f : Fetched := { op := r.op, d := d, bt := s.bt, cmd := c, refuse := some st }
      { s with host.queue := s.host.queue ++ [f] }
    else s.complete (some c) st
  | none =>
    let f : Fetched := { op := r.op, d := d, bt := s.bt, cmd := c, waits := s.waitsAt d }
    if s.mirrorOn && s.mirrored r.op d then
      let k := s.mirrorSeq d
      let f := { f with applySeq := some k }
      { s.mirrorOut r.op d k with host.queue := s.host.queue ++ [f] }
    else { s with host.queue := s.host.queue ++ [f] }

/-- One turn over the SQs, from the one after the SQ served last. -/
def State.fetchTurn (s : State) (descs : List (Nat × RawDesc)) : State :=
  ((List.range 64).map (fun i => (s.host.rr + i) % 64)).foldl (fun (s : State) n =>
    if s.mayFetch n then
      let r := tget ⟨0, {}⟩ descs (n * 65536 + (s.sq n).head)
      { s.fetchOne n r with host.rr := (n + 1) % 64 }
    else s) s

/-- Turns until no SQ can be fetched from. -/
def State.fetchTurns : Nat → State → List (Nat × RawDesc) → State
  | 0, s, _ => s
  | k + 1, s, descs =>
    if (List.range 64).any s.mayFetch then State.fetchTurns k (s.fetchTurn descs) descs else s

/-- SQ_HEAD is written for every SQ fetched from or newly enabled (R623, R807). -/
def State.writeHeads (s : State) : State :=
  (List.range 64).foldl (fun (s : State) n =>
    let q := s.sq n
    if q.fresh then
      (s.setSq n { q with fresh := false }).out (.doorbell (0x400 + 4 * n) (w32Bytes (BitVec.ofNat 32 q.head)))
    else s) s

/-- DOORBELL_POLL (R617 to R625), until a power failure ends fetching (R729): `page` holds the bytes of
the doorbell page that the host has set, by offset;
`descs` the submission rings' entries, by `65536 sq + index`. -/
def State.doorbellPoll (s : State) (page : List (Nat × BitVec 8)) (descs : List (Nat × RawDesc)) : State :=
  if !s.isOn 1 || s.pwr.failed then s
  else
    if !bitOf (s.rg HOST_CTL) 0 then s
    else
      let s := (List.range 64).foldl (fun s n => s.judge page 0 n) s
      let s := (List.range 64).foldl (fun s n => s.judge page 1 n) s
      let s := (List.range 9).foldl (fun s n => s.judge page 2 n) s
      let s := (s.seeAlive (pageWord page 0x300)).out (.doorbell 0x700 (w32Bytes s.bt32))
      (State.fetchTurns 65536 s descs).writeHeads

/-- DOORBELL_POLL. -/
def execDoorbellPoll (page : List (Nat × BitVec 8)) (descs : List (Nat × RawDesc)) (s : State) : Host.Outcome State Fault Refusal :=
  .next (s.doorbellPoll page descs)

/-! ## Completion rings (R630, R634, R639) -/

/-- A CQ's vector signals. -/
def State.cqSignal (s : State) (n : Nat) : State :=
  (s.setCq n { s.cq n with since := 0 }).signal (s.ringBind 1 n)

/-- The ledger counts a written entry (R638). -/
def State.countWritten (s : State) (e : CqEntry) : State :=
  if e.ty = .command then { s with host.ledger.cplCmd := s.host.ledger.cplCmd + 1 }
  else { s with host.ledger.written := s.host.ledger.written + e.occ }

/-- The ledger counts a discarded entry. -/
def State.countDiscard (s : State) (e : CqEntry) : State :=
  if e.ty = .command then { s with host.ledger.cmdDiscard := s.host.ledger.cmdDiscard + 1 }
  else { s with host.ledger.evtDiscard := s.host.ledger.evtDiscard + e.occ }

/-- ITHR and ITMR of a CQ. -/
def State.ithr (s : State) (n : Nat) : Nat := s.rf HOST_CQ_MOD (ringSel 1 n) 7 0
def State.itmr (s : State) (n : Nat) : Nat := s.rf HOST_CQ_MOD (ringSel 1 n) 23 8

/-- CQ_ENTRY_WRITE (R630, R634, R639): the oldest entry of a CQ's buffer is written as CQ_HEAD
leaves room. -/
def execCqEntryWrite (n : Fin 64) (s : State) : Host.Outcome State Fault Refusal :=
  let c := s.cq n
  let size := s.ringSize 1 n
  match c.buf with
  | [] => .next s
  | e :: es =>
    if !s.ringEn 1 n || (c.tail + 1) % size = c.head then .next s
    else
      let t := (c.tail + 1) % size
      let s := s.out (.cq n c.tail (e.bytes c.phase))
      let c := { c with buf := es, tail := t, phase := if t = 0 then !c.phase else c.phase,
                        since := c.since + 1, firstAt := if c.since = 0 then s.bt else c.firstAt }
      let s := (s.setCq n c).countWritten e
      .next (if s.ithr n ≤ c.since || s.itmr n = 0 || e.irq || e.severe then s.cqSignal n else s)

/-- ITMR_EXPIRE (R639). -/
def execItmrExpire (n : Fin 64) (s : State) : Host.Outcome State Fault Refusal :=
  let c := s.cq n
  if c.since = 0 then .next s
  else .next ((s.upTo (c.firstAt + BitVec.ofNat 64 (s.itmr n * 1000))).cqSignal n)

/-- The pending vectors that may signal do so. -/
def State.msixFlush (s : State) : State :=
  (List.range 64).foldl (fun (s : State) v =>
    if s.host.msixEnable && !s.host.msixFMask && s.host.msixPend.getLsbD v &&
        !s.host.msixMask.getLsbD v then
      { s with host.msixPend := s.host.msixPend &&& ~~~ BitVec.ofNat 64 (2 ^ v) }.out (.msix v)
    else s) s

/-- MSIX_UNMASK (R639). -/
def State.msixUnmask (s : State) (v : Fin 64) : State :=
  if !s.isOn 1 then s
  else
    { s with host.msixMask := s.host.msixMask &&& ~~~ BitVec.ofNat 64 (2 ^ v.val) }.msixFlush

/-- MSIX_UNMASK. -/
def execMsixUnmask (v : Fin 64) (s : State) : Host.Outcome State Fault Refusal :=
  .next (s.msixUnmask v)

/-! ## Errors, BAR2 and configuration requests (R607 to R611, R648) -/

/-- DMA_ERROR (R648): of an SQ, CQ or SR, or of the doorbell page (kind 3); `entry` says that the
write of a completion entry failed. -/
def State.dmaError (s : State) (kind : Fin 4) (n : Fin 64) (entry : Bool) : State :=
  if !s.isOn 1 then s
  else
    let s := s.bump HOST_DMA_ERR
    let s := if ringExists kind n then s.ringOff kind n else s
    let s := match (s.cq n).buf with
      | e :: es =>
        if kind.val = 1 && entry then (s.setCq n { s.cq n with buf := es }).countDiscard e else s
      | [] => s
    (s.post 0x0E05 .severe 0)

/-- DMA_ERROR. -/
def execDmaError (kind : Fin 4) (n : Fin 64) (entry : Bool) (s : State) : Host.Outcome State Fault Refusal :=
  .next (s.dmaError kind n entry)

/-- BAR2_WRITE (R610, R611, R681, R718). -/
def State.bar2Write (s : State) (a : BitVec 24) (v : BitVec 32) : State :=
  let b := a.toNat / 4 * 4
  if !s.isOn 1 then s
  else if s.gA.st ≠ .sealed || (recPage b).isSome then (s.bump HOST_BAR2_DROP)
  else if 0x800000 ≤ b then s
  else
    let s := s.touchBank b
    (if s.isOn (bankDom b) then s.setCabWord b v else s)

/-- BAR2_WRITE. -/
def execBar2Write (a : BitVec 24) (v : BitVec 32) (s : State) : Host.Outcome State Fault Refusal :=
  .next (s.bar2Write a v)

/-- A word of the configuration header (R607). -/
def cfgWord (off : Nat) : W32 :=
  let o := off / 4 * 4
  if o = 0 then (0x9128 : BitVec 16) ++ (Config.cfgSpace 0).extractLsb' 0 16
  else if o = 8 then 0x118000B0
  else if o = 0x20 || o = 0x24 then 0
  else if o = 0x3C then Config.cfgSpace o &&& 0xFFFF00FF
  else Config.cfgSpace o

/-- CONFIG_REQUEST (R608, R609). -/
def State.configRequest (s : State) (q : CfgReq) : State :=
  if !s.isOn 19 then s
  else
    if !s.host.ready then (s.out (.config true 0))
    else match q with
      | .read off => (s.out (.config false (cfgWord off.toNat)))
      | .msix en fm =>
        ({ s with host.msixEnable := en, host.msixFMask := fm }.msixFlush.out (.config false 0))
      | .write _ _ => (s.out (.config false 0))

/-- CONFIG_REQUEST. -/
def execConfigRequest (q : CfgReq) (s : State) : Host.Outcome State Fault Refusal :=
  .next (s.configRequest q)

/-- PCIE_LINK_UP (R606). -/
def execPcieLinkUp (speed width : BitVec 3) (s : State) : Host.Outcome State Fault Refusal :=
  if !s.isOn 19 || !s.boot.perstN then .next s
  else .next { s with boot.linkUp := true, host.speed := speed, host.width := width }

/-! ## NOP, firmware and loop programs (R640, R643) -/

/-- NOP at its hinge point. -/
def applyNop (_ : Desc) (cmd : Option Cmd) (s : State) : State := s.complete cmd 0

/-- NOP. -/
def execNop (d : Desc) (s : State) : Host.Outcome State Fault Refusal :=
  .next (s.runDesc 0x00 d applyNop)

/-- The MRAM bytes of an image, and where each image starts. -/
def imageBytes : Nat := 0x1E0000
def imageBase (b : Bool) : Nat := if b then imageBytes else 0

/-- Bytes of the firmware region, the first one lowest. -/
def Fw.bytes (f : Fw) (a n : Nat) : List Nat := (List.range n).map (fun i => (tget 0 f.mram (a + i)).toNat)

/-- FW_WRITE: the inactive image, or image A in recovery boot (R745). -/
def applyFwWrite (d : Desc) (cmd : Option Cmd) (s : State) : State :=
  let a := 48 * bitsOf d.aux 15 0
  if s.fw.verifying.isSome then s.complete cmd 0x0109
  else if imageBytes < a + 48 then s.complete cmd 0x010A
  else
    let base := imageBase (!s.fw.active && s.boot.st != BootSt.recovery)
    let m := (List.range 48).foldl (fun m i =>
      tset 0 m (base + a + i) (BitVec.ofNat 8 (d.le (16 + i) 1))) s.fw.mram
    { s with fw.mram := m, fw.verified := false }.complete cmd 0

/-- FW_WRITE (R643). -/
def execFwWrite (d : Desc) (s : State) : Host.Outcome State Fault Refusal :=
  .next (s.runDesc 0xF0 d applyFwWrite)

/-- FW_VERIFY. -/
def applyFwVerify (_ : Desc) (cmd : Option Cmd) (s : State) : State :=
  if s.fw.verifying.isSome then s.complete cmd 0x0109 else { s with fw.verifying := some cmd }

/-- FW_VERIFY (R643). -/
def execFwVerify (d : Desc) (s : State) : Host.Outcome State Fault Refusal :=
  .next (s.runDesc 0xF1 d applyFwVerify)

/-- FW_VERIFY_DONE (R643): the signature is good or not. -/
def execFwVerifyDone (ok : Bool) (s : State) : Host.Outcome State Fault Refusal :=
  match s.fw.verifying with
  | none => .next s
  | some c =>
    let s := { s with fw.verifying := none, fw.verified := s.fw.verified || ok }
    .next (s.complete c (if ok then 0 else 0x0107))

/-- FW_ACTIVATE. -/
def applyFwActivate (_ : Desc) (cmd : Option Cmd) (s : State) : State :=
  if s.fw.verifying.isSome then s.complete cmd 0x0109
  else if !s.fw.verified then s.complete cmd 0x0108
  else { s with fw.next := !s.fw.active && s.boot.st != BootSt.recovery, fw.fallback := false }.complete cmd 0

/-- FW_ACTIVATE (R643). -/
def execFwActivate (d : Desc) (s : State) : Host.Outcome State Fault Refusal :=
  .next (s.runDesc 0xF2 d applyFwActivate)

/-- FW_INFO. -/
def applyFwInfo (_ : Desc) (cmd : Option Cmd) (s : State) : State :=
  if s.fw.verifying.isSome then s.complete cmd 0x0109
  else s.complete cmd 0 (payOf (s.fw.bytes 4 4 ++ s.fw.bytes (imageBytes + 4) 4 ++
    [if s.boot.st = BootSt.recovery then 0xFF else b2n s.fw.active, b2n s.fw.next]))

/-- FW_INFO (R643). -/
def execFwInfo (d : Desc) (s : State) : Host.Outcome State Fault Refusal :=
  .next (s.runDesc 0xF3 d applyFwInfo)

/-- LP_LOAD. -/
def applyLpLoad (d : Desc) (cmd : Option Cmd) (s : State) : State :=
  let w := bitsOf d.aux 11 0
  if 0xFBA < w then s.complete cmd 0x010A
  else
    let b := (List.range 6).foldl (fun m i =>
      tset 0 m (w + i) (BitVec.ofNat 64 (d.le (16 + 8 * i) 8))) s.fw.buffer
    { s with fw.buffer := b }.complete cmd 0

/-- LP_LOAD (R643). -/
def execLpLoad (d : Desc) (s : State) : Host.Outcome State Fault Refusal :=
  .next (s.runDesc 0xF4 d applyLpLoad)

/-- An enabled context has a stage in the user region of the IM. -/
def State.userBusy (s : State) : Bool :=
  (List.range 256).any (fun c => s.ctxEn c && (List.range (s.nst c)).any (fun i =>
    let e := (stwEntry (s.stw c i)).toNat
    decide (0x1000 ≤ e) && decide (e ≤ 0x1FBF)))

/-- An image of the user region in the IM of every engine that `p` holds of; the others keep theirs. -/
def Fw.loadIm (f : Fw) (img : Table W64) (p : Nat → Bool) : Fw :=
  { f with im := (List.range 24).flatMap (fun e =>
      if p e then img.map (fun w => (e * 4096 + w.1, w.2))
      else f.im.filter (fun w => w.1 / 4096 == e)) }

/-- LP_COMMIT (R105, R548). -/
def applyLpCommit (d : Desc) (cmd : Option Cmd) (s : State) : State :=
  if s.twin.st ≠ .off then s.complete cmd 0x0712
  else if s.userBusy then s.complete cmd 0x010B
  else
    let m := if bitOf d.aux 0 then s.fw.buffer else s.fw.lpMram
    { s with fw := { s.fw.loadIm s.fw.buffer (fun _ => true) with lpMram := m } }.complete cmd 0

/-- LP_COMMIT (R643). -/
def execLpCommit (d : Desc) (s : State) : Host.Outcome State Fault Refusal :=
  .next (s.runDesc 0xF5 d applyLpCommit)

end Sys2Proof.Machine
end

