-- ==== Sys2Proof/Machine/HostLoss.lean ====
section
/-! DEFINITION. Loss of the host: the reset of the host interface and the host watchdog (R644,
R645). -/

namespace Sys2Proof.Machine

/-- An axis stops as under AX_STOP with QS = 0. -/
def State.hostStop (s : State) (c : Nat) : State := applyAxStop { target := BitVec.ofNat 32 c } none s

/-- A mode that FINISH stops (R645, item 1). -/
def AxMode.stopsOnLoss (m : AxMode) : Bool :=
  match m with
  | .vel | .step | .gear | .cam => true
  | _ => false

/-- The host is lost (R645): HOST_LOST is posted and HOST_LOSS applied to every enabled axis. -/
def State.hostLost (s : State) (cause : Nat) : State :=
  let s := { s with host.lost := true }.post 0x0E06 .severe 0 (payOf [cause])
  let all := bitOf (s.rg HOST_CTL) 1
  let s := axisCtxs.foldl (fun (s : State) c =>
    let x := s.ax c
    if x.enabled && (all || x.mode.stopsOnLoss) then s.hostStop c else s) s
  if all then (List.range 32).foldl (fun s g => s.flushGroup g) s else s

/-- The buffer of a CQ is emptied: each entry, a reserved one too, counts as discarded (R638,
R644). -/
def State.emptyCq (s : State) (n : Nat) : State :=
  let c := s.cq n
  let s := c.buf.foldl State.countDiscard s
  let s := { s with host.ledger.cmdDiscard := s.host.ledger.cmdDiscard + BitVec.ofNat 32 c.reserved }
  s.setCq n {}

/-- Every completion buffer is emptied (R644). -/
def State.emptyCqs (s : State) : State := (List.range 64).foldl (fun s n => s.emptyCq n) s

/-- Every submission and completion ring is disabled (R644). -/
def State.cmdRingsOff (s : State) : State :=
  (List.range 64).foldl (fun s n => (s.ringOff 0 n).ringOff 1 n) s

/-- Every stream ring is disabled and its indices are cleared (R644). -/
def State.strmRingsOff (s : State) : State :=
  (List.range 9).foldl (fun s n =>
    (s.ringOff 2 n).setStrm n { s.strm n with head := 0, tail := 0 }) s

/-- The submission rings are cleared, and no entry reserved before completes (R644). -/
def State.clearSqs (s : State) : State :=
  { s with host.sqs := [], host.polling := false, host.epoch := s.host.epoch + 1 }

/-- The host interface is reset (R644). -/
def State.resetHostIf (s : State) : State :=
  let s := s.emptyCqs.cmdRingsOff.strmRingsOff
  (s.setRg HOST_CTL 0 (s.rg HOST_CTL &&& 0xFFFFFFFE)).clearSqs

/-- HOST_INTERFACE_RESET (R644): by PERST_N (cause 1), by link down (2) or by a Function Level Reset
(3). -/
def execHostInterfaceReset (cause : Fin 3) (s : State) : Host.Outcome State Fault Refusal :=
  if !s.isOn 19 then .next s
  else
    let s := if cause.val = 0 then { s with boot.perstN := false, boot.linkUp := false }
      else if cause.val = 1 then { s with boot.linkUp := false }
      else s
    .next (s.resetHostIf.hostLost (cause.val + 1))

/-- HOST_WATCHDOG (R645): HOST_ALIVE has read the same value at every poll for WDT ms. -/
def execHostWatchdog (s : State) : Host.Outcome State Fault Refusal :=
  let h := s.host
  if !bitOf (s.rg HOST_CTL) 2 || !h.polling || !h.aliveSeen || h.lost then .next s
  else .next ((s.upTo (h.aliveAt + BitVec.ofNat 64 (s.rf HOST_WDT 0 15 0 * 1000000))).hostLost 4)

end Sys2Proof.Machine
end

