-- ==== Sys2Proof/Machine/Flags.lean ====
section
/-! DEFINITION. The ALU operations and the condition flags (R113, R127, R181 to R183, R188). -/

namespace Sys2Proof.Machine

/-- The condition flags (R113). -/
structure Flags where
  n : Bool
  z : Bool
  v : Bool
  c : Bool
  deriving DecidableEq, Repr

/-- The condition flags of a status word. -/
def flagsOf (sw : W24) : Flags := ⟨bitOf sw 3, bitOf sw 2, bitOf sw 1, bitOf sw 0⟩

/-- A status word with its condition flags replaced. -/
def putFlags (sw : W24) (f : Flags) : W24 :=
  (sw &&& ~~~ (0xF : W24)) |||
    BitVec.ofNat 24 (8 * b2n f.n + 4 * b2n f.z + 2 * b2n f.v + b2n f.c)

/-- N and Z from a result. -/
def nz (f : Flags) (r : W24) : Flags := { f with n := r.msb, z := r == 0 }

/-- `a + b + cin` (R127): C is the carry out of bit 23, V signed overflow. -/
def addC (f : Flags) (a b : W24) (cin : Bool) : W24 × Flags :=
  let u := a.toNat + b.toNat + b2n cin
  let r := BitVec.ofNat 24 u
  let t := a.toInt + b.toInt + (b2n cin : Int)
  (r, { nz f r with c := decide (2 ^ 24 ≤ u), v := decide (r.toInt ≠ t) })

/-- `a + ~b + cin` (R127). -/
def subC (f : Flags) (a b : W24) (cin : Bool) : W24 × Flags := addC f a (~~~ b) cin

/-- A logic result: N and Z from it, V cleared (R182). -/
def logicR (f : Flags) (r : W24) : W24 × Flags := (r, { nz f r with v := false })

/-- A shift (R182, R183): C is the last bit shifted out, unchanged for a count of 0. -/
def shiftR (f : Flags) (op : ShOp) (a : W24) (k : Nat) : W24 × Flags :=
  let r : W24 := match op with
    | .lsl => a <<< k
    | .lsr => a >>> k
    | .asr => a.sshiftRight k
  let c : Bool := match op with
    | .lsl => if k ≤ 24 then a.getLsbD (24 - k) else false
    | .lsr => if k ≤ 24 then a.getLsbD (k - 1) else false
    | .asr => if k ≤ 24 then a.getLsbD (k - 1) else a.msb
  let g := logicR f r
  (g.1, if k = 0 then g.2 else { g.2 with c := c })

/-- The signed minimum and maximum. -/
def smin (a b : W24) : W24 := if a.toInt ≤ b.toInt then a else b
def smax (a b : W24) : W24 := if a.toInt ≤ b.toInt then b else a

/-- An operation on two operands (R181, R182). -/
def aluR3 (op : R3Op) (f : Flags) (a b : W24) : W24 × Flags :=
  match op with
  | .add => addC f a b false
  | .adc => addC f a b f.c
  | .sub => subC f a b true
  | .sbc => subC f a b f.c
  | .and => logicR f (a &&& b)
  | .or => logicR f (a ||| b)
  | .xor => logicR f (a ^^^ b)
  | .lsl => shiftR f .lsl a (bitsOf b 4 0)
  | .lsr => shiftR f .lsr a (bitsOf b 4 0)
  | .asr => shiftR f .asr a (bitsOf b 4 0)
  | .min => (smin a b, nz f (smin a b))
  | .max => (smax a b, nz f (smax a b))

/-- ABS (R181, R182). -/
def aluAbs (f : Flags) (a : W24) : W24 × Flags :=
  let lo : Bool := a == 0x800000
  let r : W24 := if lo then 0x7FFFFF else if a.msb then -a else a
  (r, { nz f r with v := lo })

/-- An operation with an 11-bit immediate (R181, R182). -/
def aluRi (op : RiOp) (f : Flags) (d : W24) (imm : BitVec 11) : W24 × Flags :=
  match op with
  | .addi => addC f d (imm.signExtend 24) false
  | .movi => (imm.signExtend 24, f)
  | .movhi => (imm.signExtend 24 <<< 11, f)
  | .ori => logicR f (d ||| imm.setWidth 24)

/-- A branch condition (R188). -/
def condHolds (c : BitVec 3) (f : Flags) : Bool :=
  match c.toNat with
  | 0 => f.z
  | 1 => !f.z
  | 2 => f.n != f.v
  | 3 => f.n == f.v
  | 4 => f.z || f.n != f.v
  | 5 => !f.z && f.n == f.v
  | 6 => f.c
  | _ => !f.c

end Sys2Proof.Machine
end

