-- ==== Sys2Proof/Machine/LoopEngine.lean ====
section
/-! DEFINITION. The issue of one Loop Engine word (R103, R134 to R156, R192). -/

namespace Sys2Proof.Machine

/-! ## Control registers (R184, R185) -/

/-- A control register as MVC reads it. -/
def Engine.crRead (x : Engine) (cr : Nat) : W24 :=
  if cr < 0x08 then (tget 0 x.ofs cr).setWidth 24
  else if cr < 0x10 then (tget 0 x.base (cr - 0x08)).setWidth 24
  else if cr < 0x18 then (tget 0 x.len (cr - 0x10)).setWidth 24
  else if cr < 0x20 then (tget 0 x.str (cr - 0x18)).setWidth 24
  else if cr = 0x20 then x.lc.setWidth 24
  else if cr = 0x21 then x.rotb.setWidth 24
  else if cr = 0x22 then x.swRead
  else if cr = 0x23 then x.epc.setWidth 24
  else if cr = 0x24 then x.ecause.setWidth 24
  else x.exa.setWidth 24

/-- The engine with a control register written; SW keeps XB and EXH (R185). -/
def Engine.crWrite (x : Engine) (cr : Nat) (v : W24) : Engine :=
  if cr < 0x08 then { x with ofs := tset 0 x.ofs cr (v.setWidth 14) }
  else if cr < 0x10 then { x with base := tset 0 x.base (cr - 0x08) (v.setWidth 14) }
  else if cr < 0x18 then { x with len := tset 0 x.len (cr - 0x10) (v.setWidth 14) }
  else if cr < 0x20 then { x with str := tset 0 x.str (cr - 0x18) (v.setWidth 14) }
  else if cr = 0x20 then { x with lc := v.setWidth 16 }
  else if cr = 0x21 then { x with rotb := v.setWidth 4 }
  else { x with sw := (x.sw &&& 0x000800) ||| (v &&& 0x00078F),
                acc := { x.acc with pin := v.extractLsb' 12 4 } }

/-! ## The CMAC slot -/

/-- The accumulators after a CMAC-slot operation (R118, R164 to R167), from the ones that stand
(`x.acc`) and the ones a source reads (`x.acc2`, R134). -/
def Engine.cmac (x : Engine) (op : CmacOp) : Accs :=
  let a := x.acc
  let dr (k : Nat) : W24 := x.dreg k
  match op with
  | .nop => a
  | .clra k => a.set k.toNat (accNew 0)
  | .mpy _ n k p q => a.set k.toNat (accNew (product n (dr p.toNat) (dr q.toNat)))
  | .mac _ n k p q => a.set k.toNat (accAdd (a.get k.toNat) (product n (dr p.toNat) (dr q.toNat)))
  | .mpy2 _ n k p q =>
    (a.set k.toNat (accNew (product n (dr p.toNat) (dr q.toNat)))).set (k.toNat + 1)
      (accNew (product n (dr (p.toNat + 1)) (dr (q.toNat + 1))))
  | .mac2 _ n k p q =>
    (a.set k.toNat (accAdd (a.get k.toNat) (product n (dr p.toNat) (dr q.toNat)))).set (k.toNat + 1)
      (accAdd (a.get (k.toNat + 1)) (product n (dr (p.toNat + 1)) (dr (q.toNat + 1))))
  | .cmpy _ n k p q => put a n k (accNew (re n p q dr)) (accNew (im n p q dr))
  | .cmac _ n k p q =>
    put a n k (accAdd (a.get k.toNat) (re n p q dr)) (accAdd (a.get (k.toNat + 1)) (im n p q dr))
  | .cmpyC _ n k p q => put a n k (accNew (reC n p q dr)) (accNew (imC n p q dr))
  | .cmacC _ n k p q =>
    put a n k (accAdd (a.get k.toNat) (reC n p q dr)) (accAdd (a.get (k.toNat + 1)) (imC n p q dr))
  | .adda n k j => a.set k.toNat (accAdda n (a.get k.toNat) (x.acc2.get j.toNat))
  | .asra k sh => a.set k.toNat (accAsra (a.get k.toNat) sh.toNat)
  | .asla k sh => a.set k.toNat (accAsla (a.get k.toNat) sh.toNat)
  | .lda i n k p =>
    let v := (dr p.toNat).toInt * (if i then 1 else 2 ^ 23)
    a.set k.toNat (accNew (if n then -v else v))
where
  /-- A result pair written, the even accumulator first. -/
  put (a : Accs) (_n : Bool) (k : BitVec 2) (e o : AccV) : Accs :=
    (a.set k.toNat e).set (k.toNat + 1) o
  /-- The real and imaginary parts of X·Y and of X·conj(Y) (R118). -/
  re (n : Bool) (p q : BitVec 5) (dr : Nat → W24) : Int :=
    product n (dr p.toNat) (dr q.toNat) - product n (dr (p.toNat + 1)) (dr (q.toNat + 1))
  im (n : Bool) (p q : BitVec 5) (dr : Nat → W24) : Int :=
    product n (dr p.toNat) (dr (q.toNat + 1)) + product n (dr (p.toNat + 1)) (dr q.toNat)
  reC (n : Bool) (p q : BitVec 5) (dr : Nat → W24) : Int :=
    product n (dr p.toNat) (dr q.toNat) + product n (dr (p.toNat + 1)) (dr (q.toNat + 1))
  imC (n : Bool) (p q : BitVec 5) (dr : Nat → W24) : Int :=
    product n (dr (p.toNat + 1)) (dr q.toNat) - product n (dr p.toNat) (dr (q.toNat + 1))

/-- The pins that a CMAC-slot operation sets (R122, R166): ADDA of a pinned accumulator sets the pin also
where it stands already. -/
def Engine.setsPins (x : Engine) (op : CmacOp) : BitVec 4 :=
  ((x.cmac op).pin &&& ~~~ x.acc.pin) ||| (match op with
    | .adda _ k j => if (x.acc2.get j.toNat).pin then BitVec.ofNat 4 (2 ^ k.toNat) else 0
    | _ => 0)

/-! ## The memory slot -/

/-- A memory slot leaves the write access of its word free (R110): it writes nothing and reads at most
one word. -/
def MemOp.leavesWrite : MemOp → Bool
  | .st .. | .stAcc .. | .pair .. => false
  | .dual _ _ _ b _ _ => decide (b = .none)
  | _ => true

/-- What the memory slot of a word does: the engine after it, the sticky flags it sets, the
address of an uncorrectable read, counted errors, and an item or duty set handed over. -/
structure MemEff where
  x : Engine
  sticky : W24 := 0
  ue : Option Nat := none
  corr : Nat := 0
  uncorr : Nat := 0
  item : Option (List W24) := none
  duty : Option (List W24) := none
  deriving DecidableEq, Repr

/-- One load (R107, R134, R154): the word is read now and lands for the word after next. -/
def MemEff.load (m : MemEff) (x0 : Engine) (slot : Nat) (d : Nat) (ac : Acx) (ecc : Ecc) : MemEff :=
  let st := if ac.modv then m.sticky ||| swModv else m.sticky
  let land (v : W24) : Engine :=
    { m.x with lands := m.x.lands ++ [⟨x0.n + 2, .d (physD x0.rotb d), v⟩] }
  if !mayRead slot ac.a then { m with x := land 0, sticky := st ||| swAccv }
  else if ecc == .uncorrectable || ac.a ∈ x0.bad then
    { m with x := { m.x with bad := ac.a :: m.x.bad.filter (· ≠ ac.a) }, sticky := st,
             ue := m.ue.or (some ac.a), uncorr := m.uncorr + 1 }
  else if ecc == .corrected then
    { m with x := { land (x0.ldmAt ac.a) with fix := m.x.fix ++ [ac.a] }, sticky := st ||| swEcc1,
             corr := m.corr + 1 }
  else { m with x := land (x0.ldmAt ac.a), sticky := st }

/-- One store (R107, R108). -/
def MemEff.store (m : MemEff) (slot : Nat) (ac : Acx) (v : W24) (sat : Bool) : MemEff :=
  let st := if ac.modv then m.sticky ||| swModv else m.sticky
  let st := if sat then st ||| swSat else st
  if mayWrite slot ac.a then { m with x := m.x.ldmPut ac.a v, sticky := st }
  else { m with sticky := st ||| swAccv }

/-- The memory slot of a word (R170 to R179). Reads see the engine `x` as it stands before the
word; `xwin` is the cabinet write window (base, length). -/
def Engine.memSlot (x : Engine) (r : EngRun) (io : Issue) (xwin : Nat × Nat) (op : MemOp) : MemEff :=
  let m0 : MemEff := { x := x }
  let src (k : BitVec 2) : AccV := x.acc2.get k.toNat
  let wr (ofs : Table (BitVec 14)) (m : MemEff) : MemEff := { m with x := { m.x with ofs := ofs } }
  match op with
  | .nop => m0
  | .ld d am =>
    let ac := x.viaMode am
    wr ac.ofs (m0.load x r.slot d.toNat ac io.rdA)
  | .st q am =>
    let ac := x.viaMode am
    wr ac.ofs (m0.store r.slot ac (x.dreg q.toNat) false)
  | .stAcc md k am =>
    let ac := x.viaMode am
    let c := conv md (src k)
    wr ac.ofs (m0.store r.slot ac c.1 c.2)
  | .pair k p d =>
    let a := x.viaPtr x.ofs p.toNat d.toNat false
    let b := x.viaPtr x.ofs p.toNat (d.toNat + 1) false
    (m0.load x r.slot k.toNat a io.rdA).load x r.slot (k.toNat + 1) b io.rdB
  | .dual ar ap ainc b bp binc =>
    let a := x.viaPtr x.ofs ap.toNat 0 ainc
    let m := m0.load x r.slot ar.toNat a io.rdA
    match b with
    | .none => wr a.ofs m
    | .ld d =>
      let c := x.viaPtr a.ofs bp.toNat 0 binc
      wr c.ofs (m.load x r.slot d.toNat c io.rdB)
    | .st q =>
      let c := x.viaPtr a.ofs bp.toNat 0 binc
      wr c.ofs (m.store r.slot c (x.dreg q.toNat) false)
    | .acc md k =>
      let c := x.viaPtr a.ofs bp.toNat 0 binc
      let v := conv md (src k)
      wr c.ofs (m.store r.slot c v.1 v.2)
  | .mvo k q => { m0 with x := { x with ob := tset 0 x.ob k.toNat (x.dreg q.toNat) } }
  | .mvoAcc k md a =>
    let c := conv md (src a)
    { m0 with x := { x with ob := tset 0 x.ob k.toNat c.1 }, sticky := if c.2 then swSat else 0 }
  | .put k => { m0 with item := some (ob (k.toNat + 1)) }
  | .putd k => { m0 with duty := some (ob (k.toNat + 1)) }
  | .xfer write q n len =>
    let cab := bitsOf (x.dreg q.toNat) 20 0
    let l := len.toNat + 1
    let ac := x.viaPtr x.ofs n.toNat 0 false
    let st : W24 := if ac.modv then swModv else 0
    if ac.a < 0x3000 || 0x3800 < ac.a + l || 0x200000 < cab + l then
      { m0 with sticky := st ||| swAccv }
    else if write && !(xwin.1 ≤ cab && cab + l ≤ xwin.1 + xwin.2) then
      { m0 with sticky := st ||| swAccv }
    else { m0 with x := { x with xfer := some ⟨write, cab, ac.a, l, []⟩ }, sticky := st }
where
  /-- The first `k` outbox words (R139). -/
  ob (k : Nat) : List W24 := (List.range k).map (fun i => tget 0 x.ob i)

/-! ## The ALU/control slot -/

/-- What the ALU/control slot does: the engine after it, a transfer that begins, a sticky flag,
and whether BRK was met. -/
structure AluEff where
  x : Engine
  tr : Option After := none
  sat : Bool := false
  brk : Bool := false
  deriving DecidableEq, Repr

/-- The loop counter after a counted branch, and whether it branches (R136, R189). -/
def Engine.count (x : Engine) : BitVec 16 × Bool := (x.lc - 1, x.lc - 1 ≠ 0)

/-- A register written under the name that a word gives it at its issue (R116). -/
def Engine.setNamed (x : Engine) (rotb : BitVec 4) (k : Nat) (v : W24) : Engine :=
  { x with d := tset 0 x.d (physD rotb k) v }

/-- The ALU/control slot of a word: `x0` is what it reads, `x` what it writes into. -/
def Engine.aluSlot (x0 x : Engine) (op : AluOp) : AluEff :=
  let f := flagsOf x0.sw
  let res (d : BitVec 5) (r : W24 × Flags) : AluEff :=
    { x := { x.setNamed x0.rotb d.toNat r.1 with sw := putFlags x.sw r.2 } }
  let src (k : BitVec 2) : AccV := x0.acc2.get k.toNat
  match op with
  | .nop => { x := x }
  | .r3 o d a b => res d (aluR3 o f (x0.dreg a.toNat) (x0.dreg b.toNat))
  | .abs d a => res d (aluAbs f (x0.dreg a.toNat))
  | .cmp a b => { x := { x with sw := putFlags x.sw (subC f (x0.dreg a.toNat) (x0.dreg b.toNat) true).2 } }
  | .mov d a => { x := x.setNamed x0.rotb d.toNat (x0.dreg a.toNat) }
  | .ri o d imm => res d (aluRi o f (x0.dreg d.toNat) imm)
  | .sh o d a u => res d (shiftR f o (x0.dreg a.toNat) u.toNat)
  | .mvcTo cr q => { x := x.crWrite cr.toNat (x0.dreg q.toNat) }
  | .mvcFrom d cr => { x := x.setNamed x0.rotb d.toNat (x0.crRead cr.toNat) }
  | .moviCr cr imm => { x := x.crWrite cr.toNat (imm.signExtend 24) }
  | .moviLc u => { x := { x with lc := u } }
  | .mvxFrom d k part => { x := x.setNamed x0.rotb d.toNat (mvxRead part (src k)) }
  | .mvxTo k part q =>
    { x := { x with acc := x.acc.set k.toNat (mvxWrite part (x.acc.get k.toNat) (x0.dreg q.toNat)) } }
  | .movAcc d md k =>
    let c := conv md (src k)
    { x := x.setNamed x0.rotb d.toNat c.1, sat := c.2 }
  | .br t => { x := x, tr := some (.goto t) }
  | .bcc c t => { x := x, tr := some (if condHolds c f then .goto t else .fall) }
  | .dbnz t =>
    let r := x0.count
    { x := { x with lc := r.1 }, tr := some (if r.2 then .goto t else .fall) }
  | .brr t =>
    let r := x0.count
    let l : Land := ⟨x0.n + 3, .rotb, (x0.rotb - 1).setWidth 24⟩
    { x := { x with lc := r.1, lands := x.lands ++ [l] },
      tr := some (if r.2 then .goto t else .fall) }
  | .jr q => { x := x, tr := some (.goto ((x0.dreg q.toNat).setWidth 13)) }
  | .tend m => { x := x, tr := some (.tend m) }
  | .rete => { x := x, tr := some .rete }
  | .brk _ => { x := x, brk := true }

/-! ## Landing, exceptions and ends -/

/-- One result lands. -/
def Engine.landOne (x : Engine) (l : Land) : Engine :=
  match l.tgt with
  | .d p => { x with d := tset 0 x.d p l.val }
  | .rotb => { x with rotb := l.val.setWidth 4 }

/-- The results first visible to word `m` or earlier land, in issue order (R134, R187). -/
def Engine.landUpTo (x : Engine) (m : Nat) : Engine :=
  let y := { x with lands := x.lands.filter (fun l => m < l.vis) }
  (x.lands.filter (fun l => l.vis ≤ m)).foldl Engine.landOne y

/-- Every operation already issued lands (R145). -/
def Engine.landAll (x : Engine) : Engine :=
  let y := x.lands.foldl Engine.landOne { x with lands := [] }
  { y with acc1 := y.acc, acc2 := y.acc }

/-- The vector of a cause (R144). -/
def excVector (cause : BitVec 6) : BitVec 13 :=
  if cause = 0x01 then 0x00 else if cause = 0x03 then 0x20 else if cause = 0x04 then 0x30 else 0x10

/-- The exception is taken (R145): the handler's first word is the next to issue. -/
def Engine.enter (x : Engine) (base : BitVec 13) (cause : BitVec 6) (epc : BitVec 13) : Engine :=
  { x.landAll with
      epc := epc, ecause := cause, sw := x.sw ||| 0x800, pc := base + excVector cause, n := x.n + 3,
      tr := none, late := none, pass := false, exhEnd := false, fin := none,
      resumable := cause = 0x01 || cause = 0x04 }

/-- The stage has ended (R138, R150): its completion follows. -/
def Engine.finish (x : Engine) (mask : BitVec 16) (fatal : Bool) : Engine :=
  { x.landAll with fin := some ⟨mask, fatal⟩, tr := none, late := none }

/-- A fault while a handler runs makes a fatal end (R150); otherwise it is taken. -/
def Engine.fault (x : Engine) (r : EngRun) (base : BitVec 13) (cause : BitVec 6)
    (at_ epc : BitVec 13) : Engine :=
  if x.exh then { x with epc := at_, ecause := cause }.finish r.succ true
  else x.enter base cause epc

/-- The forbidden slot combinations of R192. -/
def forbidden (x : Engine) (r : EngRun) (c : CmacOp) (m : MemOp) (a : AluOp) : Bool :=
  (a.transfer && x.tr.isSome) ||
  (match c.pair? with
    | some (k, p, q) => k.getLsbD 0 || p.getLsbD 0 || q.getLsbD 0
    | none => false) ||
  (match m with
    | .dual ar _ _ (.ld d) _ _ => ar == d
    | .put _ => !r.flowEn
    | .putd _ => !r.near
    | .xfer .. => x.xfer.isSome
    | _ => false) ||
  (match a with
    | .rete => !x.exh
    | .mvxTo k _ _ => decide (k.toNat ∈ c.writes)
    | _ => false)

/-! ## One word -/

/-- The base of the vector table (R144, R157). -/
def State.excBase (s : State) : BitVec 13 := (s.rg LE_EXC_BASE).setWidth 13

/-- LE_BKPT names this word of this context, and LE_TRACE this context (R144). -/
def State.bkptHit (s : State) (r : EngRun) (pc : BitVec 13) : Bool :=
  let b := s.rg LE_BKPT
  bitOf b 31 && bitsOf b 23 16 == r.ctx && bitsOf b 12 0 == pc.toNat
def State.traceHit (s : State) (r : EngRun) : Bool :=
  let b := s.rg LE_TRACE
  bitOf b 31 && bitsOf b 7 0 == r.ctx

/-- What a legal word does to its engine: the engine after it, and what its memory slot handed
over. `bk` says that LE_BKPT matches it in a place where the exception waits (R146).
A sticky flag of SW that word n sets is first visible to word n + 1 (DESIGN CHOICE, log 157). BREAKPOINT
goes before TRACE; of several raised by a transfer and its delay slots the first is taken; one raised by a
TEND or in its delay slots is not (DESIGN CHOICE, log 158). -/
def issueLegal (s : State) (x : Engine) (r : EngRun) (io : Issue) (c : CmacOp) (m : MemOp)
    (a : AluOp) (bk : Bool) : MemEff :=
  -- a word corrected before is written back when this word leaves the write access free (R154)
  let x1 := if m.leavesWrite then { x with fix := x.fix.drop 1 } else x
  let me := x1.memSlot r io (s.rf LE_XWIN_BASE 0 20 0, s.rf LE_XWIN_LEN 0 21 0) m
  let acc := x.cmac c
  let y := { me.x with acc := acc }
  let y := y.landUpTo (x.n + 1)
  let ae := x.aluSlot y a
  -- a pin that the CMAC slot sets stands over a write of SW (R185)
  let z := ae.x
  let z := { z with
    acc := { z.acc with pin := z.acc.pin ||| x.setsPins c },
    sw := z.sw ||| me.sticky ||| (if ae.sat then swSat else 0),
    acc1 := x.acc, acc2 := x.acc1, n := x.n + 1 }
  let slotish := x.tr.isSome || a.transfer
  let raise : BitVec 6 :=
    if x.exh then 0 else if ae.brk || bk then 0x01 else if s.traceHit r then 0x04 else 0
  -- the transfer and its delay slots (R135)
  let tr : Option Transfer :=
    match ae.tr, x.tr with
    | some t, _ => some ⟨2, t⟩
    | none, some t => some { t with left := t.left - 1 }
    | none, none => none
  let late := if slotish then (x.late.or (if raise = 0 then none else some raise)) else x.late
  let z := { z with tr := tr, late := late, pc := x.pc + 1 }
  let z := match tr with
    | some ⟨0, .goto t⟩ => { z with tr := none, pc := t }
    | some ⟨0, .fall⟩ => { z with tr := none }
    | some ⟨0, .tend mask⟩ => z.finish (mask &&& r.succ) false
    | some ⟨0, .rete⟩ =>
      if x.resumable then
        { z with tr := none, pc := x.epc, pass := true, exhEnd := true }
      else z.finish r.succ true
    | _ => z
  let z := match me.ue with
    | some adr => { z with exa := BitVec.ofNat 14 adr }.fault r s.excBase 0x03 x.pc z.pc
    | none =>
      if z.fin.isSome then z
      else if !slotish && raise ≠ 0 then z.enter s.excBase raise z.pc
      else match z.late, z.tr with
        | some cause, none => z.enter s.excBase cause z.pc
        | _, _ => z
  { me with x := z }

/-- SW.EXH falls when the word at EPC issues (R149). -/
def Engine.clearExh (x : Engine) : Engine :=
  if x.exhEnd then { x with sw := x.sw &&& ~~~ (0x800 : W24), exhEnd := false } else x

/-- A word gives three bytes, the most significant first (R139). -/
def wordBytes (v : W24) : List Byte := [v.extractLsb' 16 8, v.extractLsb' 8 8, v.extractLsb' 0 8]

/-- The duty set that a word hands over (R140). -/
def State.putDuty (s : State) (r : EngRun) (ws : List W24) : State :=
  match s.stage? r.ctx r.stage with
  | some st => s.setStage r.ctx r.stage { st with duty := some ws }
  | none => s

/-- What a legal word leaves behind: its engine, the errors it counts, its item and its duty set. -/
def State.afterWord (s : State) (e : Nat) (r : EngRun) (me : MemEff) : State :=
  let s := s.setEng e me.x
  let s := if me.corr = 0 then s else s.bump LE_ECC_CORR e me.corr
  let s := if me.uncorr = 0 then s else s.bump LE_ECC_UE e me.uncorr
  let s := match me.item with
    | some ws => s.putItem r.ctx r.stage (ws.flatMap wordBytes)
    | none => s
  match me.duty with
  | some ws => s.putDuty r ws
  | none => s

/-- A word that was fetched: a reserved encoding or a forbidden combination is ILLEGAL (R162, R192). EPC
then holds the word's own address, and after LDM_UE that of the word after it (DESIGN CHOICE, log 159). -/
def State.runWord (s : State) (x : Engine) (r : EngRun) (io : Issue) (w : W64) (bk : Bool) : State :=
  match decCmac (slotCmac w), decMem (slotMem w), decAlu (slotAlu w) with
  | some c, some m, some a =>
    if forbidden x r c m a then s.setEng io.e.val (x.fault r s.excBase 0x02 x.pc x.pc)
    else s.afterWord io.e.val r (issueLegal s x r io c m a bk)
  | _, _, _ => s.setEng io.e.val (x.fault r s.excBase 0x02 x.pc x.pc)

/-- The word of an engine that runs a stage: a breakpoint before it, the check of its fetch, and the
word (R144, R149, R156). -/
def State.fetchWord (s : State) (x : Engine) (r : EngRun) (io : Issue) (w : W64) : State :=
  let e := io.e.val
  let bk := s.bkptHit r x.pc && !x.exh && !x.pass
  let slotish := x.tr.isSome || ((decAlu (slotAlu w)).map AluOp.transfer).getD false
  let y := { x with pass := false }
  if bk && !slotish then s.setEng e (x.enter s.excBase 0x01 x.pc)
  else match io.im with
    | .uncorrectable => (s.bump LE_ECC_UE e).setEng e (y.fault r s.excBase 0x22 x.pc x.pc)
    | .corrected =>
      (s.bump LE_ECC_CORR e).runWord { y with imFix := x.imFix ++ [x.pc.toNat] } r io w bk
    | .ok => s.runWord y r io w bk

/-- The words of the default handlers (R105, R144, R151): at each vector a RETE and two no-operation
words. After a non-resumable cause that RETE is the fatal end (R150). What the other words of the region
hold the spec does not say. -/
def defaultWord (pc : Nat) : Option W64 :=
  if pc < 0x1FC0 then none
  else if pc % 16 = 0 then some (leWord 0 0 (encAlu .rete))
  else if pc % 16 < 3 then some 0
  else none

/-- An engine issues one word (R103): nothing happens on an engine that runs no stage, nor for a word
that the default handlers do not hold at its address. -/
def issueWord (io : Issue) (w : W64) (s : State) : State :=
  let x := s.eng io.e.val
  match x.run, x.fin with
  | some r, none =>
    if (defaultWord x.pc.toNat).all (· == w) then s.fetchWord x.clearExh r io w else s
  | _, _ => s

end Sys2Proof.Machine
end

