-- ==== Sys2Proof/Machine/Recorder.lean ====
section
/-! DEFINITION. The event recorder and the black box (R679 to R707). The chests keep the journal's
entries in order; an entry takes a frame for its header and one for each page. -/

namespace Sys2Proof.Machine

/-! ## Pages (R690, R691) -/

/-- The image of a page of the buffer: its bytes that are not 0, by offset. -/
def State.pageImage (s : State) (p : Nat) : List (Nat × Byte) :=
  (s.cab.filter (fun c => recPage c.1 == some p)).map (fun c => (c.1 - (recBase + p * 4096), c.2))

/-- The buffer page with an image in it. -/
def putPage (cab : List Host.Cell) (p : Nat) (img : List (Nat × Byte)) : List Host.Cell :=
  img.foldl (fun m c => tset 0 m (recBase + p * 4096 + c.1) c.2)
    (cab.filter (fun c => recPage c.1 != some p))

/-- The pages of a flush in the order of R691: the global record, the dirty event-log pages from the
oldest unflushed entry, the dirty axis pages by their oldest committed image. -/
def RecSt.flushPages (r : RecSt) : List Nat :=
  let log := ((List.range 16).map (fun i => 48 + (r.logFrom / 256 + i) % 16)).filter (· ∈ r.dirty)
  let axes := (List.range 32).map (16 + ·)
  let never := axes.filter (fun p => decide (p ∈ r.dirty) && decide (p ∉ r.order))
  let old := r.order.filter (fun p => decide (p ∈ r.dirty) && decide (p ∈ axes))
  ((if 0 ∈ r.dirty then [0] else []) ++ log ++ never ++ old).take 16

/-! ## The chests (R697 to R700) -/

/-- A chest. -/
def RecSt.chest (r : RecSt) (k : Nat) : Chest := if k = 0 then r.chest0 else r.chest1

/-- The record with a chest set. -/
def RecSt.setChest (r : RecSt) (k : Nat) (c : Chest) : RecSt :=
  if k = 0 then { r with chest0 := c } else { r with chest1 := c }

/-- The frames of an entry. -/
def JEntry.frames (e : JEntry) : Nat := 1 + e.pages.length

/-- The SEQ of the latest committed image of a page in a chest. -/
def Chest.latest (c : Chest) (p : Nat) : Option JEntry :=
  (c.journal.filter (fun e => e.committed && decide (p ∈ e.pages))).getLast?

/-- The pages of an entry whose latest image it holds. -/
def Chest.live (c : Chest) (e : JEntry) : List Nat :=
  e.pages.filter (fun p => (c.latest p).map JEntry.seq == some e.seq)

/-- The frames that a chest has. -/
def Chest.capacity (c : Chest) : Nat := 1024 - c.retired

/-- The free frames of a chest (R698). -/
def Chest.free (c : Chest) : Nat :=
  c.capacity - ((c.journal.filter (fun e => c.live e ≠ [])).map (fun e => 1 + (c.live e).length)).sum

/-- The journal without the leading entries whose frames are free. -/
def dropDead (c : Chest) : List JEntry → List JEntry
  | [] => []
  | e :: es => if c.live e = [] then dropDead c es else e :: es

/-- The free frames ahead of the write position. -/
def Chest.ahead (c : Chest) : Nat := c.capacity - ((dropDead c c.journal).map JEntry.frames).sum

/-- The journal as far as the frames have not been written again. -/
def Chest.trim : Nat → Chest → Chest
  | 0, c => c
  | n + 1, c =>
    if c.capacity < (c.journal.map JEntry.frames).sum then
      Chest.trim n { c with journal := c.journal.tail } else c

/-- A chest takes an entry. -/
def Chest.put (c : Chest) (e : JEntry) : Chest :=
  if c.failed then c else Chest.trim 1024 { c with journal := c.journal ++ [e] }

/-- A chest becomes FAILED (R700): its number and the cause (1 macro, 2 frames, 3 recovery). -/
def State.chestFail (s : State) (k cause : Nat) : State :=
  let c := s.recd.chest k
  if c.failed then s
  else
    let s := { s with recd := s.recd.setChest k { c with failed := true } }
    if s.isOn 1 then s.post 0x0A01 .severe 0 (payOf [k, cause]) else s

/-- A chest's frames fail the read-back, or its macro reports a fault (R699). -/
def State.chestCheck (s : State) (k retire : Nat) (fault : Bool) : State :=
  let c := s.recd.chest k
  let s := { s with recd := s.recd.setChest k { c with retired := c.retired + retire } }
  if fault then s.chestFail k 1
  else if 64 < c.retired + retire then s.chestFail k 2
  else s

/-! ## Flushes (R690 to R696, R698) -/

/-- An entry starts: the count of entries is part of its own image, and its pages are clean until
they change again. -/
def State.startEntry (s : State) (cause : Nat) (pages : List Nat) (cmds : List Cmd) : State :=
  let images := pages.map s.pageImage
  let next := (s.cabWord (recBase + 328)).toNat
  { s with recd := { s.recd with
      flush := some ⟨cause, s.recd.seq + 1, pages, images, s.bt, cmds⟩
      dirty := s.recd.dirty.filter (· ∉ pages)
      logFrom := if (s.recd.dirty.filter (fun p => 48 ≤ p)).all (· ∈ pages) then next
                 else s.recd.logFrom } }

/-- The next entry of a cause starts with the pages of R691. -/
def State.nextEntry (s : State) (cause : Nat) (cmds : List Cmd) : State :=
  let s := s.recBump 336
  s.startEntry cause s.recd.flushPages cmds

/-- The running flush is abandoned (R694): its pages are dirty again, and its entry is none of those
committed (R686). -/
def State.abandonFlush (s : State) : State :=
  match s.recd.flush with
  | none => s
  | some f =>
    let s := { s with recd.flush := none,
                      recd.dirty := s.recd.dirty ++ f.pages.filter (· ∉ s.recd.dirty) }
    (s.setCabWord (recBase + 336) (s.cabWord (recBase + 336) - 1)).bump REC_ABANDONED

/-- A POWER flush, or the HOST flush that stands in for it, starts whatever runs (R694, R740). -/
def State.powerFlush (s : State) (cause : Nat) : State :=
  if !s.recd.recovered then s else s.abandonFlush.nextEntry cause []

/-- The pages whose latest image lies in the frames to be reclaimed next (R698). -/
def RecSt.refreshPages (r : RecSt) : Option (List Nat) :=
  [r.chest0, r.chest1].findSome? (fun c =>
    if !c.failed && decide (c.ahead < 34) then (dropDead c c.journal).head?.map (fun e => c.live e)
    else none)

/-- The held cause may start now (R692): a FAULT flush at most once per second. -/
def State.flushDue (s : State) (h : HeldFlush) : Bool :=
  h.cause != 2 || (match s.recd.lastFault with
    | some t => decide (1000000000 ≤ (s.bt - t).toNat)
    | none => true)

/-- FLUSH_START (R692, R698): in the sill, or while cycles are stopped. -/
def State.flushStart (s : State) : State :=
  if s.recd.flush.isSome || !s.recd.recovered || (s.cyc.running && s.cyc.phase ≠ .sill) then s
  else match s.recd.refreshPages with
    | some ps => ((s.recBump 336).startEntry 6 ps [])
    | none =>
      match s.recd.held with
      | some h =>
        if s.flushDue h then
          let lf := if h.cause = 2 then some s.bt else s.recd.lastFault
          ({ s with recd.held := none, recd.lastFault := lf }.nextEntry h.cause h.cmds)
        else s
      | none => s

/-- FLUSH_START. -/
def execFlushStart (s : State) : Host.Outcome State Fault Refusal :=
  .next (s.flushStart)

/-- An entry is committed in every chest that is OK; the counters of CORE rise while it runs (R696). -/
def State.commitEntry (s : State) (f : Flush) : State :=
  let e : JEntry := ⟨f.seq, f.cause, f.pages, f.images, s.boot.opMinutes, 0, true⟩
  let r := s.recd
  let r := { r with flush := none, seq := f.seq, chest0 := r.chest0.put e, chest1 := r.chest1.put e,
                    order := r.order.filter (· ∉ f.pages) ++ f.pages }
  let s := { s with recd := r }
  if !s.isOn 1 then s
  else (s.bump REC_FLUSHES).keepMax REC_FLUSH_MAX 0 (min 0xFFFF ((s.bt - f.startAt).toNat / 1000))

/-- Every domain but AON in reset or without power, as a table of their states. -/
def allOff : Table Dom := (List.range 22).map (fun k => (k + 1, { st := .off }))

/-- The power-fail hold (R729, step 7): every domain but AON is in reset. -/
def State.enterHold (s : State) : State :=
  { s with pwr.hold := true, pwr.dom := allOff, boot.st := .held, host.ready := false,
           trig := {} }.driveVioc

/-- FLUSH_COMMIT (R690, R692, R699, R729): frames that fail the read-back in each chest, and faults of
their macros. A PERIODIC or HOST flush goes on until no page is dirty. -/
def State.flushCommit (s : State) (retire0 retire1 : Nat) (fault0 fault1 : Bool) : State :=
  match s.recd.flush with
  | none => s
  | some f =>
    let s := (s.chestCheck 0 retire0 fault0).chestCheck 1 retire1 fault1
    let s := s.commitEntry f
    if s.pwr.failed then s.enterHold
    else if (f.cause = 4 || f.cause = 5) && s.recd.dirty ≠ [] then
      (s.nextEntry f.cause f.cmds)
    else (f.cmds.foldl (fun s c => s.complete (some c) 0 (payOf (leBytes 4 f.seq.toNat))) s)

/-- FLUSH_COMMIT. -/
def execFlushCommit (retire0 retire1 : Nat) (fault0 fault1 : Bool) (s : State) : Host.Outcome State Fault Refusal :=
  .next (s.flushCommit retire0 retire1 fault0 fault1)

/-- PERIODIC_FLUSH_DUE (R692). -/
def execPeriodicFlushDue (s : State) : Host.Outcome State Fault Refusal :=
  if !s.isOn 1 then .next s else .next (s.askFlush 4 [])

/-! ## Time and extremes (R686 to R688) -/

/-- VIN lies within its operating range (R687, R708): operating time counts. -/
def Pwr.counting (p : Pwr) : Bool := decide (18000 ≤ p.vin.toNat) && decide (p.vin.toNat ≤ 32000)

/-- SEC_REM now. -/
def State.secNow (s : State) : Nat :=
  if s.pwr.counting then min 59 (s.boot.secRem.toNat + (s.bt - s.boot.minAt).toNat / 1000000000)
  else s.boot.secRem.toNat

/-- OP_MINUTE_TICK (R687): AON has counted 60 operating seconds. -/
def State.opMinuteTick (s : State) : State :=
  if !s.pwr.counting then s
  else
    let m := satAdd s.boot.opMinutes 1
    let s := { s with boot.opMinutes := m, boot.secRem := 0, boot.minAt := s.bt }
    ((s.setCabWord (recBase + 4) m).setCabByte (recBase + 8) 0)

/-- OP_MINUTE_TICK. -/
def execOpMinuteTick (s : State) : Host.Outcome State Fault Refusal :=
  .next (s.opMinuteTick)

/-- An extreme with its stamp takes a new value. -/
def State.extreme (s : State) (off : Nat) (v : W32) (first better : Bool) : State :=
  if first || better then
    (s.setCabWord (recBase + off) v).setCabWord (recBase + off + 4) s.boot.opMinutes
  else s

/-- VIN enters or leaves its operating range: the seconds counted so far stand (R687). -/
def State.vinTaken (s : State) (vin : BitVec 16) : State :=
  let t := { s with pwr.vin := vin }
  if s.pwr.counting = t.pwr.counting then t
  else { t with boot.secRem := BitVec.ofNat 8 s.secNow, boot.minAt := s.bt }

/-- SUPPLY_SAMPLE (R688, R710, R732): VIN and VBRK in mV, the junction temperature in 0.1 °C. -/
def execSupplySample (vin vbrk tj : BitVec 16) (s : State) : Host.Outcome State Fault Refusal :=
  let s := { s.vinTaken vin with pwr.vbrk := vbrk, pwr.tj := tj }
  if !s.recd.recovered then .next s
  else
    let g (o : Nat) : W32 := s.cabWord (recBase + o)
    let first := g 288 = 0
    let v : W32 := vin.setWidth 32
    let t : W32 := tj.signExtend 32
    let s := (s.extreme 288 v first (decide (v.toNat < (g 288).toNat))).extreme 296 v first
      (decide ((g 296).toNat < v.toNat))
    let s := (s.extreme 304 t first (decide (t.toInt < (g 304).toInt))).extreme 312 t first
      (decide ((g 312).toInt < t.toInt))
    .next (s.setCabByte (recBase + 8) (BitVec.ofNat 8 s.secNow))

/-- LOAD_MAX (R686): DISP_CYC_DONE_MAX as 0.1 % of PERIOD. -/
def State.loadMax (s : State) : State :=
  let p := max 1 (s.rf DISP_CYC_PERIOD 0 19 0)
  let v : W32 := BitVec.ofNat 32 (1000 * (s.rg DISP_CYC_DONE_MAX).toNat / p)
  s.extreme 320 v false (decide ((s.cabWord (recBase + 320)).toNat < v.toNat))

/-- RESET_HELD_ENTRY (R703): after 10 s of hold, and every further 60 s. -/
def execResetHeldEntry (s : State) : Host.Outcome State Fault Refusal :=
  if !s.boot.resetN || s.recd.flush.isSome then .next s
  else if s.boot.heldSec = 0 then
    let q := s.recd.seq + 1
    let e : JEntry := ⟨q, 7, [], [], s.boot.opMinutes, 10, true⟩
    let r := s.recd
    .next { s with boot.heldSec := 10, recd := { r with
      seq := q, chest0 := r.chest0.put e, chest1 := r.chest1.put e } }
  else
    let h := s.boot.heldSec + 60
    let fix (c : Chest) : Chest :=
      if c.failed then c
      else { c with journal := c.journal.map (fun e =>
        if e.seq = s.recd.seq && e.cause = 7 then { e with arg := BitVec.ofNat 32 h } else e) }
    .next { s with boot.heldSec := h, recd.chest0 := fix s.recd.chest0,
                   recd.chest1 := fix s.recd.chest1 }

/-! ## Recovery (R687, R701, R702, R741) -/

/-- A chest without the entries that fail validity. -/
def Chest.valid (c : Chest) (bad : List Nat) : Chest :=
  { c with journal := c.journal.filter (fun e => e.committed && decide (e.seq.toNat ∉ bad)) }

/-- The image of a page with the highest SEQ in either chest, with that SEQ. -/
def bestImage (a b : Chest) (p : Nat) : Option (W32 × List (Nat × Byte)) :=
  let of_ (c : Chest) : Option (W32 × List (Nat × Byte)) :=
    if c.failed then none
    else (c.latest p).bind (fun e => (e.images[e.pages.idxOf p]?).map (fun i => (e.seq, i)))
  match of_ a, of_ b with
  | some x, some y => if x.1.toNat < y.1.toNat then some y else some x
  | some x, none => some x
  | none, y => y

/-- The highest SEQ of the valid entries. -/
def maxSeq (es : List JEntry) : Nat := es.foldl (fun m e => max m e.seq.toNat) 0

/-- The restarts that wait are counted (R687, R741). -/
def State.countCauses (s : State) : State :=
  let s := s.boot.causes.foldl (fun s c =>
    let s := s.recBump (16 + 4 * c)
    if c = 0 then s.recBump 12 else s) s
  { s with boot.causes := [] }

/-- The buffer is rebuilt from the chests (R701). -/
def State.rebuild (s : State) (a b : Chest) : State :=
  let ps := (List.range 64).filterMap (fun p => (bestImage a b p).map (fun x => (p, x)))
  let cab := ps.foldl (fun m x => putPage m x.1 x.2.2) (s.cab.filter (fun c => (recPage c.1).isNone))
  let ord := sortBy (fun (x : Nat × W32 × List (Nat × Byte)) => x.2.1.toNat) ps
  { s with cab := cab, recd.order := ord.map Prod.fst, recd.dirty := [] }

/-- Operating time after a recovery: AON's own count, or at a cold start of AON that of the record. -/
def State.restoreTime (s : State) : State :=
  let s := if 0 ∈ s.boot.causes then
      { s with boot.opMinutes := s.cabWord (recBase + 4), boot.secRem := s.cabByte (recBase + 8),
               boot.minAt := 0 }
    else s
  ((s.setCabWord recBase 0x09128EC0).setCabWord (recBase + 4) s.boot.opMinutes).setCabByte
    (recBase + 8) (BitVec.ofNat 8 s.secNow)

/-- What recovery reports (R699, R701, R702). -/
def State.reportRecovery (s : State) (a b : Chest) (lost : List Nat) (top : Nat) : State :=
  let s := if a.journal = [] && b.journal ≠ [] then s.chestFail 0 3 else s
  let s := if b.journal = [] && a.journal ≠ [] then s.chestFail 1 3 else s
  let held := (a.journal ++ b.journal).filter (fun e => e.cause == 7)
  let s := held.foldl (fun (s : State) e =>
    if e.seq.toNat ∈ s.recd.heldLogged then s
    else { s with recd.heldLogged := s.recd.heldLogged ++ [e.seq.toNat] }.post 0x0A03 .warn 0
      (payOf (leBytes 4 e.arg.toNat))) s
  let s := lost.foldl (fun s _ => s.post 0x0A04 .warn 0) s
  s.post 0x0A02 .info 0 (payOf (leBytes 4 top))

/-- REC_RECOVERY (R701, R702), once no flush of before the reset runs (R737): the SEQs of entries that
fail validity in each chest, and the faults of
their macros. -/
def State.recRecovery (s : State) (bad0 bad1 : List Nat) (fault0 fault1 : Bool) : State :=
  if s.recd.recovered || s.recd.flush.isSome ||
      !(s.boot.st == .checked || s.boot.st == .running || s.boot.st == .recovery) then
    s
  else
    let s := (s.chestCheck 0 0 fault0).chestCheck 1 0 fault1
    let a := s.recd.chest0.valid bad0
    let b := s.recd.chest1.valid bad1
    let es := a.journal ++ b.journal
    let lost := (((s.recd.chest0.journal.filter (fun e => e.cause == 3 && decide (e ∉ a.journal))) ++
      (s.recd.chest1.journal.filter (fun e => e.cause == 3 && decide (e ∉ b.journal)))).map
        (fun e => e.seq.toNat)).eraseDups
    let lost := lost.filter (fun q => es.all (fun e => e.seq.toNat != q))
    let top := maxSeq es
    let s := (s.rebuild a b).restoreTime
    let s := { s with recd.seq := BitVec.ofNat 32 top, recd.recovered := true,
                      recd.chest0 := { s.recd.chest0 with journal := a.journal },
                      recd.chest1 := { s.recd.chest1 with journal := b.journal } }
    (((s.countCauses).reportRecovery a b lost top).askFlush 1 [])

/-- REC_RECOVERY. -/
def execRecRecovery (bad0 bad1 : List Nat) (fault0 fault1 : Bool) (s : State) : Host.Outcome State Fault Refusal :=
  .next (s.recRecovery bad0 bad1 fault0 fault1)

/-! ## Descriptors (R704) -/

/-- REC_FLUSH. -/
def applyRecFlush (_ : Desc) (cmd : Option Cmd) (s : State) : State :=
  s.askFlush 5 (match cmd with
    | some c => [c]
    | none => [])

/-- REC_FLUSH (R704). -/
def execRecFlush (d : Desc) (s : State) : Host.Outcome State Fault Refusal :=
  .next (s.runDesc 0xF6 d applyRecFlush)

/-- REC_READ. -/
def applyRecRead (d : Desc) (cmd : Option Cmd) (s : State) : State :=
  let o := 16 * bitsOf d.aux 13 0
  let p := o / 4096
  match bitsOf d.aux 17 16 with
  | 0 => s.complete cmd 0 (payOf ((List.range 16).map (fun i => (s.cabByte (recBase + o + i)).toNat)))
  | 3 => s.complete cmd 0x0A10
  | k =>
    let c := s.recd.chest (k - 1)
    if c.failed then s.complete cmd 0x0A10
    else
      let img := ((c.latest p).bind (fun e => e.images[e.pages.idxOf p]?)).getD []
      s.complete cmd 0 (payOf ((List.range 16).map (fun i => (tget 0 img (o % 4096 + i)).toNat)))

/-- REC_READ (R704). -/
def execRecRead (d : Desc) (s : State) : Host.Outcome State Fault Refusal :=
  .next (s.runDesc 0xF7 d applyRecRead)

/-! ## Axis records (R683 to R685) -/

/-- A histogram's bin rises. -/
def State.histBump (s : State) (n base bin : Nat) : State :=
  s.recBump (axisRec n + base + 4 * min bin 31)

/-- The bin of a following error in counts. -/
def feBin (e : Nat) : Nat := if e = 0 then 0 else min 31 (1 + Nat.log2 e)

/-- An extreme of an axis. -/
def State.axExtreme (s : State) (n off : Nat) (v : W32) : State :=
  let a := recBase + axisRec n + off
  if (s.cabWord a).toNat < v.toNat then (s.setCabWord a v).setCabWord (a + 4) s.boot.opMinutes else s

/-- The library RECORD stage of a normal run: |ep| in counts, the current or torque, and |v_fb|. -/
def State.recordRun (s : State) (n : Nat) (ep : Nat) (i v : Rat) (rated : Rat) : State :=
  let ib := (8 * (if rated = 0 then Config.divZero i else i / rated)).floor.toNat
  let vb := (32 * v).floor.toNat
  let s := ((s.histBump n 0 (feBin ep)).histBump n 128 ib).histBump n 256 vb
  let s := (s.axExtreme n 384 (BitVec.ofNat 32 (min ep (2 ^ 32 - 1)))).axExtreme n 392
    (BitVec.ofNat 32 (i * 2 ^ 23).floor.toNat)
  (s.axExtreme n 400 (BitVec.ofNat 32 (v * 2 ^ 23).floor.toNat)).recBump (axisRec n + 408)

end Sys2Proof.Machine
end

