-- ==== Sys2Proof/Machine/LawChain.lean ====
section
/-! DEFINITION. The library stages FEEDBACK, OBSERVER, CASCADE, CURRENT and EMIT of an axis's chain
(R193 to R225). Quantities are exact; the drawer and the peepholes hold them in their formats. -/

namespace Sys2Proof.Machine

/-! ## Parts -/

/-- A quotient; by zero the spec states no value. -/
def qdiv (a b : Rat) : Rat := if b = 0 then Config.divZero a else a / b

/-- A value within `±b`. -/
def clampR (b x : Rat) : Rat := max (-b) (min b x)

/-- V_SCALE in counts/s, and CPR in counts (R210). -/
def State.vScale (s : State) (c : Nat) : Rat := (s.dwu48 c 0x081 : Nat)
def State.cpr (s : State) (c : Nat) : Rat := (s.dwu48 c 0x083 : Nat)

/-- OUT_MODE (R209). -/
def State.outMode (s : State) (c : Nat) : Nat := bitsOf (s.drawer c 0x080) 1 0

/-- A bit of LAW_CTL (R210). -/
def State.lawBit (s : State) (c k : Nat) : Bool := bitOf (s.drawer c 0x080) k

/-- An axis's laws, and the state with them set. -/
def State.law (s : State) (c : Nat) : Law := (s.ax c).law
def State.setLaw (s : State) (c : Nat) (l : Law) : State := s.setAx c { s.ax c with law := l }

/-- Peepholes of an axis set (R240). -/
def State.setPh (s : State) (c : Nat) (vs : List (Nat × W24)) : State :=
  let x := s.ax c
  s.setAx c { x with ph := vs.foldl (fun m v => tset 0 m v.1 v.2) x.ph }

/-- A count as an integer peephole, saturated (R240, PH0). -/
def cnt24 (r : Rat) : W24 := BitVec.ofInt 24 (max (-(2 ^ 23)) (min (2 ^ 23 - 1) r.floor))

/-- A fraction of a turn as an unsigned 24-bit fraction, rounded down. -/
def turn24 (r : Rat) : W24 := BitVec.ofInt 24 (r * 2 ^ 24).floor

/-- An integrator's new value (R205): it stands while the output is at its limit and the error drives
further into it. -/
def integrate (i add lim out raw err : Rat) : Rat :=
  if out ≠ raw ∧ sgn err = sgn raw then i else clampR lim (i + add)

/-! ## FEEDBACK (R208, R228) -/

/-- One run of FEEDBACK: the measured position and speed, and for Compact and Standard the filtered
speed. -/
def State.lawFeedback (s : State) (c : Nat) : State :=
  let s := s.extendPos c
  let x := s.ax c
  let l := x.law
  let p := x.meas
  let w := qdiv (p - l.pMeas) (s.ts c * s.vScale c)
  let bw := s.dwn c 0x095
  let vf := if bw = 0 then w else w + expNeg (bw * s.ts c) * (l.vf - w)
  let l := { l with pPrev := l.pMeas, pMeas := p, wPrev := l.vMeas, vMeas := w, vf := vf }
  let l := if s.prof c = 2 && x.enabled then l else { l with pFb := p, vFb := vf }
  -- the torque that the node reports (R228, R391)
  let l := if s.prof c = 2 then l else { l with iqApplied := absR (s.dwq c 0x3E4) }
  s.setAx c { x with law := l, faults := 0, ran := false }

/-! ## OBSERVER (R224, R225) -/

/-- The gains l1, l2 and l3: the poles of the estimation error lie at `1 - q` (R224). -/
def obsGains (q ts v j : Rat) : Rat × Rat × Rat :=
  let a := v * ts
  let b := -(qdiv (v * ts * ts) (2 * j))
  let g := -(qdiv ts j)
  let k3 := qdiv (q * q * q) (a * g)
  let k2 := qdiv (3 * q * q - b * k3) a
  let l2 := k2 - g * k3
  (3 * q - a * l2 - b * k3, l2, k3)

/-- One run of OBSERVER. -/
def State.lawObserver (s : State) (c : Nat) : State :=
  let x := s.ax c
  if !x.enabled then s else
  let l := x.law
  let ts := s.ts c
  let v := s.vScale c
  let j := s.dwsg c 0x092
  let age (n : Nat) : Rat := if s.lawBit c 7 then (n : Rat) / 1000000000 else 0
  let q := 1 - expNeg (s.dwn c 0x09A * ts)
  let (l1, l2, l3) := obsGains q ts v j
  let y := l.pMeas + l.wHat * v * age (s.dwn c 0x3F0)
  let e := y - l.pHat
  let p := l.pHat + l1 * e
  let w := l.wHat + l2 * e
  let d := l.dHat + l3 * e
  let a := qdiv (l.tql - d) j
  let t := age (s.dwn c 0x3F1 + s.dwn c 0x0AF)
  s.setLaw c { l with
    pFb := p + v * (w * t + a * t * t / 2), vFb := w + a * t,
    pHat := p + v * (w * ts + a * ts * ts / 2), wHat := w + a * ts, dHat := d }

/-! ## Notch filters (R219 to R222) -/

/-- A notch coefficient word, Q2.22. -/
def State.dwq22 (s : State) (c w : Nat) : Rat := (s.dws c w : Rat) / 2 ^ 22

/-- F lies beyond 0.45 R at the axis's present rate (R221). -/
def State.beyond (s : State) (c f : Nat) : Bool := decide (9 / 20 < (f : Rat) * s.ts c)

/-- A notch with EN = 1 beyond its range. -/
def State.notchOut (s : State) (c n : Nat) : Bool :=
  bitOf (s.drawer c (notchBase n)) 0 && s.beyond c (s.dwn c (notchBase n + 1))

/-- The torque demand through one notch, with its coefficient words as they stand (R201, R220); a
notch that is off or out of range passes its input and keeps a zero state (R221). -/
def State.notch (s : State) (c n : Nat) (x : Rat) : State × Rat :=
  let b := notchBase n
  let put (s : State) (v : Nat → W24) : State :=
    (List.range 4).foldl (fun s k => s.setDrawer c (b + 9 + k) (v k)) s
  if !bitOf (s.drawer c b) 0 || s.notchOut c n then (put s (fun _ => 0), x)
  else
    let x1 := s.dwq c (b + 9)
    let y1 := s.dwq c (b + 11)
    let y := s.dwq22 c (b + 4) * x + s.dwq22 c (b + 5) * x1 + s.dwq22 c (b + 6) * s.dwq c (b + 10) -
      s.dwq22 c (b + 7) * y1 - s.dwq22 c (b + 8) * s.dwq c (b + 12)
    (put s (fun k => if k = 0 then q23 x else if k = 1 then q23 x1 else if k = 2 then q23 y else q23 y1),
      y)

/-- The chain of notches. -/
def State.notchChain (s : State) (c : Nat) (x : Rat) : State × Rat :=
  (notchesOf (s.prof c)).foldl (fun p n => p.1.notch c n p.2) (s, x)

/-- SUPERVISE computes the coefficients of a notch with COEF_SRC = 0 (R201, R219). -/
def State.notchCoefs (s : State) (c n : Nat) : State :=
  let b := notchBase n
  let f := s.dwn c (b + 1)
  if bitOf (s.drawer c b) 1 || s.beyond c f then s
  else
    let k := tanHalf (f * s.ts c)
    let zp := qdiv (s.dwn c (b + 2)) (2 * f)
    let zz := s.dwq c (b + 3) * zp
    let a := 1 + 2 * zp * k + k * k
    let m := 2 * (k * k - 1) / a
    let vs := [(1 + 2 * zz * k + k * k) / a, m, (1 - 2 * zz * k + k * k) / a, m,
      (1 - 2 * zp * k + k * k) / a]
    (vs.zipIdx).foldl (fun s v => s.setDrawer c (b + 4 + v.2) (q23 (v.1 / 2))) s

/-! ## CASCADE (R203 to R209) -/

/-- kp and ki at a speed (R206). -/
def State.sched (s : State) (c : Nat) (v : Rat) : Rat × Rat :=
  let lo := (s.dwsg c 0x08A, s.dwsg c 0x08B)
  if !s.lawBit c 3 then lo
  else
    let g := max 0 (min 1 (qdiv (absR v - s.dwq c 0x08E) (s.dwq c 0x08F - s.dwq c 0x08E)))
    (lo.1 + (s.dwsg c 0x08C - lo.1) * g, lo.2 + (s.dwsg c 0x08D - lo.2) * g)

/-- The oscillation policy's gain factor (R231, R232): after a detection it rises to 1 over as many
runs as OSC_N gave when the detection ended. -/
def Osc.factor (o : Osc) : Rat :=
  if o.rise = 0 then o.cut else 1 - (1 - o.cut) * (o.rise : Rat) / (max 1 o.span : Nat)

/-- One run less of the rise. -/
def Osc.step (o : Osc) : Osc :=
  if o.rise = 0 then o
  else if o.rise = 1 then { o with rise := 0, cut := 1 }
  else { o with rise := o.rise - 1 }

/-- The torque limit (R390). -/
def State.tlim (s : State) (c : Nat) : Rat :=
  if (s.ax c).pushing then min (s.dwq c 0x091) (s.dwq c 0x30D) else s.dwq c 0x091

/-- Torque feed-forward (R207). -/
def State.tff (s : State) (c : Nat) (v a : Rat) : Rat :=
  if s.lawBit c 2 && s.prof c ≠ 0 then
    s.dwsg c 0x092 * a + s.dwq c 0x093 * v + s.dwq c 0x094 * sgn v
  else 0

/-- The peepholes of CASCADE (R240). -/
def State.cascadePh (s : State) (c : Nat) (v a : Rat) : State :=
  let l := s.law c
  let all : List (Nat × W24) :=
    [(0, cnt24 l.ep), (1, BitVec.ofInt 24 l.pFb.floor), (2, q23 v), (3, q23 l.vFb), (4, q23 l.ev),
     (5, q23 l.vout), (6, q23 l.iv), (7, q23 l.tqRaw), (8, q23 l.tql), (30, s.drawer c 0x3F1)]
  let std : List (Nat × W24) := if s.prof c = 0 then [] else [(9, q23 l.tff), (10, q23 a)]
  let full : List (Nat × W24) := if s.prof c = 2 then [(11, q23 l.dHat)] else []
  s.setPh c (all ++ std ++ full)

/-- The loops of one run of an enabled axis that follow the commanded state `k`. -/
def State.loops (s : State) (c : Nat) (k : Kin) : State :=
  let x := s.ax c
  let l := x.law
  let vs := s.vScale c
  let ts := s.ts c
  let v := qdiv k.v vs
  let a := qdiv k.a vs
  let hold := x.sbt.isSome
  let ep := k.p - l.pFb
  let ff := s.lawBit c 2 && s.prof c ≠ 0
  let vref := qdiv (s.dwsg c 0x085 * ep + (if ff then s.dwq c 0x088 * k.v else 0)) vs + l.ip
  let vout := clampR (s.dwq c 0x089) vref
  let ip := if hold then l.ip
    else integrate l.ip (qdiv (s.dwsg c 0x086 * ts * ep) vs) (s.dwq c 0x087) vout vref ep
  let osc := l.osc.step
  if s.outMode c = 0 then
    (s.setLaw c { l with ep := ep, vout := vout, ip := ip, tqPrev := l.tql, osc := osc }).cascadePh c v a
  else
    let ev := vout - l.vFb
    let g := s.sched c l.vFb
    let cut := l.osc.factor
    let tff := s.tff c v a
    let raw := g.1 * cut * ev + l.iv + tff
    let (s, tq) := s.notchChain c raw
    let lim := clampR (s.tlim c) tq
    let iv := if hold then l.iv
      else integrate l.iv (g.2 * cut * ts * ev) (s.dwq c 0x090) lim tq ev
    let tql := x.sbt.getD lim
    (s.setLaw c { l with
      ep := ep, vout := vout, ip := ip, ev := ev, tff := tff, tqRaw := raw, iv := iv,
      tqPrev := l.tql, tql := tql, osc := osc }).cascadePh c v a

/-- The run writes PRF_MODE (R326). -/
def State.writeMode (s : State) (c : Nat) : State :=
  s.setDrawer c 0x210 (BitVec.ofNat 24 (s.ax c).mode.code)

/-- The loops have run (R238). -/
def State.markRan (s : State) (c : Nat) : State := s.setAx c { s.ax c with ran := true }

/-- One run of CASCADE: the profile generator (R324), the owner's compare slots, the loops, and the
master values that the run produces (R344). A disabled axis has no torque. -/
def State.lawCascade (s : State) (c : Nat) : State :=
  if !(s.ax c).enabled then
    let l := s.law c
    ((s.setLaw c { l with tqPrev := l.tql, tql := 0 }).cascadePh c 0 0).writeMode c
  else
    let (s, k) := s.genRun c
    let s := s.evalSlots c
    let s := ((s.loops c k).markRan c).writeMode c
    if !(s.ax c).enabled then s
    else
      let l := s.law c
      let s := s.produce 1 c l.pFb (l.vFb * s.vScale c) s.sampleT
      s.produce 2 c k.p k.v (s.genInstant c)

/-! ## CURRENT (R211 to R218) -/

/-- The law posts a fault of R233: the event, its bit of PH31, and the fault record that its stage
places on its completion flow (R195, R632). -/
def State.lawFault (s : State) (c i bit : Nat) (code : BitVec 16) (sev : Sev) (pay : Payload := 0) :
    State :=
  let s := s.post code sev c pay
  let x := s.ax c
  let s := s.setAx c { x with faults := x.faults ||| BitVec.ofNat 12 (2 ^ bit) }
  let w := s.stw c i
  match s.stage? c i with
  | some t =>
    if stwFlowEn w && decide (16 ≤ stwFlow w) && decide (t.placed < stwItems w) then
      let bs := beBytes 2 code.toNat ++ leBytes 16 pay.toNat
      s.putItem c i (bs.map (BitVec.ofNat 8))
    else s
  | none => s

/-- A count of consecutive runs. -/
def runsOf (held : Bool) (n : Nat) : Nat := if held then min 1000 (n + 1) else 0

/-- The bus voltage (R216). -/
def State.vdc (s : State) (c : Nat) : Rat :=
  if (s.nearOf c).isSome then s.dwq c 0x0B0 else s.dwq c 0x3ED

/-- The electrical angle in turns at the sample instant, a 24-bit fraction (R211). -/
def State.theta (s : State) (c : Nat) : W24 :=
  let p : Rat := (s.ax c).pos
  let n := s.cpr c
  let m := p - n * (qdiv p n).floor
  turn24 (qdiv (s.dwn c 0x0A0 * m) n) + s.drawer c 0x0A1

/-- Sine and cosine of an electrical angle from the constant area: within 2^-20 (R211). -/
def elSin (t : Rat) : Rat := sinT t + clampR (1 / 2 ^ 20) (Config.sineErr t)
def elCos (t : Rat) : Rat := cosT t + clampR (1 / 2 ^ 20) (Config.cosineErr t)

/-- A vector rotated by an electrical angle in turns. -/
def rotate (x y t : Rat) : Rat × Rat :=
  let cs := elCos t
  let sn := elSin t
  (x * cs - y * sn, x * sn + y * cs)

/-- The three duties and the sector of a voltage vector (R215). -/
def modulate (al be vdc : Rat) : List Rat × Nat :=
  let r := root 3 * be / 2
  let va := al
  let vb := -(al / 2) + r
  let vc := -(al / 2) - r
  let vo := -(max va (max vb vc) + min va (min vb vc)) / 2
  let a := angle al be
  ([va, vb, vc].map (fun v => 1 / 2 + qdiv (v + vo) vdc), 1 + (6 * (a - a.floor)).floor.toNat % 6)

/-- The current loop's counts against their limits (R217, R218): voltage saturation, overcurrent and
current sum, and a near axis whose PWM module is in FAULT (R311 and the text after R314). -/
def State.currentTrips (s : State) (c i vsn oc cs : Nat) : State :=
  let l := s.law c
  let told := decide (s.dwn c 0x0B1 ≤ vsn)
  let s := s.setLaw c { l with vsTold := vsn ≠ 0 && (l.vsTold || told) }
  let s := if told && vsn ≠ 0 && !l.vsTold then s.lawFault c i 7 0x0308 .warn else s
  let o := decide (oc ≠ 0) && decide (s.dwn c 0x0AB ≤ oc)
  let z := decide (cs ≠ 0) && decide (s.dwn c 0x0AD ≤ cs)
  let s := if o then s.lawFault c i 9 0x030A .stop else s
  let s := if z then s.lawFault c i 10 0x030B .stop else s
  let p := match s.nearOf c with
    | some n => (s.pwm n).st == .fault
    | none => false
  if o || z || p then s.torqueOff c else s

/-- One run of CURRENT, of stage `i`. -/
def State.lawCurrent (s : State) (c i : Nat) : State :=
  let x := s.ax c
  let l := x.law
  let ts := s.ts c
  let th := s.theta c
  let tr : Rat := (th.toNat : Rat) / 2 ^ 24
  let ia := s.dwq c 0x3EA
  let ib := s.dwq c 0x3EB
  let ic := s.dwq c 0x3EC
  let i0 := (ia + ib + ic) / 3
  let ial := ia - i0
  let ibe := qdiv (ib - ic) (root 3)
  let (id, iq) := rotate ial ibe (-tr)
  -- the electrical speed in turns/s and in rad/s
  let we := qdiv (s.dwn c 0x0A0 * l.vFb * s.vScale c) (s.cpr c)
  let wr := 2 * piVal * we
  let kp := s.dwsg c 0x0A2
  let ki := s.dwsg c 0x0A3
  let dec : Rat := if s.lawBit c 4 then 1 else 0
  let idr := s.dwq c 0x0A8
  let iqr := clampR (s.dwq c 0x0A9) l.tql
  let vdRaw := kp * (idr - id) + l.xd - dec * wr * s.dwsg c 0x0A5 * iq
  let vqRaw := kp * (iqr - iq) + l.xq + dec * (wr * s.dwsg c 0x0A4 * id + s.dwq c 0x0A6 * l.vFb)
  let vdc := s.vdc c
  let vmax := s.dwq c 0x0A7 * vdc / root 3
  let vd := clampR vmax vdRaw
  let vqm := root (vmax * vmax - vd * vd)
  let vq := clampR vqm vqRaw
  let xd := integrate l.xd (ki * ts * (idr - id)) vmax vd vdRaw (idr - id)
  let xq := integrate l.xq (ki * ts * (iqr - iq)) vqm vq vqRaw (iqr - iq)
  let adv := (s.dwn c 0x0AE : Rat) / 2 ^ 24
  let tha := tr + clampR adv (we * ((s.dwn c 0x3F1 + s.dwn c 0x0AF : Nat) : Rat) / 1000000000)
  let (al, be) := rotate vd vq tha
  let (ds, sec) := modulate al be vdc
  let mag := root (id * id + iq * iq)
  let oc := runsOf (decide (s.dwq c 0x0AA < mag)) l.ocN
  let cs := runsOf (decide (s.dwq c 0x0AC < absR i0)) l.csN
  let vsn := runsOf (decide (vq ≠ vqRaw)) l.vsN
  let s := [ial, ibe, elCos tr, elSin tr, id, iq].zipIdx.foldl
    (fun s v => s.setDrawer c (0x040 + v.2) (q23 v.1)) s
  let on := x.enabled
  let s := s.setLaw c { l with
    xd := if on then xd else 0, xq := if on then xq else 0, vdc := vdc, ocN := oc, csN := cs, vsN := vsn,
    iqApplied := absR iq, idAct := id, iqAct := iq, duty := ds.map q23, sector := sec }
  let ph : List (Nat × W24) :=
    [(12, s.drawer c 0x3EA), (13, s.drawer c 0x3EB), (14, s.drawer c 0x3EC), (15, q23 id), (16, q23 iq),
     (17, q23 idr), (18, q23 iqr), (19, q23 vd), (20, q23 vq), (21, th), (22, BitVec.ofNat 24 sec),
     (26, q23 vdc)] ++ (ds.zipIdx).map (fun d => (23 + d.2, q23 d.1))
  let s := s.setPh c ph
  if !on then s
  else
    s.currentTrips c i vsn oc cs

/-! ## EMIT (R195, R209, R237, R429, R435) -/

/-- The octets of a 24-bit word, most significant first. -/
def w24Bytes (w : W24) : List Nat := beBytes 3 w.toNat

/-- The item of a far axis's DOWN cell. -/
def State.downItem (s : State) (c : Nat) : List Nat :=
  let x := s.ax c
  let l := x.law
  let off := x.od || !x.enabled
  let om := s.outMode c
  let body : List Nat :=
    if off then List.replicate 24 0
    else if s.prof c = 2 then (l.duty.flatMap w24Bytes) ++ [l.sector]
    else w24Bytes (q23 (if om = 0 then l.vout else l.tql)) ++ [if om = 0 then 0 else 1]
  let body := (body ++ List.replicate 24 0).take 24
  [0xA1, 0, b2n off * 8, if s.prof c = 2 then 1 else 0] ++ body ++ beBytes 2 (s.dwn c 0x099)

/-- One run of EMIT, of stage `i`. -/
def State.lawEmit (s : State) (c i : Nat) : State :=
  match s.nearOf c with
  | some _ => match s.stage? c i with
    | some t => s.setStage c i { t with duty := some (s.law c).duty }
    | none => s
  | none =>
    if stwFlowEn (s.stw c i) then
      (s.putItem c i ((s.downItem c).map (BitVec.ofNat 8))).farSets c i
    else s

end Sys2Proof.Machine
end

