-- ==== Sys2Proof/Machine/Supervise.lean ====
section
/-! DEFINITION. The library stages SUPERVISE and RECORD: the faults of the laws, the plausibility
model, the oscillation detector, and the course of a quick stop (R226 to R238, R683). -/

namespace Sys2Proof.Machine

/-- What a part of SUPERVISE asks for. -/
structure Asks where
  stop : Bool := false
  off : Bool := false
  deriving DecidableEq, Repr

/-! ## Following error, speed and plausibility (R226 to R229) -/

/-- FOLLOW_ERR and OVERSPEED (R226). A streak that goes on posts FOLLOW_ERR once (DESIGN CHOICE, log 163). -/
def State.checkLoops (s : State) (c i : Nat) (a : Asks) : State × Asks :=
  let l := s.law c
  let n := runsOf (decide ((s.dwn c 0x096 : Rat) < absR l.ep)) l.feN
  let due := decide (n ≠ 0) && decide (s.dwn c 0x097 ≤ n)
  let fe := due && !l.feTold
  let s := s.setLaw c { l with feN := n, feTold := due || (l.feTold && n ≠ 0) }
  let ov := decide (s.dwq c 0x098 < absR l.vFb)
  let s := if fe then s.lawFault c i 0 0x0301 .severe else s
  let s := if ov then s.lawFault c i 1 0x0302 .severe else s
  (s, { a with stop := a.stop || fe || ov })

/-- The torque that the previous run's output applied (R228). -/
def State.tqApp (s : State) (c : Nat) : Rat :=
  if s.outMode c = 0 then s.dwq c 0x3E4 else (s.law c).tqPrev

/-- PLAUSIBILITY (R228, R229), once in a streak (DESIGN CHOICE, log 163). -/
def State.checkPlausible (s : State) (c i : Nat) (a : Asks) : State × Asks :=
  let l := s.law c
  let w := l.wPrev
  let wp := w + qdiv (s.ts c) (s.dwsg c 0x092) *
    (s.tqApp c - s.dwq c 0x093 * w - s.dwq c 0x094 * sgn w)
  let res := absR (l.vMeas - wp)
  let n := runsOf (decide (s.dwq c 0x180 < res)) l.plN
  let due := decide (n ≠ 0) && decide (s.dwn c 0x181 ≤ n)
  let s := (s.setLaw c { l with plN := n, plTold := due || (l.plTold && n ≠ 0) }).setPh c [(27, q23 res)]
  if due && !l.plTold then
    let stop := s.lawBit c 6
    (s.lawFault c i 2 0x0303 (if stop then .severe else .warn), { a with stop := a.stop || stop })
  else (s, a)

/-! ## The oscillation detector (R230 to R232) -/

/-- The source sample (SRC of OSC_CTL). -/
def State.oscSample (s : State) (c : Nat) : Rat :=
  let l := s.law c
  match bitsOf (s.drawer c 0x182) 1 0 with
  | 0 => l.tql
  | 1 => l.ev
  | 2 => l.iqAct
  | _ => 0

/-- The enabled bands within their range. -/
def State.oscBands (s : State) (c : Nat) : List Nat :=
  (List.range 8).filter (fun k =>
    bitOf (s.drawer c 0x182) (8 + k) && !s.beyond c (s.dwn c (0x188 + k)))

/-- `2 cos (2 π F / R)` of a band. -/
def State.bandCoef (s : State) (c k : Nat) : Rat := 2 * cosT (s.dwn c (0x188 + k) * s.ts c)

/-- One sample of every enabled band. -/
def State.oscRun (s : State) (c : Nat) (o : Osc) : Osc :=
  let x := s.oscSample c
  let o := { o with n := o.n + 1 }
  (s.oscBands c).foldl (fun (o : Osc) k =>
    let a := tget 0 o.s1 k
    { o with s1 := tset 0 o.s1 k (x + s.bandCoef c k * a - tget 0 o.s2 k), s2 := tset 0 o.s2 k a }) o

/-- The amplitudes at a block end. -/
def State.oscAmps (s : State) (c : Nat) (o : Osc) : Table Rat :=
  let n : Rat := (max 1 (s.dwn c 0x183) : Nat)
  (s.oscBands c).foldl (fun m k =>
    let a := tget 0 o.s1 k
    let b := tget 0 o.s2 k
    tset 0 m k (2 * root (a * a + b * b - s.bandCoef c k * a * b) / n)) []

/-- The strongest of the bands over threshold. -/
def strongest (amp : Table Rat) : List Nat → Option Nat
  | [] => none
  | k :: ks => some (ks.foldl (fun b j => if tget 0 amp b < tget 0 amp j then j else b) k)

/-- The first enabled step (0 NOTCH, 1 GAIN, 2 STOP) that has not been taken (R231, item 3). -/
def State.nextStep (s : State) (c : Nat) (o : Osc) : Option Nat :=
  let last := (List.range 3).foldl (fun m k => if o.taken.getLsbD k then k + 1 else m) 0
  (List.range 3).find? (fun k => decide (last ≤ k) && bitOf (s.drawer c 0x182) (5 + k))

/-- A step is taken: GAIN cuts the gains, STOP asks for the stop reaction. -/
def State.takeStep (s : State) (c i : Nat) (o : Osc) (a : Asks) : State × Osc × Asks :=
  match s.nextStep c o with
  | none => (s, o, a)
  | some k =>
    let o := { o with taken := o.taken ||| BitVec.ofNat 3 (2 ^ k), blocks := 0 }
    if k = 1 then
      (s.lawFault c i 4 0x0305 .warn, { o with cut := s.dwq c 0x187, rise := 0 }, a)
    else if k = 2 then (s.lawFault c i 5 0x0306 .severe, o, { a with stop := true })
    else (s, o, a)

/-- N3 moves toward its target (R231, item 2). -/
def State.moveN3 (s : State) (c : Nat) (o : Osc) : State :=
  if !o.taken.getLsbD 0 || !bitOf (s.drawer c 0x130) 0 || o.target = 0 then s
  else
    let f := s.dwn c 0x131
    let d := s.dwn c 0x142
    let g := if f ≤ o.target then min o.target (f + d) else max o.target (f - d)
    s.setDrawer c 0x131 (BitVec.ofNat 24 (max (s.dwn c 0x140) (min (s.dwn c 0x141) g)))

/-- A block's end while no step has been taken: enough blocks over their limit begin the first. -/
def State.oscWatch (s : State) (c i : Nat) (o : Osc) (hit : Bool) (a : Asks) : State × Osc × Asks :=
  let n := if hit then o.overs + 1 else 0
  if hit && decide (s.dwn c 0x184 ≤ n) then
    let s := if bitOf (s.drawer c 0x182) 4 then s.lawFault c i 3 0x0304 .info else s
    let r := s.takeStep c i { o with active := true, overs := 0, quiet := 0, taken := 0 } a
    (r.1.moveN3 c r.2.1, r.2)
  else (s, { o with overs := n }, a)

/-- A block's end while steps are in force: the next step, or the return to quiet. -/
def State.oscAct (s : State) (c i : Nat) (o : Osc) (hit : Bool) (a : Asks) : State × Osc × Asks :=
  let o := { o with blocks := o.blocks + 1, quiet := if hit then 0 else o.quiet + 1 }
  let r := if hit && decide (s.dwn c 0x185 ≤ o.blocks) then s.takeStep c i o a else (s, o, a)
  let o := r.2.1
  let s := r.1.moveN3 c o
  if !hit && decide (s.dwn c 0x186 ≤ o.quiet) then
    (s, { o with active := false, overs := 0, quiet := 0, taken := 0, blocks := 0, target := 0,
                 rise := if o.cut = 1 then 0 else max 1 (s.dwn c 0x183),
                 span := max 1 (s.dwn c 0x183) }, r.2.2)
  else (s, o, r.2.2)

/-- The end of a block of OSC_N runs. -/
def State.oscBlock (s : State) (c i : Nat) (o : Osc) (a : Asks) : State × Osc × Asks :=
  let amp := s.oscAmps c o
  let overs := (s.oscBands c).filter (fun k => decide (s.dwq c (0x190 + k) < tget 0 amp k))
  let hit := overs ≠ []
  let o := { o with s1 := [], s2 := [], n := 0 }
  let o := match strongest amp overs with
    | some k => { o with target := s.dwn c (0x188 + k) }
    | none => o
  let top := (s.oscBands c).foldl (fun m k => max m (tget 0 amp k)) 0
  let s := s.setPh c [(28, q23 top)]
  if !o.active then s.oscWatch c i o (decide hit) a else s.oscAct c i o (decide hit) a

/-- The detector in one run. -/
def State.oscillation (s : State) (c i : Nat) (a : Asks) : State × Asks :=
  let o := s.oscRun c (s.law c).osc
  if o.n < s.dwn c 0x183 then (s.setLaw c { s.law c with osc := o }, a)
  else
    let (s, o, a) := s.oscBlock c i o a
    (s.setLaw c { s.law c with osc := o }, a)

/-! ## Notches, flags and the quick stop -/

/-- NOTCH_RANGE (R221), once as a notch or a band leaves its range. -/
def State.checkRange (s : State) (c i : Nat) : State :=
  let ns := (notchesOf (s.prof c)).map (fun n => (n, s.notchOut c n))
  let bs := if s.prof c = 2 then (List.range 8).map (fun k =>
    (4 + k, bitOf (s.drawer c 0x182) (8 + k) && s.beyond c (s.dwn c (0x188 + k)))) else []
  (ns ++ bs).foldl (fun (s : State) p =>
    let l := s.law c
    let m := BitVec.ofNat 12 (2 ^ p.1)
    if !p.2 then s.setLaw c { l with nRange := l.nRange &&& ~~~ m }
    else if l.nRange.getLsbD p.1 then s
    else (s.setLaw c { l with nRange := l.nRange ||| m }).lawFault c i 6 0x0307 .warn) s

/-- ENGINE_FLAGS (R227). -/
def State.checkFlags (s : State) (c i : Nat) : State :=
  let f := s.dwn c 0x3F2
  if f = 0 then s else s.lawFault c i 8 0x0309 .warn (payOf [f])

/-- The speed is below V_STANDSTILL. -/
def State.standstill (s : State) (c : Nat) : Bool := decide (absR (s.law c).vFb < s.dwq c 0x09C)

/-- A quick stop not at its step 2 within QSTOP_TMAX (R236). -/
def State.stopLate (s : State) (c i : Nat) (since : W64) (a : Asks) : State × Asks :=
  if s.dwn c 0x09B * 1000000 < (s.bt - since).toNat then
    (s.lawFault c i 11 0x030C .stop, { a with off := true })
  else (s, a)

/-- The course of a quick stop in one run (R235, R236): step 2 follows step 1, so that the speed counts from
the end of the deceleration on. -/
def State.stopStep (s : State) (c i : Nat) (a : Asks) : State × Asks :=
  let x := s.ax c
  match x.stop with
  | .decel b =>
    let s := if s.standstill c && x.plan.isNone then s.setAx c { x with stop := .still s.bt b } else s
    s.stopLate c i b a
  | .still t b =>
    if !s.standstill c then (s.setAx c { x with stop := .decel b }).stopLate c i b a
    else if 5000000 ≤ (s.bt - t).toNat then
      (s.setAx c { x with stop := .brake s.bt, engage := true }, a)
    else s.stopLate c i b a
  | .brake t =>
    if s.dwn c 0x09D * 1000000 ≤ (s.bt - t).toNat then (s.axisOff c, a) else (s, a)
  | _ => (s, a)

/-! ## SUPERVISE and RECORD -/

/-- One run of SUPERVISE, of stage `i`: every fault is posted, and the strongest reaction taken
(R238). -/
def State.lawSupervise (s : State) (c i : Nat) : State :=
  let full := s.prof c = 2
  let s := (notchesOf (s.prof c)).foldl (fun s n => s.notchCoefs c n) s
  let a : Asks := {}
  let (s, a) := if !(s.ax c).enabled && !(s.ax c).ran then (s, a) else
    let (s, a) := s.checkLoops c i a
    let (s, a) := s.checkPlausible c i a
    let (s, a) := if full then s.oscillation c i a else (s, a)
    s.stopStep c i a
  let s := (s.checkRange c i).checkFlags c i
  let s := s.setPh c ((if full then [(29, s.drawer c 0x131)] else []) ++
    [(31, (s.ax c).faults.setWidth 24)])
  let s := s.setAx c { s.ax c with faults := 0, ran := false }
  let s := if a.stop then s.stopReact c else s
  if a.off then s.torqueOff c else s

/-- One run of RECORD (R683 to R685): a cancel run is counted, a normal one enters the histograms. -/
def State.lawRecord (s : State) (c : Nat) (cancel : Bool) : State :=
  if cancel then s.recBump (axisRec c + 412)
  else
    let l := s.law c
    let i := if s.prof c = 2 then root (l.idAct * l.idAct + l.iqAct * l.iqAct)
      else absR (s.tqApp c)
    s.recordRun c (absR l.ep).floor.toNat i (absR l.vFb) (s.dwq c 0x0B2)

end Sys2Proof.Machine
end

