-- ==== Sys2Proof/Machine/StageEnd.lean ====
section
/-! DEFINITION. STAGE_DISPATCH and STAGE_COMPLETE: the end of a stage on its engine (R69, R70, R89, R138 to R141, R150,
R159), with what a stage of the vendor library has done (R195). -/

namespace Sys2Proof.Machine

/-- The library stages of an axis's chain (R195). -/
inductive Role where
  | feedback | observer | cascade | current | emit | supervise | record
  deriving DecidableEq, Repr

/-- The library stages of a profile in stage order (R195). -/
def rolesOf (prof : Nat) : List Role :=
  if prof = 2 then [.feedback, .observer, .cascade, .current, .emit, .supervise, .record]
  else if prof ≤ 1 then [.feedback, .cascade, .emit, .supervise, .record]
  else []

/-- The stage begins in the vendor half of the IM (R195): an axis, group or acquisition context's stage
is then a stage of the library. -/
def State.libStage (s : State) (c i : Nat) : Bool :=
  let p := s.prof c
  (stwEntry (s.stw c i)).toNat < 0x1000 &&
    ((p ≤ 2 && decide (1 ≤ c) && decide (c ≤ 128)) || p == 4 || p == 5)

/-- A library stage has written the library's state words of its axis's drawer (R196). -/
def State.newLibState (s : State) (c : Nat) : State :=
  let (e, s) := s.draw
  s.setAx c { s.ax c with libDraw := some e, libOwn := [] }

/-- What a library stage does (R195, R354, R653). -/
def State.library (s : State) (c i : Nat) (cancel : Bool) : State :=
  match s.prof c with
  | 4 => if i = 0 then s.groupRun (c - 129) else s
  | 5 => if i = 0 then s.acqStage (c - 161) else s
  | p =>
    let s := s.newLibState c
    match (rolesOf p)[i]? with
    | some .feedback => s.lawFeedback c
    | some .observer => s.lawObserver c
    | some .cascade => s.lawCascade c
    | some .current => s.lawCurrent c i
    | some .emit => s.lawEmit c i
    | some .supervise => s.lawSupervise c i
    | some .record => s.lawRecord c cancel
    | none => s

/-- The engine flags of the stage: the drawer's flags word and the engine's counters (R141, R157). -/
def State.endFlags (s : State) (e c : Nat) : State :=
  let sw := (s.eng e).sw
  let f := s.drawer c 0x3FF
  let s := s.setDrawer c 0x3FF (f ||| ((sw >>> 7) &&& 0xF))
  let s := if bitOf sw 7 then s.bump LE_SAT e else s
  let s := if bitOf sw 8 then s.bump LE_MODV e else s
  if bitOf sw 9 then s.bump LE_ACCV e else s

/-- A fatal end in the counters and the log (R150, R159). -/
def State.fatalLog (s : State) (e c i : Nat) : State :=
  let x := s.eng e
  let lo : W32 := BitVec.ofNat 32 (x.ecause.toNat * 2 ^ 16 + x.epc.toNat)
  let hi : W32 := BitVec.ofNat 32 (2 ^ 31 + e * 2 ^ 16 + i * 2 ^ 8 + c)
  ((s.bump LE_FATAL e).setRg LE_EXC_LOG_LO 0 lo).setRg LE_EXC_LOG_HI 0 hi

/-- The duty set of the stage lands (R40, R140); a fatal end discards it. -/
def State.landStage (s : State) (c i : Nat) (fatal : Bool) : State :=
  match s.stage? c i with
  | none => s
  | some x =>
    match x.duty, s.nearOf c with
    | some ws, some m =>
      if fatal then s.setStage c i { x with duty := none }
      else (s.setStage c i { x with duty := none, dutyDone := true }).landDuty m ws
    | _, _ => s

/-- The library's state words that the ended run's program has written stay the program's (R106, R196). -/
def State.keepOwn (s : State) (r : EngRun) : State :=
  if r.libOwn ≠ (s.ax r.ctx).libOwn && r.lib == s.libDraw r.ctx then
    s.setAx r.ctx { s.ax r.ctx with libOwn := r.libOwn }
  else s

/-- The engine is idle again, and its busy time is counted (R82, R138). -/
def State.freeEngine (s : State) (e : Nat) (r : EngRun) : State :=
  let t := if r.startAt ≤ s.bt then (s.bt - r.startAt).toNat else 0
  let x := s.eng e
  let y := s.ctx r.ctx
  let s := s.keepOwn r
  (s.setEng e { x with run := none, fin := none, busy := x.busy + t }).setCtx r.ctx
    { y with busy := y.busy + t }

/-- A stage completes on its engine. -/
def State.stageDone (s : State) (e : Nat) (r : EngRun) (fin : EngEnd) : State :=
  let c := r.ctx
  let i := r.stage
  let s := s.endFlags e c
  let s := if fin.fatal then s.fatalLog e c i else s
  let s := s.landStage c i fin.fatal
  let s := s.freeEngine e r
  let t := if r.startAt ≤ s.bt then (s.bt - r.startAt).toNat else 0
  let tag := match s.stage? c i with
    | some x => if r.flowEn then x.tag else 0xFFFF
    | none => 0xFFFF
  let s := s.endStage c i (if fin.fatal then r.succ else fin.mask)
  let s := s.trace .complete c i (b2n r.cancelRun) e (min t 0xFFFF) tag
  if stwBg (s.stw c i) then s else { s with cyc.lastEnd := s.bt }

/-! ## Lost outputs (R47) -/

/-- The output of a stage with OUT = 1 and no flow is lost: it has ended without a duty set that its
TEND handed over. -/
def State.dutyLost (s : State) (c i : Nat) (x : StageRun) : Bool :=
  let w := s.stw c i
  stwOut w && !stwFlowEn w && !x.dutyDone &&
    (x.st == .complete || x.st == .cancelled || x.st == .killed)

/-- The output of a run is lost (R47). -/
def State.runLost (s : State) (c : Nat) (r : CtxRun) : Bool :=
  r.lost || r.stages.any (fun q => match q.2 with
    | some x => s.dutyLost c q.1 x
    | none => false)

/-- The run of one context, if its output is lost (R47). -/
def State.noteLostOf (s : State) (c : Nat) : State :=
  match s.run c with
  | some r =>
    if decide (c ≤ 128) && (s.ax c).enabled && s.runLost c r && decide (c ∉ s.cyc.lost) then
      let n := (s.ctx c).lostRuns + 1
      let s := { s with cyc.lost := s.cyc.lost ++ [c] }.setCtx c { s.ctx c with lostRuns := n }
      if s.rf DISP_CYC_CTL 0 11 8 ≤ n then (s.post 0x0C02 .severe c).stopReact c else s
    else s
  | none => s

/-- A run of an enabled axis whose output is lost counts once; the latest OVR_LIMIT runs lost post
AXIS_OUTPUT_LOST and the axis takes its stop reaction (R47). -/
def State.noteLost (s : State) : State := s.runs.foldl (fun s p => s.noteLostOf p.1) s

/-! ## The commands -/

/-- The next stage that goes to an engine (R76, R77): the lowest-numbered idle engine with an eligible
stage, the condition of R75 that holds, and the first eligible stage. -/
def State.nextDispatch (s : State) : Option (Nat × Nat × Nat × Nat × StageRun) :=
  (List.range 24).findSome? (fun e =>
    if (s.eng e).idle then (s.firstFor e).map (fun t => (e, t)) else none)

/-- STAGE_DISPATCH (R76, R77): the lowest-numbered idle engine with an eligible stage takes the
first one; `ecc` names an uncorrectable word of its drawer as it moves (R81). -/
def execStageDispatch (ecc : Option (Fin 1024)) (s : State) : Host.Outcome State Fault Refusal :=
  match s.nextDispatch with
  | some (e, k, c, i, x) => .next (s.dispatchTo e k c i x ecc).noteLost
  | none => .next s

/-- STAGE_COMPLETE (R138): the stage that engine `e` runs completes, once its TEND and any XFER have
landed; a library stage does its work here. -/
def execStageComplete (e : Fin 24) (s : State) : Host.Outcome State Fault Refusal :=
  let x := s.eng e
  match x.run with
  | none => .next s
  | some r =>
    if x.xfer.isSome then .next s
    else if s.libStage r.ctx r.stage then
      let s := s.library r.ctx r.stage r.cancelRun
      .next (s.stageDone e r (x.fin.getD ⟨0, false⟩)).noteLost
    else match x.fin with
      | some f => .next (s.stageDone e r f).noteLost
      | none => .next s

end Sys2Proof.Machine
end

