-- ==== Sys2Proof/Machine/Release.lean ====
section
/-! DEFINITION. FLOW_RELEASE: the item at the head of a flow goes to the flow's consumer (R39, R86,
R90, R435, R436, R632, R655). -/

namespace Sys2Proof.Machine

/-- A byte of an item; bytes that the stage did not supply read 0 (R435). -/
def itemByte (bs : List Byte) (i : Nat) : Nat := (bs.getD i 0).toNat

/-- The node that an item on a ring flow names (R435). -/
def State.itemNode (s : State) (c : Nat) (bs : List Byte) : Nat :=
  if itemByte bs 1 ≠ 0 then itemByte bs 1 else bitsOf (s.hdr c) 29 22

/-- The cell of an item on a ring flow (R435). -/
def State.itemCell (s : State) (c : Nat) (bs : List Byte) : Cell :=
  let b2 := itemByte bs 2
  { typ := BitVec.ofNat 8 (itemByte bs 0), node := BitVec.ofNat 8 (s.itemNode c bs)
    axs := if itemByte bs 1 ≠ 0 then BitVec.ofNat 4 (b2 / 16) else BitVec.ofNat 4 (bitsOf (s.hdr c) 21 18)
    flags := BitVec.ofNat 4 (b2 % 16), seq := s.cyc16, sub := BitVec.ofNat 8 (itemByte bs 3)
    payload := octets ((List.range 24).map (fun i => itemByte bs (4 + i)))
    ta := BitVec.ofNat 16 (itemByte bs 28 * 256 + itemByte bs 29) }

/-- An item that makes no cell (R436). -/
def State.itemBad (s : State) (d c : Nat) (bs : List Byte) : Bool :=
  let n := s.itemNode c bs
  let t := itemByte bs 0
  (t != 0xA1 && t != 0xA5) || n == 255 || n == 0 || decide ((s.ring (d / 2)).nodes < n)

/-- A bad item (R436): lost output when its slot is the first one of a stage with OUT = 1 (R47). -/
def State.badItem (s : State) (f : Nat) (sl : ShelfSlot) : State :=
  let s := s.bump LNK_TX_BAD f
  let s := if s.cyc.badTxSeen then s
    else { s with cyc.badTxSeen := true }.post 0x0507 .warn sl.ctx
  if sl.first then s.loseRun sl.ctx else s

/-- An item of a ring flow becomes a cell (R435), which waits for its slot in the serving direction of
its node (R495, R802). -/
def State.releaseCell (s : State) (f : Nat) (sl : ShelfSlot) (bs : List Byte) : State :=
  if s.itemBad f sl.ctx bs then s.badItem f sl
  else
    let k := s.itemCell sl.ctx bs
    (s.ownDigest sl.ctx k).acceptItem (s.dirOf (f / 2) k.node.toNat) (some k) bs sl.ctx sl.first

/-- An item of FL16 to FL63 becomes an ITEM entry (R632). -/
def State.releaseItem (s : State) (f : Nat) (sl : ShelfSlot) (bs : List Byte) : State :=
  let e : CqEntry :=
    { ty := .item, src := BitVec.ofNat 8 sl.ctx
      status := BitVec.ofNat 16 (itemByte bs 0 * 256 + itemByte bs 1), bt := s.bt32
      payload := payOf ((List.range 16).map (fun i => itemByte bs (2 + i))) }
  s.postEntry (s.rf DISP_FLOW_BIND f 5 0) e

/-- An item of FL8 to FL15 is one record of its unit for the stream writer (R655, R667); one that is
withheld counts in the next GAP record (R672). -/
def State.releaseRec (s : State) (u : Nat) (bs : List Byte) : State :=
  let b := (List.range 32).map (itemByte bs)
  let ty := itemByte bs 0 / 16
  let n := if ty = 1 then itemByte bs 3 else 0
  let s := s.setAcq u { s.acq u with prod := (s.acq u).prod + BitVec.ofNat 32 n }
  let (s, ok) := s.takeRecs u [rec32 b n]
  if ok then s
  else if ty = 1 then s.withholdRow u (BitVec.ofNat 32 (leNum ((List.range 4).map (fun i => itemByte bs (4 + i))))) n
  else if ty = 2 then s.setStrm u { s.strm u with gapMarks := (s.strm u).gapMarks + 1 }
  else s

/-- What a flow's consumer makes of an item (R86, R655): FL4 takes it for the twin link, and FL5 to FL7
are reserved. -/
def State.consume (s : State) (f : Nat) (sl : ShelfSlot) (bs : List Byte) : State :=
  if f < 4 then s.releaseCell f sl bs
  else if f = 4 then s.acceptItem 4 none bs sl.ctx sl.first
  else if 16 ≤ f then s.releaseItem f sl bs
  else if 8 ≤ f then s.releaseRec (f - 8) bs
  else s

/-- FLOW_RELEASE (R90): the item at tag H is released when it is complete; holes behind it are passed
over at once. -/
def execFlowRelease (f : BitVec 6) (s : State) : Host.Outcome State Fault Refusal :=
  let n := f.toNat
  let x := s.flow n
  match tget none x.slots x.h with
  | some sl => match sl.item with
    | some bs =>
      let x := passHoles 2048 { x with h := x.h + 1, slots := terase x.slots x.h }
      let s := ((s.setFlow n x).bump DISP_FLOW_REL n).consume n sl bs
      .next s.noteLost
    | none => .next (s.setFlow n (passHoles 2048 x))
  | none => .next s

end Sys2Proof.Machine
end

