-- ==== Sys2Proof/Machine/Load.lean ====
section
/-! DEFINITION. LOAD and CAPACITY (R21 to R24, R717), over templates that a function gives, so that
a commit set can be weighed before it applies. -/

namespace Sys2Proof.Machine

/-- A set of templates: the header of a context, and its stage words. -/
structure Tpls where
  hdr : Nat → W64
  stw : Nat → Nat → W64

/-- The active templates. -/
def State.tpls (s : State) : Tpls := ⟨s.hdr, s.stw⟩

/-- NST of a header (R66). -/
def hdrNst (h : W64) : Nat := bitsOf h 48 45 + 1

/-- WEIGHT of a header (R66). -/
def hdrWeight (h : W64) : Nat := bitsOf h 54 49

/-- Some stage of a context has BG = 0. -/
def Tpls.foreground (t : Tpls) (c : Nat) : Bool :=
  (List.range (hdrNst (t.hdr c))).any (fun i => !stwBg (t.stw c i))

/-- The weight of a context in quarters (R21). -/
def Tpls.weight (t : Tpls) (c : Nat) : Nat :=
  match bitsOf (t.hdr c) 62 60 with
  | 0 => 1
  | 1 => 2
  | 2 => 4
  | 3 => hdrWeight (t.hdr c)
  | 6 => if t.foreground c then hdrWeight (t.hdr c) else 0
  | _ => 0

/-- The weights of the contexts that run in a cycle of the divisor pattern. -/
def Tpls.loadIn (t : Tpls) (k : Nat) : Nat :=
  ((allCtxs.filter (fun c => hdrRuns (t.hdr c) k)).map t.weight).sum

/-- LOAD in quarters (R22). -/
def Tpls.load (t : Tpls) : Nat := (List.range 8).foldl (fun m k => max m (t.loadIn k)) 0

/-- CAPACITY in quarters at a PERIOD (R23). -/
def capacityAt (period : Nat) : Nat := min 512 (512 * period / 31250)

/-- The clusters that count as available (R717): those that the host owns and has not commanded to ON
do not. -/
def State.clusters (s : State) : Nat :=
  4 - ((List.range 4).filter (fun q => (s.dom (3 + q)).hostOwned && (s.dom (3 + q)).down)).length

/-- A LOAD exceeds the CAPACITY of a PERIOD with `n` clusters. -/
def overload (load period n : Nat) : Bool := decide (capacityAt period * n < 4 * load)

end Sys2Proof.Machine
end

