-- ==== Sys2Proof/Machine/Checks.lean ====
section
/-! DEFINITION. The consistency checks of a commit set (R767, R768, R801, and the rules that name a
failing STAGE_COMMIT). `s` is the machine as it is, `t` the machine with the set's stages applied. -/

namespace Sys2Proof.Machine

/-! ## Offending fields (R766, R768, R801) -/

/-- The value of a field in a register's word; signed where its range goes below 0. -/
def Fld.val (x : Fld) (v : W32) : Int :=
  if x.mn < 0 then sbitsOf v x.hi x.lo else (bitsOf v x.hi x.lo : Nat)

/-- The field lies in its stated range. -/
def Fld.ok (x : Fld) (v : W32) : Bool := decide (x.mn ≤ x.val v) && decide (x.val v ≤ x.mx)

/-- A field that a check can name: the BAR0 address of its register, the selector, its lowest bit, and
whether its staged value differs from its active one. -/
structure Cand where
  addr : Nat
  sel : Nat
  bit : Nat
  diff : Bool
  deriving DecidableEq, Repr

/-- The block index of a field. -/
def Cand.blk (c : Cand) : Nat := ((blockOf c.addr).map Fin.val).getD 18

/-- The order of R768: block, offset, SEL, BIT. Addresses rise with both block and offset. -/
def Cand.key (c : Cand) : Nat := (c.addr * 2 ^ 20 + c.sel) * 32 + c.bit

/-- BLK_STAGE_FIELD for a field (R766): the low eight bits of a longer selector. -/
def Cand.word (c : Cand) : W32 :=
  let base := ((blockOf c.addr).map blockBase).getD 0
  BitVec.ofNat 32 ((c.addr - base) % 4096 + c.bit * 4096 + (c.sel % 256) * 2 ^ 24)

/-- A failed check: its code, the field that its own rule names, and the fields of its condition. -/
structure Broken where
  code : BitVec 16
  own : List Cand := []
  cands : List Cand := []

/-- The first of the fields that lie in blocks of the set, those that differ before the others (R801,
item 2). -/
def pickCand (bs : List Nat) (cs : List Cand) : Option Cand :=
  let l := sortBy Cand.key (cs.filter (fun c => decide (c.blk ∈ bs)))
  (l.find? Cand.diff).or l.head?

/-- The field that a failed check names (R801); none: no field of it lies in the set. -/
def Broken.field (b : Broken) (bs : List Nat) : Option Cand :=
  (pickCand bs b.own).or (pickCand bs b.cands)

/-- A field of a register's instance. -/
def fieldCand (s t : State) (r : Reg) (sel lo : Nat) : Cand :=
  let d := match r.flds.find? (fun x => x.lo == lo) with
    | some x => decide (x.val (s.rg r sel) ≠ x.val (t.rg r sel))
    | none => decide (s.rg r sel ≠ t.rg r sel)
  ⟨r.addr, sel, lo, d⟩

/-- A field `[hi:lo]` of a context's header (R66). -/
def hdrCand (s t : State) (c hi lo : Nat) : Cand :=
  ⟨(if lo < 32 then DISP_TPL_HDR_LO else DISP_TPL_HDR_HI).addr, c, lo % 32,
    decide (bitsOf (s.hdr c) hi lo ≠ bitsOf (t.hdr c) hi lo)⟩

/-- A field `[hi:lo]` of a stage word (R67). -/
def stwCand (s t : State) (c i hi lo : Nat) : Cand :=
  ⟨(if lo < 32 then DISP_TPL_ST_LO i else DISP_TPL_ST_HI i).addr, c, lo % 32,
    decide (bitsOf (s.stw c i) hi lo ≠ bitsOf (t.stw c i) hi lo)⟩

/-- The header of a context's template as a whole (R773). -/
def headerCand (s t : State) (c : Nat) : Cand :=
  ⟨DISP_TPL_HDR_HI.addr, c, 0, decide (s.hdr c ≠ t.hdr c)⟩

/-- A check that names one field. -/
def namesIf (bad : Bool) (code : BitVec 16) (c : Cand) : List Broken :=
  if bad then [{ code := code, own := [c] }] else []

/-- A broken condition between fields. -/
def condIf (bad : Bool) (code : BitVec 16) (cs : List Cand) : List Broken :=
  if bad then [{ code := code, cands := cs }] else []

/-! ## Fields outside their stated range (R801, item 1) -/

/-- The register of a staged entry, and its selector value. -/
def entryReg (k : Nat) : Option (Reg × Nat) := (findReg (k / 0x100000)).map (fun r => (r, k % 0x100000))

/-- A field whose range its own check judges: the FPER of a CYCLE unit is not checked (R677). -/
def ownRange (r : Reg) : Bool := r.addr == ACQ_FPER.addr

/-- The staged fields outside their stated range (R12, R57, R100, R287, R321, R405, R535, R733, R777). -/
def rangeChecks (s t : State) : List Broken :=
  s.stage.flatMap (fun p => match entryReg p.1 with
    | some (r, sel) =>
      if ownRange r then []
      else (r.flds.filter (fun x => !x.ok p.2)).map
        (fun x => { code := 0x0201, own := [fieldCand s t r sel x.lo] })
    | none => [])

/-! ## The cycle (R17, R24, R56) -/

/-- The most nodes on a ring (R56). -/
def State.mostNodes (s : State) : Nat := max (s.ring 0).nodes (s.ring 1).nodes

/-- The longest preparation time that a node declared. -/
def State.longestPrep (s : State) : Nat :=
  ([0, 1].flatMap (fun r => (s.ring r).order.map (fun n => ((s.ring r).node n).prep.toNat))).foldl max 0

/-- R17 and R56. -/
def cycleChecks (s t : State) : List Broken :=
  let fc := fieldCand s t
  let per := t.rf DISP_CYC_PERIOD 0 19 0
  let smp := t.rf DISP_CYC_SAMPLE 0 19 0
  let car := t.rf DISP_CYC_CARRIER 0 19 0
  let p := fc DISP_CYC_PERIOD 0 0
  let h := fc DISP_CYC_HINGE 0 0
  let a := fc DISP_CYC_SAMPLE 0 0
  let c := fc DISP_CYC_CARRIER 0 0
  let d := fc DISP_CYC_DEADLINE 0 0
  let ds := if t.rf DISP_CYC_DEADLINE 0 19 0 = 0 then [d, p] else [d]
  namesIf (s.cyc.running && p.diff) 0x0205 p ++
  condIf (decide (car ≤ smp)) 0x0202 [a, c] ++
  condIf (decide (car < smp + t.longestPrep)) 0x0202 [a, c] ++
  condIf (decide (car * 10 < (t.mostNodes + 1) * 384)) 0x0202 [c] ++
  condIf (decide (t.deadline ≤ car)) 0x0202 (c :: ds) ++
  condIf (decide (per < t.deadline + t.hingeLead + 200)) 0x0202 [p, h, d]

/-- PROF, DIV, PHASE or WEIGHT of a context, or its enabling, is part of the set (R24). -/
def loadChange (s t : State) (c : Nat) : Bool :=
  let a := s.hdr c
  let b := t.hdr c
  (!bitOf a 63 && bitOf b 63) || bitsOf a 62 49 != bitsOf b 62 49

/-- R24, with the clusters of R717. -/
def loadChecks (s t : State) : List Broken :=
  let per := t.rf DISP_CYC_PERIOD 0 19 0
  let overs := (List.range 8).filter (fun k => overload (t.tpls.loadIn k) per t.clusters)
  let cause := allCtxs.find? (fun c => loadChange s t c && overs.any (hdrRuns (t.hdr c)))
  if overs = [] then []
  else match cause with
    | some c => [{ code := 0x0204, own := [headerCand s t c] }]
    | none => [{ code := 0x0204, own := [fieldCand s t DISP_CYC_PERIOD 0 0] }]

/-! ## Templates (R62, R68, R194, R333) -/

/-- The profiles that a context's number allows (R62). -/
def profOk (c p : Nat) : Bool :=
  if c ≤ 128 then decide (p ≤ 3) else if c ≤ 160 then p == 4 else if c ≤ 168 then p == 5
  else p == 3 || p == 6

/-- The stages of a template that name stage `i` as a successor. -/
def Tpls.preds (t : Tpls) (c i : Nat) : Nat :=
  ((List.range (hdrNst (t.hdr c))).filter (fun k => (stwSucc (t.stw c k)).getLsbD i)).length

/-- A SUCC mask that breaks R68, condition 1. -/
def succBad (m : BitVec 16) (i nst : Nat) : Bool := (maskList m).any (fun j => decide (j ≤ i ∨ nst ≤ j))

/-- A flow that a stage may not name (R68, condition 3). -/
def flowBad (t : State) (w : W64) : Bool :=
  let f := stwFlow w
  stwFlowEn w && ((5 ≤ f && f ≤ 7) || (16 ≤ f && !bitOf (t.rg DISP_FLOW_BIND f) 8))

/-- EN and NST of a context: fields of every condition on its stages (R68). -/
def graphCands (s t : State) (c : Nat) : List Cand := [hdrCand s t c 63 63, hdrCand s t c 48 45]

/-- The checks of one stage of an enabled context: each broken condition of R68 with its fields. -/
def stageChecks (s t : State) (c i : Nat) : List Broken :=
  let w := t.stw c i
  let f := stwCand s t c i
  let g := graphCands s t c
  condIf (succBad (stwSucc w) i (t.nst c)) 0x0C10 (f 46 31 :: g) ++
  condIf (decide (stwInit w ≠ t.tpls.preds c i + b2n (stwTok w ≠ 0))) 0x0C11
    (f 50 47 :: f 17 15 :: g ++ (List.range 16).map (fun k => stwCand s t c k 46 31)) ++
  condIf (flowBad t w) 0x0C12
    (f 30 25 :: f 24 24 :: fieldCand s t DISP_FLOW_BIND (stwFlow w) 8 :: g) ++
  condIf (stwBg w && decide (c < 169)) 0x0C14 (f 13 13 :: g) ++
  namesIf (decide (4 ≤ stwTok w)) 0x0201 (f 17 15)

/-- The cluster that a pin names. -/
def pinCluster (h : W64) : Option Nat :=
  match hdrPin h with
  | 1 => some (hdrPinId h)
  | 2 => some (hdrPinId h / 6)
  | _ => none

/-- The header of an enabled context (R62, R66, R68, R194). -/
def headerChecks (s t : State) (c : Nat) : List Broken :=
  let h := t.hdr c
  let p := bitsOf h 62 60
  let f := hdrCand s t c
  let near := bitOf h 31
  let en := f 63 63
  condIf (!profOk c p) 0x0C17 [f 62 60, en] ++
  condIf (decide (c ≤ 128) && near && decide (p ≤ 1)) 0x0C17 [f 62 60, f 31 31, en] ++
  condIf (decide (hdrDiv h ≤ bitsOf h 57 55)) 0x0C13 [f 57 55, f 59 58, en] ++
  condIf (decide (hdrWeight h = 0) && p == 3) 0x0C13 [f 54 49, f 62 60, en] ++
  condIf (decide (hdrWeight h = 0) && p == 6 && t.tpls.foreground c) 0x0C13
    (f 54 49 :: f 62 60 :: graphCands s t c ++ (List.range (t.nst c)).map (fun i => stwCand s t c i 13 13)) ++
  namesIf (hdrPin h == 3) 0x0201 (f 44 43) ++
  namesIf ((hdrPin h == 1 && decide (3 < hdrPinId h)) || (hdrPin h == 2 && decide (23 < hdrPinId h)))
    0x0201 (f 42 38) ++
  namesIf (decide (32 < hdrKeep h)) 0x0201 (f 37 32) ++
  namesIf (decide (c ≤ 128) && !near && (bitsOf h 29 22 == 0 || bitsOf h 29 22 == 255)) 0x0201
    (f 29 22) ++
  condIf (match pinCluster h with
    | some q => (s.dom (3 + q)).st == DomSt.off
    | none => false) 0x0C15 [f 44 43, f 42 38, en]

/-- The earlier enabled contexts of the same keep set that are pinned to another cluster
(condition 7). -/
def pinClash (t : State) (c : Nat) : List Nat :=
  match pinCluster (t.hdr c) with
  | some q => if hdrKeep (t.hdr c) = 0 then [] else (t.enabledCtxs.filter (· < c)).filter (fun e =>
      hdrKeep (t.hdr e) == hdrKeep (t.hdr c) &&
        (match pinCluster (t.hdr e) with
          | some p => p != q
          | none => false))
  | none => []

/-- The fields of condition 7 in a header. -/
def pinCands (s t : State) (c : Nat) : List Cand :=
  [hdrCand s t c 44 43, hdrCand s t c 42 38, hdrCand s t c 37 32, hdrCand s t c 63 63]

/-- The earlier enabled axis contexts that name the same source (condition 8). -/
def srcClash (t : State) (c : Nat) : List Nat :=
  if 128 < c then [] else (t.enabledCtxs.filter (fun e => decide (e < c))).filter (fun e =>
    match hdrNear (t.hdr c), hdrNear (t.hdr e) with
    | some a, some b => a == b
    | none, none => hdrFar (t.hdr c) == hdrFar (t.hdr e)
    | _, _ => false)

/-- The fields of condition 8 in a header. -/
def srcCands (s t : State) (c : Nat) : List Cand :=
  [hdrCand s t c 31 31, hdrCand s t c 30 30, hdrCand s t c 29 22, hdrCand s t c 21 18, hdrCand s t c 63 63]

/-- The stages that put slots on a flow in a cycle of the divisor pattern, with the slots of each, in
tag order (R87). -/
def flowUse (t : State) (f k : Nat) : List (Nat × Nat × Nat) :=
  (allCtxs.filter (fun c => hdrRuns (t.hdr c) k)).flatMap (fun c =>
    ((List.range (t.nst c)).filter (fun i => stwFlowEn (t.stw c i) && stwFlow (t.stw c i) == f)).map
      (fun i => (c, i, stwItems (t.stw c i))))

/-- The fields that put a stage's slots on a flow in a cycle of the divisor pattern (condition 4). -/
def flowCands (s t : State) (p : Nat × Nat × Nat) : List Cand :=
  let h := hdrCand s t p.1
  let f := stwCand s t p.1 p.2.1
  [f 30 25, f 24 24, f 23 22, h 63 63, h 59 58, h 57 55, h 48 45]

/-- The template checks of the enabled contexts. -/
def templateChecks (s t : State) : List Broken :=
  let en := t.enabledCtxs
  en.flatMap (fun c => headerChecks s t c ++ (List.range (t.nst c)).flatMap (stageChecks s t c) ++
    (pinClash t c).flatMap (fun e => condIf true 0x0C15 (pinCands s t c ++ pinCands s t e)) ++
    (srcClash t c).flatMap (fun e => condIf true 0x0C16 (srcCands s t c ++ srcCands s t e))) ++
  (List.range 64).flatMap (fun f => (List.range 8).flatMap (fun k =>
    let us := flowUse t f k
    condIf (decide (1024 < (us.map (fun p => p.2.2)).sum)) 0x0C12 (us.flatMap (flowCands s t)))) ++
  (axisCtxs.filter (fun c => s.ctxEn c && !t.ctxEn c && (s.ax c).enabled)).flatMap
    (fun c => [{ code := 0x0C17, own := [headerCand s t c] }])

/-! ## Feedback and PWM (R246, R271, R276, R321) -/

/-- The end of a sigma-delta frame's window after T0 (R32, R272), in ns: the PWM centre of module 0
nearest to the sample instant, and half the window. -/
def State.sdEnd (t : State) (n : Nat) : Rat :=
  let per : Rat := (t.rf PWM_PER 0 19 0 : Nat)
  let smp : Rat := (t.rf DISP_CYC_SAMPLE 0 19 0 : Nat)
  let off : Rat := per / 2 - (t.rf PWM_SYNC 0 19 0 : Nat)
  let k := ((smp - off) / per + 1 / 2).floor
  off + k * per + 3 / 2 * (t.rf FB_SD_CFG n 8 0 * t.sdPeriod n : Nat)

/-- The checks of one near axis. -/
def nearChecks (s t : State) (n : Nat) : List Broken :=
  let fc := fieldCand s t
  let p := fc DISP_CYC_PERIOD 0 0
  let tclk := t.rf FB_SSI_CFG n 21 8
  let lead := t.rf FB_SSI_LEAD n 19 0
  let need := t.rf FB_SSI_CFG n 5 0 * tclk + 10 * t.rf FB_SSI_CFG n 31 24 + 20
  let ssi : List Broken :=
    if t.posSrc n = 2 && (decide (lead < need) || decide (t.rf DISP_CYC_PERIOD 0 19 0 ≤ lead)) then
      [{ code := 0x0202, own := [fc FB_SSI_LEAD n 0],
         cands := [fc FB_CFG n 0, fc FB_SSI_CFG n 0, fc FB_SSI_CFG n 8, fc FB_SSI_CFG n 24, p] }]
    else []
  let frame := 3 * t.rf FB_SD_CFG n 8 0 * t.sdPeriod n
  let sd : List Broken :=
    if t.sdAny n && (decide (t.rf DISP_CYC_PERIOD 0 19 0 < frame) ||
        decide ((t.deadline : Rat) ≤ t.sdEnd n + 60)) then
      [{ code := 0x0202, own := [fc FB_SD_CFG n 0],
         cands := [fc FB_CFG n 7, fc FB_CFG n 11, fc FB_SD_CLK 0 0, fc FB_SD_CLK 0 8, p,
                   fc DISP_CYC_SAMPLE 0 0, fc DISP_CYC_DEADLINE 0 0, fc PWM_PER 0 0, fc PWM_SYNC 0 0] }]
    else []
  ssi ++ sd

/-- R246 for one enabled near-axis context. -/
def tokenChecks (s t : State) (c : Nat) : List Broken :=
  match t.nearOf c with
  | some n =>
    let tok (i : Nat) : Nat := stwTok (t.stw c i)
    if t.sdAny n && ((List.range (t.nst c)).any (fun i => tok i == 1) || tok 0 != 2) then
      [{ code := 0x0202, own := [fieldCand s t FB_CFG n 7],
         cands := (List.range (t.nst c)).map (fun i => stwCand s t c i 17 15) }]
    else []
  | none => []

/-- `a` is `m` times `b` for some `m` from 1 to 64. -/
def multiple64 (a b : Nat) : Bool := decide (0 < b) && decide (a % b = 0) && decide (1 ≤ a / b) && decide (a / b ≤ 64)

/-- R321 for one module; SYNC_PH and SYNC_DLY range up to TPER − 1. -/
def pwmChecks (s t : State) (m : Nat) : List Broken :=
  let fc := fieldCand s t
  let per := t.rf PWM_PER m 19 0
  let ctl := t.rg PWM_CTL m
  let any := (List.range 8).any (fun k => (s.pwm k).enable)
  namesIf (decide (per ≤ t.rf PWM_SYNC m 19 0)) 0x0201 (fc PWM_SYNC m 0) ++
  namesIf (decide (per ≤ t.rf PWM_SYNC_DLY m 19 0)) 0x0201 (fc PWM_SYNC_DLY m 0) ++
  condIf (decide (per < t.rf PWM_DT m 11 0 + t.rf PWM_DT m 27 16 + 2 * t.rf PWM_MINP m 11 0)) 0x0202
    [fc PWM_PER m 0, fc PWM_DT m 0, fc PWM_DT m 16, fc PWM_MINP m 0] ++
  condIf (bitOf ctl 1 && !bitOf ctl 0) 0x0202 [fc PWM_CTL m 0, fc PWM_CTL m 1] ++
  condIf (m == 0 && any && !multiple64 (t.rf DISP_CYC_PERIOD 0 19 0) per) 0x0202
    [fc DISP_CYC_PERIOD 0 0, fc PWM_PER 0 0] ++
  condIf (decide (1 ≤ m) && bitOf ctl 5 && !multiple64 (t.rf PWM_PER (m - 1) 19 0) per) 0x0202
    [fc PWM_CTL m 5, fc PWM_PER (m - 1) 0, fc PWM_PER m 0]

/-! ## Masters, inputs and GO balls (R376, R405, R777) -/

/-- R376 for a master source. -/
def masterChecks (s t : State) (k : Nat) : List Broken :=
  let kind := t.msKind k
  let src := t.rf PRF_MS_CFG k 15 8
  namesIf (((kind == 1 || kind == 2) && (src == 0 || decide (128 < src))) ||
    (kind == 3 && decide (7 < src))) 0x0201 (fieldCand s t PRF_MS_CFG k 8)

/-- R405's condition on wire-break detection. -/
def wbChecks (s t : State) (c : Nat) : List Broken :=
  if t.rf PRF_LIM_CFG c 21 19 ≠ 0 && !t.isNear c then
    [{ code := 0x0202, own := [fieldCand s t PRF_LIM_CFG c 19], cands := [hdrCand s t c 31 31] }]
  else []

/-- R376 and R777: no GO ball has two owners. -/
def goChecks (s t : State) : List Broken :=
  condIf (decide (t.rg FIELD_GO_OWN &&& t.rg EVT_GO_OWN ≠ 0)) 0x0202
    [fieldCand s t EVT_GO_OWN 0 0, fieldCand s t FIELD_GO_OWN 0 0]

/-! ## Link, rings, time and twin (R426, R447, R477, R498, R535, R548, R559) -/

/-- The header fields of a context that place its cells: EN, PROF, DIV, PHASE and SRC. -/
def placeCands (s t : State) (c : Nat) : List Cand :=
  [hdrCand s t c 63 63, hdrCand s t c 62 60, hdrCand s t c 59 58, hdrCand s t c 57 55,
   hdrCand s t c 31 31, hdrCand s t c 30 30, hdrCand s t c 29 22, hdrCand s t c 21 18]

/-- The contexts of a node that run in a cycle of the divisor pattern. -/
def State.runsOn (t : State) (r n k : Nat) : List Nat := t.ctxsOfNode r n (fun c => hdrRuns (t.hdr c) k)

/-- R426 and R477 for a node. -/
def nodeChecks (s t : State) (r n : Nat) : List Broken :=
  let key := nodeSel r n
  let caps := ((t.ring r).node n).caps
  let nio := bitsOf caps 10 8
  let bad := (List.range 8).find? (fun k =>
    let cs := t.runsOn r n k
    decide (2 < cs.length) || decide (24 < (cs.map t.recLen).sum))
  (match bad with
    | some k => [{ code := 0x0520, cands := fieldCand s t LNK_NODE_PROF key 0 ::
        (t.runsOn r n k).flatMap (placeCands s t) }]
    | none => []) ++
  namesIf (decide (nio < t.nioD r n)) 0x0522 (fieldCand s t LNK_NODE_IO key 0) ++
  namesIf (decide (nio < t.nioU r n)) 0x0522 (fieldCand s t LNK_NODE_IO key 4) ++
  namesIf (decide (t.tunU r n ≠ 0) && !bitOf caps 11) 0x0522 (fieldCand s t LNK_NODE_IO key 8)

/-- ACYC_MIN. -/
def State.acycMin (t : State) : Nat := t.rf LNK_ACYC 0 9 0

/-- The fields of R447's condition on a ring. -/
def creditCands (s t : State) (r : Nat) : List Cand :=
  [fieldCand s t LNK_ACYC 0 0, fieldCand s t DISP_CYC_PERIOD 0 0] ++
    (t.ring r).order.map (fun n => fieldCand s t LNK_NODE_IO (nodeSel r n) 0) ++
    t.enabledCtxs.flatMap (placeCands s t)

/-- R447 for a direction; one that carries no cyclic cell is not checked. -/
def creditChecks (s t : State) (d : Nat) : List Broken :=
  condIf (t.dirActive d && (List.range 8).any (fun k =>
    decide (t.slots < t.cyclicOf d (fun c => hdrRuns (t.hdr c) k) + t.acycMin))) 0x0521
    (creditCands s t (d / 2))

/-- The cyclic cells of all nodes of a ring in one direction (R498). -/
def State.cyclicAll (t : State) (r k : Nat) : Nat :=
  let ns := (t.ring r).order
  let runs (c : Nat) : Bool := hdrRuns (t.hdr c) k
  1 + ns.length + (ns.filter (fun n => decide (t.runsOn r n k ≠ []))).length +
    (ns.map (fun n => t.nioU r n + t.nioD r n)).sum +
    (allCtxs.map (fun c => if runs c then t.reservedOn c (2 * r) + t.reservedOn c (2 * r + 1) else 0)).sum

/-- R498 for a ring. -/
def rerouteChecks (s t : State) (r : Nat) : List Broken :=
  let loop := (t.ring r).loopMax
  let en := fieldCand s t RING_CTL r 1
  if !bitOf (t.rg RING_CTL r) 1 then []
  else
    condIf ((List.range 8).any (fun k => decide (t.slots < t.cyclicAll r k + t.acycMin))) 0x0521
      (en :: creditCands s t r) ++
    condIf (decide (10 * t.deadline ≤ 10 * (t.rf DISP_CYC_CARRIER 0 19 0 + 2 * loop) + t.mostNodes * 384))
      0x0539 [en, fieldCand s t DISP_CYC_CARRIER 0 0, fieldCand s t DISP_CYC_DEADLINE 0 0,
        fieldCand s t DISP_CYC_PERIOD 0 0] ++
    condIf (decide (t.rf DISP_CYC_PERIOD 0 19 0 < 5 * loop + 3000)) 0x0539
      [en, fieldCand s t DISP_CYC_PERIOD 0 0]

/-- R535's conditions. -/
def timeChecks (s t : State) : List Broken :=
  let fc := fieldCand s t TIME_CTL 0
  let c := t.rg TIME_CTL
  condIf (bitsOf c 4 3 == 2 && (bitOf c 5 || bitsOf c 15 8 != 0)) 0x0202 [fc 3, fc 5, fc 8] ++
  namesIf (s.anyAxis && (fc 1).diff) 0x0202 (fc 1)

/-- R548: the first staged value that CFG_DIGEST covers, while the unit is in a pair. -/
def digestChecks (s t : State) : List Broken :=
  if s.twin.st = .off then []
  else (s.stage.filter (fun p => s.inDigest p.1 || t.inDigest p.1)).flatMap (fun p =>
    match entryReg p.1 with
    | some (r, sel) => ((r.flds.map (fun x => fieldCand s t r sel x.lo)).filter Cand.diff).map
        (fun c => { code := 0x0712, own := [c] })
    | none => [])

/-- R559: TWIN_CTL.EN becomes 0 only with no twinned context enabled. -/
def twinChecks (s t : State) : List Broken :=
  let c := fieldCand s t TWIN_CTL 0 0
  if c.diff && !bitOf (t.rg TWIN_CTL) 0 && allCtxs.any t.twinned then
    [{ code := 0x0712, own := [c], cands := allCtxs.map (fun k => hdrCand s t k 63 63) }]
  else []

/-! ## Acquisition (R677) -/

/-- The peepholes that a profile declares (R240). -/
def declares (prof ph : Nat) : Bool :=
  if prof = 2 then true
  else if prof ≤ 1 then decide (ph ≤ 8) || ph == 27 || ph == 30 || ph == 31 || (prof == 1 && decide (ph ≤ 10))
  else false

/-- A channel's KIND is not allowed in its unit's MODE. -/
def State.kindBad (t : State) (u n : Nat) : Bool :=
  match t.chKind u n with
  | 0 | 4 | 5 => false
  | 1 | 2 => t.acqFast u
  | 3 => !t.acqFast u
  | _ => true

/-- A level trigger of an enabled path names a channel without raw. -/
def State.rawless (t : State) (u k : Nat) : Bool :=
  let n := t.rf (ltRegs k).1 u 4 0
  bitOf (t.rg ACQ_TRIG_CTL u) (1 + k) && !(t.chKind u n != 0 && t.chRed u n 0)

/-- R677 for a unit. -/
def acqChecks (s t : State) (u : Nat) : List Broken :=
  let fc := fieldCand s t
  let mode := fc ACQ_CFG u 0
  let chan (n : Nat) : Cand := fc (ACQ_CH n) u 0
  let kinds := (List.range 32).flatMap (fun n =>
    let c := bitsOf (t.rg (ACQ_CH n) u) 23 16
    condIf (t.kindBad u n) 0x0B20 [chan n, mode] ++
    condIf (t.chKind u n == 1 && !declares (t.prof c) (bitsOf (t.rg (ACQ_CH n) u) 4 0)) 0x0B20
      [chan n, hdrCand s t c 62 60] ++
    condIf (bitOf (t.rg ACQ_PAT_CARE u) n && !t.chDigital u n) 0x0B20 [fc ACQ_PAT_CARE u 0, chan n])
  let levels := [0, 1].flatMap (fun k =>
    condIf (t.rawless u k) 0x0B20
      [fc (ltRegs k).1 u 0, fc ACQ_TRIG_CTL u 0, chan (t.rf (ltRegs k).1 u 4 0)])
  let fper := t.rf ACQ_FPER u 15 0
  let rate := if t.acqFast u then
      condIf (decide (fper < 1000)) 0x0B21 [fc ACQ_FPER u 0, mode] ++
      condIf (decide (fper = 0) || decide (t.rf DISP_CYC_PERIOD 0 19 0 % fper ≠ 0)) 0x0B21
        [fc ACQ_FPER u 0, mode, fc DISP_CYC_PERIOD 0 0]
    else []
  let mem (v : Nat) : BitVec 8 := (t.rg ACQ_GRP v).setWidth 8
  let others := (List.range 8).filter (· ≠ u)
  let group := condIf (others.any (fun v => decide (mem u &&& mem v ≠ 0)) ||
      others.any (fun v => (mem u).getLsbD v && decide (mem v ≠ 0))) 0x0B11
    (fc ACQ_GRP u 0 :: others.map (fun v => fc ACQ_GRP v 0))
  let busy := if (s.acq u).st = .idle then []
    else (s.stage.filter (fun p => p.1 % 0x100000 == u)).flatMap (fun p =>
      match entryReg p.1 with
      | some (r, sel) =>
        if r.sel = .one ACQ_SEL.addr then
          ((r.flds.map (fun x => fc r sel x.lo)).filter Cand.diff).map
            (fun c => ({ code := 0x0B23, own := [c] } : Broken))
        else []
      | none => [])
  kinds ++ levels ++ rate ++ group ++ busy

/-- R677's bandwidth. -/
def bandChecks (s t : State) : List Broken :=
  condIf (decide (500 < ((List.range 9).map (fun k => t.rf (ACQ_BW k) 0 9 0)).sum)) 0x0B22
    ((List.range 9).map (fun k => fieldCand s t (ACQ_BW k) 0 0))

/-! ## The whole set -/

/-- Every failed check of a commit set. -/
def allChecks (s t : State) : List Broken :=
  rangeChecks s t ++ cycleChecks s t ++ loadChecks s t ++ templateChecks s t ++
    (List.range 8).flatMap (nearChecks s t) ++ t.enabledCtxs.flatMap (tokenChecks s t) ++
    (List.range 8).flatMap (pwmChecks s t) ++ (List.range 16).flatMap (masterChecks s t) ++
    axisCtxs.flatMap (wbChecks s t) ++ goChecks s t ++
    [0, 1].flatMap (fun r => (t.ring r).order.flatMap (nodeChecks s t r) ++ rerouteChecks s t r) ++
    (List.range 4).flatMap (creditChecks s t) ++ timeChecks s t ++ digestChecks s t ++
    twinChecks s t ++ (List.range 8).flatMap (acqChecks s t) ++ bandChecks s t

/-- The entry with the least key, the earliest one first (R768). -/
def firstBroken : List (BitVec 16 × Cand) → Option (BitVec 16 × Cand)
  | [] => none
  | a :: as => some (as.foldl (fun b x => if x.2.key < b.2.key then x else b) a)

/-- The first offending field of a commit set, and the code (R768, R801). -/
def offending (s t : State) (bs : List Nat) : Option (BitVec 16 × Cand) :=
  firstBroken ((allChecks s t).filterMap (fun b => (b.field bs).map (fun c => (b.code, c))))

end Sys2Proof.Machine
end

