-- ==== Sys2Proof/Machine/Power.lean ====
section
/-! DEFINITION. Supplies, power domains and retention (chapter 18). -/

namespace Sys2Proof.Machine

/-! ## Supplies (R708 to R713) -/

/-- A supply condition posts its event while CORE runs. -/
def State.supply (s : State) (code : BitVec 16) (sev : Sev) : State :=
  if s.isOn 1 then s.post code sev 0 else s

/-- VIN_LOW (R708). -/
def execVinLow (s : State) : Host.Outcome State Fault Refusal := .next (s.supply 0x0903 .warn)

/-- VIN_HIGH (R708). -/
def execVinHigh (s : State) : Host.Outcome State Fault Refusal := .next (s.supply 0x0904 .severe)

/-- VBRK_LOW (R708). -/
def execVbrkLow (s : State) : Host.Outcome State Fault Refusal := .next (s.supply 0x0905 .warn)

/-- VBRK_HIGH (R708). -/
def execVbrkHigh (s : State) : Host.Outcome State Fault Refusal := .next (s.supply 0x0906 .warn)

/-- TJ_HIGH (R710). -/
def execTjHigh (s : State) : Host.Outcome State Fault Refusal := .next (s.supply 0x0908 .warn)

/-- The near axes whose balls lie on a VIO bank (R713). -/
def bankNears (b : Nat) : List Nat :=
  if b = 0 then [0, 1, 2, 3] else if b = 1 then [4, 5, 6, 7] else []

/-- VIO_FAIL_END (R713): the bank's supply is back. -/
def execVioFailEnd (b : Fin 4) (s : State) : Host.Outcome State Fault Refusal :=
  let s := { s with pwr.vioFail := s.pwr.vioFail &&& ~~~ BitVec.ofNat 4 (2 ^ b.val) }
  .next (if b.val = 2 && s.isOn 1 then s.driveVioc else s)

/-! ## Refusals of a request (R715) -/

/-- A near-axis context is enabled. -/
def State.nearEnabled (s : State) : Bool := axisCtxs.any (fun c => s.ctxEn c && s.isNear c)

/-- A pin or keep set names a cluster (condition 1). -/
def State.namesCluster (s : State) (q : Nat) : Bool :=
  s.enabledCtxs.any (fun c =>
    let h := s.hdr c
    (hdrPin h == 1 && hdrPinId h == q) || (hdrPin h == 2 && hdrPinId h / 6 == q) ||
      (hdrKeep h != 0 && (s.ctx c).home / 6 == q))

/-- LOAD would exceed CAPACITY without a cluster (condition 2). -/
def State.needsCluster (s : State) (q : Nat) : Bool :=
  let x := s.dom (3 + q)
  let n := s.clusters - (if x.hostOwned && x.down then 0 else 1)
  overload s.tpls.load (s.rf DISP_CYC_PERIOD 0 19 0) n

/-- The condition that refuses a host's request to take a domain to RET or OFF. -/
def State.domRefused (s : State) (d : Nat) : Option Nat :=
  let if_ (b : Bool) (k : Nat) : Option Nat := if b then some k else none
  if 3 ≤ d ∧ d ≤ 6 then
    if s.namesCluster (d - 3) then some 1 else if_ (s.needsCluster (d - 3)) 2
  else match d with
    | 7 => if_ (s.enabledCtxs ≠ []) 3
    | 8 | 9 =>
      if_ (axisCtxs.any (fun c => (s.ax c).mode == .cam) ||
        (List.range 64).any (fun k => (s.cam k).computing)) 4
    | 10 => some 5
    | 15 => if_ ((s.ring 0).st ≠ .off) 6
    | 16 => if_ ((s.ring 1).st ≠ .off) 6
    | 17 => if_ (s.twin.st ≠ .off) 7
    | 18 => if_ (bitOf (s.rg TIME_CTL) 0) 8
    | 19 => if_ (bitOf (s.rg HOST_CTL) 2 || axisCtxs.any (fun c => (s.ax c).enabled)) 9
    | 20 => if_ ((List.range 8).any (fun u => (s.acq u).st != .idle) || bitOf (s.rg DISP_TRC_CTL) 0) 10
    | 21 => if_ ((List.range 8).any (fun m => (s.pwm m).st != .disabled) || s.nearEnabled) 11
    | 22 =>
      if_ (s.nearEnabled || (List.range 16).any s.goLevel || s.rg EVT_GO_OWN ≠ 0) 12
    | _ => none

/-! ## Requests (R720, R724, R731) -/

/-- A RET or OFF request reaches a domain (R720, R724). A request that changes nothing is complete. -/
def State.restDom (s : State) (d : Nat) (t : DomTgt) (cmds : List (Option Cmd)) : State :=
  let x := s.dom d
  let done (s : State) : State := cmds.foldl (fun (s : State) c => s.complete c 0) s
  match x.st with
  | .on => s.setDom d { x with st := .entering, tgt := t, begun := false, cmds := x.cmds ++ cmds }
  | .ret => if t = .off then done (s.setDom d { x with st := .off }) else done s
  | .off => done s
  | _ => s.setDom d { x with latched := some t, latchedCmds := x.latchedCmds ++ cmds }

/-- PWR_SET at its hinge point (R717, R726, R731). -/
def applyPwrSet (d : Desc) (cmd : Option Cmd) (s : State) : State :=
  let k := bitsOf d.aux 4 0
  let t := bitsOf d.aux 9 8
  if k ≤ 2 || 22 < k || (t = 3 && !placeable k) then s.complete cmd 0x0921
  else
    let x := s.dom k
    if t = 3 then (s.setDom k { x with hostOwned := false, down := false }).complete cmd 0
    else if t = 0 then
      let s := s.setDom k { x with hostOwned := true, down := false }
      if x.st = .on then s.complete cmd 0 else s.wakeDom k [cmd]
    else match s.domRefused k with
      | some n => (s.bump PWR_REFUSED_CNT).complete cmd 0x0920 (payOf [k, n])
      | none =>
        (s.setDom k { x with hostOwned := true, down := true }).restDom k (if t = 1 then .ret else .off) [cmd]

/-- PWR_SET (R731). -/
def execPwrSet (d : Desc) (s : State) : Host.Outcome State Fault Refusal :=
  .next (s.runDesc 0x60 d applyPwrSet)

/-! ## Entry (R720, R721, R727) -/

/-- Placement takes a domain that it owns to RET (R727). -/
def State.autoRet (s : State) (d : Nat) : State :=
  if s.auto d && s.isOn d then (s.restDom d .ret []).post 0x0909 .info 0 (payOf [d, 1]) else s

/-- CAB_IDLE_EXPIRE (R727): no access has reached bank CAB4 + `k` for IDLE_WIN cycles. -/
def execCabIdleExpire (k : Fin 4) (s : State) : Host.Outcome State Fault Refusal :=
  let d := 11 + k.val
  if s.cyc.phase == .sill && decide (s.rf PWR_CAB_IDLE 0 15 0 ≤ (s.dom d).idle) then .next (s.autoRet d)
  else .next s

/-- A cluster's drawers go to their cabinet homes, and the contexts on it to homes elsewhere (R721). -/
def State.clearCluster (s : State) (q : Nat) : State :=
  let es := (List.range 6).map (fun i => 6 * q + i)
  let s := es.foldl (fun s e => (List.range 12).foldl (fun s k =>
    if tget 0 (s.eng e).slots k = 0 then s else s.evict e k) s) s
  s.enabledCtxs.foldl (fun s c =>
    let y := s.ctx c
    let s := if decide (y.home < 24) && y.home / 6 == q then s.assignHome c else s
    if decide ((s.ctx c).aff < 24) && (s.ctx c).aff / 6 == q then
      s.setCtx c { s.ctx c with aff := (s.ctx c).home } else s) s

/-- The entry of a domain begins (R721). -/
def State.beginEntry (s : State) (d : Nat) : State :=
  let s := s.setDom d { s.dom d with begun := true, startAt := s.bt }
  if 3 ≤ d && d ≤ 6 then s.clearCluster (d - 3)
  else if d = 19 then ({ s with boot.linkUp := false }.resetHostIf).hostLost 2
  else s

/-- RETENTION_ENTRY (R721, R727): at the sill's start, or with cycles stopped, the accepted requests
begin their entries; placement's own for its idle cluster is made here, in a sill alone (R55, R85). -/
def State.retentionEntry (s : State) : State :=
  if s.cyc.running && s.cyc.phase ≠ .sill then s
  else
    let s := if s.cyc.phase ≠ .sill then s
      else { s.disp.retain.foldl (fun s q => s.autoRet (3 + q)) s with disp.retain := [] }
    ((List.range 23).foldl (fun s d =>
      let x := s.dom d
      if x.st == .entering && !x.begun then s.beginEntry d else s) s)

/-- RETENTION_ENTRY. -/
def execRetentionEntry (s : State) : Host.Outcome State Fault Refusal :=
  .next (s.retentionEntry)

/-- The latched target is carried out at once (R724). -/
def State.replay (s : State) (d : Nat) : State :=
  let x := s.dom d
  match x.latched with
  | none => s
  | some t =>
    let cs := x.latchedCmds
    let s := (s.setDom d { x with latched := none, latchedCmds := [] }).bump PWR_REPLAYS d
    match t with
    | .on => if x.st = .on then s.setDom d { s.dom d with wakeCmds := x.wakeCmds ++ cs }
      else s.wakeDom d cs
    | t => s.restDom d t cs

/-- ENTRY_COMPLETE (R720, R724): the entry of a domain is complete. -/
def execEntryComplete (d : Fin 23) (s : State) : Host.Outcome State Fault Refusal :=
  let x := s.dom d
  if x.st ≠ .entering || !x.begun then .next s
  else
    let st : DomSt := if x.tgt = .off then .off else .ret
    let s := (s.setDom d { x with st := st, cmds := [], begun := false }).bump PWR_ENTRIES d
    let s := x.cmds.foldl (fun (s : State) c => s.complete c 0) s
    .next (s.replay d)

/-! ## Wakes (R722 to R725) -/

/-- WAKE_EVENT (R722, R732): PCIE's receiver leaves electrical idle (0), LOS clears on P0 to P3 (1 to
4), TRIG_IO falls (5). -/
def execWakeEvent (k : Fin 6) (s : State) : Host.Outcome State Fault Refusal :=
  let d := if k.val = 0 then 19 else if k.val = 5 then 20 else 15 + (k.val - 1) / 2
  if bitOf (s.rg PWR_WAKE) k then .next (s.wakeDom d []) else .next s

/-- A cabinet bank reads 0 (R723, R725). -/
def State.zeroBank (s : State) (d : Nat) : State :=
  let b := d - 7
  let s := { s with cab := s.cab.filter (fun c => c.1 / 0x100000 != b) }
  if d = 8 || d = 9 then
    (List.range 32).foldl (fun (s : State) k =>
      let n := (d - 8) * 32 + k
      { s with cams := tset {} s.cams n { s.cam n with ready := false, pts := [], load := [] } }) s
  else s

/-- An engine's LDM is cold: its constant area is rewritten, the rest reads 0 (R723). -/
def Engine.coldLdm (x : Engine) : Engine :=
  { x with ldm := [], scr := [], bad := [], fix := [], slots := [], lru := [] }

/-- Engines of a cluster load their IM from MRAM (R104). -/
def State.reloadIm (s : State) (p : Nat → Bool) : State :=
  { s with fw := s.fw.loadIm s.fw.lpMram p }

/-- What a LOST mask of a domain costs (R723). -/
def State.loseMemories (s : State) (d : Nat) (lost : BitVec 12) : State :=
  if 3 ≤ d && d ≤ 6 then
    let q := 6 * (d - 3)
    let s := s.reloadIm (fun e => e / 6 == d - 3 && lost.getLsbD (e % 6))
    (List.range 6).foldl (fun s i =>
      if lost.getLsbD (6 + i) then s.setEng (q + i) (s.eng (q + i)).coldLdm else s) s
  else if lost.getLsbD 0 then s.zeroBank d
  else s

/-- A domain's LOST bits that exist: an IM and LDM for each engine, or a bank. -/
def lostMask (d : Nat) : BitVec 12 :=
  if 3 ≤ d ∧ d ≤ 6 then 0xFFF else if 7 ≤ d ∧ d ≤ 14 then 1 else 0

/-- The number of bits that are set. -/
def popcount (v : BitVec 12) : Nat := ((List.range 12).filter (fun k => v.getLsbD k)).length

/-- A domain is ON (R722): counted, used from the next hinge point, and its latched target carried
out. -/
def State.domOn (s : State) (d : Nat) (lost : BitVec 12) : State :=
  let x := s.dom d
  let was := s
  let s := (s.bump PWR_WAKES d).keepMax PWR_WAKE_MAX d (min 0xFFFF ((s.bt - x.startAt).toNat / 100))
  let run := s.cyc.running
  let s := s.setDom d { x with st := .on, lost := lost, usable := !run, accPosted := false, idle := 0,
                               wakeCmds := if run then x.wakeCmds else [] }
  let s := if run then s else x.wakeCmds.foldl (fun (s : State) c => s.complete c 0) s
  (was.effectGo s).replay d

/-- WAKE_COMPLETE (R723): the memories whose check finds them LOST, in the form of PWR_DOM_STATUS. -/
def State.wakeComplete (s : State) (d : Fin 23) (lost : BitVec 12) : State :=
  let x := s.dom d
  if x.st ≠ .waking then s
  else
    let l := lost &&& lostMask d
    let s := if l = 0 then s else
      ((s.loseMemories d l).bump PWR_LOST d (popcount l)).post 0x0901 .severe 0
        (payOf ([d.val] ++ leBytes 2 l.toNat))
    (s.domOn d l)

/-- WAKE_COMPLETE. -/
def execWakeComplete (d : Fin 23) (lost : BitVec 12) (s : State) : Host.Outcome State Fault Refusal :=
  .next (s.wakeComplete d lost)

/-- Latched counters of a block read 0 for every selection below `n` (R754). -/
def State.clearLatched (s : State) (rs : List Reg) (n : Nat) : State :=
  rs.foldl (fun s r => (List.range n).foldl (fun s k => s.setRg r k 0) s) s

/-- The ports of NETA, NETB or TWIN and their directions start anew; the cages belong to CORE (R715,
R754). -/
def State.coldLinks (s : State) (ps : List Nat) : State :=
  ps.foldl (fun s p =>
    let s := s.setPort p { s.port p with lock := false, hiBer := false, up := false }
    { s with lnk.dirs := tset {} s.lnk.dirs p {} }.setRg LNK_ACYC_DEFER p 0) s

/-- The near axes' feedback and PWM start anew, with their ledgers (R754). -/
def State.coldNear (s : State) : State :=
  { s with fbs := [], pwms := [] }.clearLatched ([FB_CNT_L, FB_UP_ACC, FB_DN_ACC, FB_CNT_ADJ, FB_OBS,
    FB_ACC, FB_DISC] ++ (List.range 3).flatMap (fun k => [PWM_DIFF k, PWM_SATSUM k, PWM_CARRY_L k])) 8

/-- The acquisition units and the stream writer start anew, with their ledger; the rings keep their
indices (R754). -/
def State.coldAcq (s : State) : State :=
  { s with acqs := [], streams := s.streams.map (fun (p : Nat × Stream) =>
      (p.1, { head := p.2.head, tail := p.2.tail })) }.clearLatched
    [ACQ_SMP_PROD, ACQ_SMP_WR, ACQ_SMP_GAP, ACQ_SMP_PEND] 8

/-- The logic of a domain after its cold start (R725, R754). -/
def State.coldDomain (s : State) (d : Nat) : State :=
  if 3 ≤ d ∧ d ≤ 6 then
    let s := s.reloadIm (fun e => e / 6 == d - 3)
    (List.range 6).foldl (fun s i => s.setEng (6 * (d - 3) + i) (s.eng (6 * (d - 3) + i)).coldLdm) s
  else if 7 ≤ d ∧ d ≤ 14 then s.zeroBank d
  else if 15 ≤ d ∧ d ≤ 17 then
    s.coldLinks (if d = 17 then [4] else [2 * (d - 15), 2 * (d - 15) + 1])
  else if d = 20 then s.coldAcq
  else if d = 21 then s.coldNear
  else if d = 22 then { s with go := { fars := s.go.fars } }
  else s

/-- LEAVE_OFF_COMPLETE (R725): the cold start of a domain is complete. -/
def execLeaveOffComplete (d : Fin 23) (s : State) : Host.Outcome State Fault Refusal :=
  if (s.dom d).st ≠ .leavingOff then .next s else .next ((s.coldDomain d).domOn d 0)

/-- At a hinge point the domains that have reached ON are used, and their wakes complete (R722); the
banks of CAB4 to CAB7 have been without access for a cycle more (R727). -/
def State.domHinge (s : State) : State :=
  let s := (List.range 23).foldl (fun s d =>
    let x := s.dom d
    if x.st == .on && (!x.usable || x.wakeCmds ≠ []) then
      x.wakeCmds.foldl (fun (s : State) c => s.complete c 0)
        (s.setDom d { x with usable := true, wakeCmds := [] })
    else s) s
  [11, 12, 13, 14].foldl (fun s d =>
    let x := s.dom d
    if s.auto d && x.st == .on then s.setDom d { x with idle := min 65535 (x.idle + 1) } else s) s

/-! ## Power failure (R729, R747) -/

/-- Cyclic operation and every stage stop at once, with no output (R729, step 1). -/
def State.killAll (s : State) : State :=
  let s := (List.range 24).foldl (fun s e =>
    let x := s.eng e
    if x.run.isSome then s.setEng e { x with run := none, fin := none, xfer := none } else s) s
  { s with lnk.dirs := s.lnk.dirs.map (fun p => (p.1, { p.2 with txq := [] })), runs := [],
           cyc.running := false, cyc.stopPend := false, cyc.phase := .idle, cyc.held := [],
           host.polling := false }

/-- Domains go OFF, whatever transition they are in. -/
def State.cut (s : State) (ds : List Nat) : State :=
  ds.foldl (fun s d => s.setDom d { st := .off }) s

/-- Steps 1 to 5 of R729 without POWER_FAIL: the modules that source 12 maps trip, every grant falls,
the engage train leaves, the flush of a cause starts, and the domains go OFF. -/
def State.shutdown (s : State) (cause : Nat) : State :=
  let s := { s with pwr.failed := true }.killAll
  let s := (List.range 8).foldl (fun s m => s.pwmTrip m) s
  let s := s.guardPowerFail
  let s := s.cut [3, 4, 5, 6, 18, 20]
  let s := s.powerFlush cause
  s.effectGo (s.cut [15, 16, 17, 19, 21, 22])

/-- POWER_FAIL_TRIGGER (R729, R747): VIN below 16 V for 20 µs. The hold follows the flush, or comes at
once when the recorder has not recovered. -/
def State.powerFailTrigger (s : State) : State :=
  if s.pwr.failed || !s.isOn 1 then s
  else
    let s := (s.post 0x090A .stop 0).shutdown 3
    (if s.recd.flush.isSome then s else s.enterHold)

/-- POWER_FAIL_TRIGGER. -/
def execPowerFailTrigger (s : State) : Host.Outcome State Fault Refusal :=
  .next (s.powerFailTrigger)

end Sys2Proof.Machine
end

