-- ==== Sys2Proof/Machine/Startup.lean ====
section
/-! DEFINITION. Start-up, reset and boot (chapter 19). While the control die is in reset every domain
but AON counts as off, so that nothing on them answers. -/

namespace Sys2Proof.Machine

/-! ## What a reset keeps (R739) -/

/-- The host interface after a reset: a core reset keeps the link, the configuration space and the
MSI-X table. -/
def HostSt.afterReset (h : HostSt) (core : Bool) : HostSt :=
  if core then
    { speed := h.speed, width := h.width, msixEnable := h.msixEnable, msixFMask := h.msixFMask,
      msixMask := h.msixMask, msixPend := h.msixPend, msixTbl := h.msixTbl, epoch := h.epoch + 1 }
  else { epoch := h.epoch + 1 }

/-- MRAM keeps the images, their selection and the user region (R739). -/
def Fw.afterReset (f : Fw) : Fw :=
  { mram := f.mram, active := f.active, next := f.next, verified := f.verified, fallback := f.fallback,
    lpMram := f.lpMram }

/-- The chests stay, and a flush in progress goes on (R696, R737). -/
def RecSt.afterReset (r : RecSt) : RecSt :=
  { chest0 := r.chest0, chest1 := r.chest1, seq := r.seq, heldLogged := r.heldLogged,
    flush := r.flush.map (fun f => { f with cmds := [] }) }

/-- A port's balls keep their levels. -/
def Port.afterReset (p : Port) : Port := { modabs := p.modabs, los := p.los }

/-- The outputs that a running device drove take the states of reset (R737, R749): TXDIS and the brake
switches high-impedance, the GO outputs off. -/
def State.dropOutputs (s r : State) : State :=
  if !s.isOn 1 then r
  else
    let r := (s.effectGo r).driveVioc
    let r := if s.trig.low.isSome then r.out (.ball .trigIo .hiz) else r
    (List.range 16).foldl (fun (r : State) k =>
      let b := decide (8 ≤ k)
      if ((s.guard b).swOf (k % 8)).conducts then r.out (.ball (.brake (k % 8) (!b)) .hiz) else r) r

/-- The device in reset: everything at its reset value but what the reset keeps (R737, R739). -/
def State.intoReset (s : State) (core : Bool) : State :=
  let r : State :=
    { pending := s.pending, free := s.free, bt := s.bt, outputs := s.outputs
      host := s.host.afterReset core
      fw := s.fw.afterReset
      recd := s.recd.afterReset
      pwr := { s.pwr with dom := allOff }
      boot := { s.boot with st := .held, linkUp := s.boot.linkUp && core, coreReset := core }
      lnk := { ports := s.lnk.ports.map (fun p => (p.1, p.2.afterReset)) }
      twin := { claim := s.twin.claim }
      gA := s.gA.afterReset
      gB := s.gB.afterReset
      seals := { a := s.seals.a, b := s.seals.b, mism := s.seals.mism, sbtPass := s.seals.sbtPass } }
  (s.dropOutputs r.putDemands).mapToEn

/-- A reset of a cause (R739, R741): AON holds it until a recovery counts it. -/
def State.resetBy (s : State) (cause : Nat) (core : Bool) : State :=
  let r := s.intoReset core
  { r with boot.cause := cause, boot.causes := r.boot.causes ++ [cause] }

/-! ## RESET_N (R736, R737, R748) -/

/-- RESET_N reads as asserted. -/
def State.assertReset (s : State) : State :=
  if s.boot.resetN then s
  else
    let s := if s.isOn 1 then s.resetBy 1 false else s
    { s with boot.resetN := true, boot.heldSec := 0 }

/-- RESET_N_ASSERT (R737): RESET_N has been low for 10 µs. -/
def execResetNAssert (s : State) : Host.Outcome State Fault Refusal := .next s.assertReset

/-- An axis whose near axis hangs on a failed bank goes to TORQUE_OFF (R713). -/
def State.bankOff (s : State) (b c : Nat) : State :=
  match s.nearOf c with
  | some n => if n ∈ bankNears b then s.torqueOff c else s
  | none => s

/-- VIO_FAIL (R708, R713, R736): a bank is below 1.55 V for 10 µs. -/
def State.vioFail (s : State) (b : Fin 4) : State :=
  let s := { s with pwr.vioFail := s.pwr.vioFail ||| BitVec.ofNat 4 (2 ^ b.val) }
  if !s.isOn 1 then (if b.val = 3 then s.assertReset else s)
  else
    let s := s.post 0x0907 .severe 0 (payOf [b])
    let s := axisCtxs.foldl (fun s c => s.bankOff b c) s
    let s := if b.val = 2 then s.driveVioc else s
    if b.val = 3 then s.assertReset else s

/-- VIO_FAIL. -/
def execVioFail (b : Fin 4) (s : State) : Host.Outcome State Fault Refusal :=
  .next (s.vioFail b)

/-- RESET_RELEASE (R735, R746, step 3): the release instant. It is a cold start, which ends a chest's
FAILED (R700). -/
def execResetRelease (s : State) : Host.Outcome State Fault Refusal :=
  if s.isOn 1 || s.pwr.hold || s.pwr.failed || s.pwr.vioFail.getLsbD 3 then .next s
  else
    let rem := BitVec.ofNat 8 s.secNow
    .next { s with
      bt := 0, frac := 0, pwr.dom := [], recd.chest0.failed := false, recd.chest1.failed := false,
      boot := { s.boot with st := .released, resetN := false, releaseAt := 0, perstAt := 0,
                            secRem := rem, minAt := 0 } }.driveVioc

/-! ## Power-on and the hold (R730, R746) -/

/-- A POWER flush that the power loss cut short: an entry whose COMMIT word was not written. -/
def RecSt.cutShort (r : RecSt) (minutes : W32) : RecSt :=
  match r.flush with
  | some f =>
    if f.cause = 3 then
      let e : JEntry := ⟨f.seq, f.cause, f.pages, f.images, minutes, 0, false⟩
      { r with flush := none, chest0 := r.chest0.put e, chest1 := r.chest1.put e }
    else { r with flush := none }
  | none => r

/-- POWER_ON (R711, R746): VIN rises through 16 V, AON cold-starts and reads the straps, two bits a
bank. -/
def execPowerOn (straps : BitVec 8) (s : State) : Host.Outcome State Fault Refusal :=
  let r := s.intoReset false
  .next { r with
    bt := 0, recd := r.recd.cutShort s.boot.opMinutes
    pwr := { dom := allOff, straps := straps }
    boot := { st := .aon, causes := [0], cause := 0, wdCount := s.boot.wdCount, skip := s.boot.skip,
              perstN := s.boot.perstN } }

/-- HOLD_RESTART (R730): VIN has stayed above 17 V for 10 ms at a held device. -/
def execHoldRestart (s : State) : Host.Outcome State Fault Refusal :=
  if !s.pwr.hold then .next s
  else
    let r := s.resetBy 4 false
    .next { r with pwr.hold := false, pwr.failed := false }

/-! ## Software resets and the boot watchdog (R740, R744) -/

/-- The HOST flush that goes before a reset commits entries until no page is dirty (R742). -/
def State.commitAll : Nat → State → State
  | 0, s => s
  | n + 1, s =>
    match s.recd.flush with
    | none => s
    | some f =>
      let s := s.commitEntry f
      if s.recd.dirty = [] then s else State.commitAll n (s.nextEntry 5 [])

/-- Steps 1 to 6 of R729 with the HOST flush, then the reset (R740, R744). -/
def State.resetAfterFlush (s : State) (cause : Nat) (core : Bool) : State :=
  let s := ((s.shutdown 5).commitAll 64).resetBy cause core
  { s with pwr.failed := false }

/-- A write of SYS_RST with the key and exactly one of CORE and COLD (R740). -/
def rstKey (v : W32) (core : Bool) : Bool :=
  bitsOf v 15 8 == 0x5A && bitOf v 0 == core && bitOf v 1 == !core

/-- A write of SYS_RST (R740). -/
def State.writeRst (s : State) (v : W32) : State :=
  if !s.isOn 1 || s.pwr.failed then s
  else if rstKey v true then s.resetAfterFlush 3 true
  else if rstKey v false then s.resetAfterFlush 2 false
  else s

/-- SOFT_COLD_RESET (R740). -/
def execSoftColdReset (v : BitVec 32) (s : State) : Host.Outcome State Fault Refusal :=
  if rstKey v false then .next (s.writeRst v) else .next s

/-- SOFT_CORE_RESET (R740). -/
def execSoftCoreReset (v : BitVec 32) (s : State) : Host.Outcome State Fault Refusal :=
  if rstKey v true then .next (s.writeRst v) else .next s

/-- The later of release and the rising of PERST_N. -/
def Boot.linkFrom (b : Boot) : W64 := if b.releaseAt < b.perstAt then b.perstAt else b.releaseAt

/-- The count of boot watchdog resets in a row; after two the next start skips the image. -/
def State.countWatchdog (s : State) (n : Nat) : State :=
  { s with boot.wdCount := if 2 ≤ n then 0 else n, boot.skip := decide (2 ≤ n) }

/-- BOOT_WATCHDOG (R744): READY has not risen in 500 ms. Two in a row on one image make the next start
boot the other. -/
def State.bootWatchdog (s : State) : State :=
  if !s.isOn 1 || s.pwr.failed || s.host.ready || !s.boot.perstN then s
  else
    let s := s.upTo (s.boot.linkFrom + 500000000)
    let n := s.boot.wdCount + 1
    (s.resetAfterFlush 5 false).countWatchdog n

/-- BOOT_WATCHDOG. -/
def execBootWatchdog (s : State) : Host.Outcome State Fault Refusal :=
  .next (s.bootWatchdog)

/-! ## Boot (R743 to R746) -/

/-- The IM of every engine and the load buffer take the user region of MRAM (R104, R643). -/
def State.loadPrograms (s : State) : State :=
  { s with fw := { s.fw.loadIm s.fw.lpMram (fun _ => true) with buffer := s.fw.lpMram } }

/-- Boot firmware sets EN of the ring ports whose ring has AUTO_INTAKE (R479, R480). -/
def State.enablePorts (s : State) : State :=
  (List.range 4).foldl (fun s p =>
    if bitOf (s.rg RING_CTL (p / 2)) 0 && !s.portEn p then
      (s.setRg LNK_PORT_CTL p 1).driveTxdis p
    else s) s

/-- An image boots. -/
def State.bootImage (s : State) (b : Bool) : State :=
  let n := if b = s.fw.active then s.boot.wdCount else 0
  { s.loadPrograms.enablePorts with fw.active := b, boot.st := .checked, boot.skip := false, boot.wdCount := n }

/-- IMAGE_CHECK_COMPLETE (R743 to R746): whether images A and B pass their checks. A core reset reuses
the running image without a check. -/
def execImageCheckComplete (okA okB : Bool) (s : State) : Host.Outcome State Fault Refusal :=
  if s.boot.st ≠ .released || !s.isOn 1 then .next s
  else if s.boot.coreReset then .next { s.bootImage s.fw.active with boot.coreReset := false }
  else
    let sel := s.fw.next
    let ok (b : Bool) : Bool := if b then okB else okA
    if ok sel && (!s.boot.skip || !ok (!sel)) then .next (s.bootImage sel)
    else if ok (!sel) then
      let s := s.bootImage (!sel)
      .next { s with fw.next := !sel, fw.fallback := true, fw.verified := false, boot.cause := 6,
                     boot.causes := s.boot.causes ++ [6] }
    else .next { s with boot.st := .recovery, boot.skip := false }

/-- When READY rises (R746, step 9): 250 ms after release and after PERST_N; after a core reset 150 ms. -/
def State.readyAt (s : State) (core : Bool) : W64 :=
  if core then s.boot.releaseAt + 150000000 else s.boot.linkFrom + 250000000

/-- HOST_READY (R746). -/
def execHostReady (s : State) : Host.Outcome State Fault Refusal :=
  if s.host.ready || !s.boot.perstN || !(s.boot.st == .checked || s.boot.st == .recovery) || s.pwr.failed then
    .next s
  else
    let s := s.upTo (s.readyAt (s.boot.cause == 3))
    .next { s with host.ready := true, boot.wdCount := 0,
                   boot.st := if s.boot.st = .checked then .running else s.boot.st }

/-- PERST_N_RISE (R746): link training may start, and the boot watchdog's time runs. -/
def execPerstNRise (s : State) : Host.Outcome State Fault Refusal :=
  if s.boot.perstN then .next s else .next { s with boot.perstN := true, boot.perstAt := s.bt }

end Sys2Proof.Machine
end

