-- ==== Sys2Proof/Machine/Staging.lean ====
section
/-! DEFINITION. Staging: commits, their sets, and what applying one does (R764, R766 to R773). -/

namespace Sys2Proof.Machine

/-! ## Blocks and stages -/

/-- The staging state of a block. -/
def State.blk (s : State) (b : Nat) : Blk := tget {} s.blks b
def State.setBlk (s : State) (b : Nat) (x : Blk) : State := { s with blks := tset {} s.blks b x }

/-- BLK_STAGE_REFUSED (R766). -/
def STAGE_REFUSED (b : Fin 18) : Reg := ⟨blockBase b + 0x100C, .rc, 0, .none, [fd 31 0]⟩

/-- The block of a staged entry. -/
def entryBlk (k : Nat) : Nat := ((blockOf (k / 0x100000)).map Fin.val).getD 18

/-- The stage of a block differs from its active values. -/
def State.differs (s : State) (b : Nat) : Bool := s.stage.any (fun p => entryBlk p.1 == b)

/-- A block is PENDING or CHECKED. -/
def Blk.open_ (x : Blk) : Bool := x.state == .pending || x.state == .checked

/-- A staged write or a DISCARD is refused (R769). -/
def State.refuseStaged (s : State) (b : Fin 18) : State :=
  let s := s.bump (STAGE_REFUSED b)
  let x := s.blk b
  if x.refusedPosted then s
  else (s.setBlk b { x with refusedPosted := true }).post 0x0211 .info 0 (payOf [b.val])

/-- DISCARD (R766, R769). -/
def State.discard (s : State) (b : Fin 18) : State :=
  if (s.blk b).open_ then s.refuseStaged b
  else { s with stage := s.stage.filter (fun p => entryBlk p.1 != b.val) }

/-- The fetch cut-off of the coming hinge point has passed (R29). -/
def State.cutOff (s : State) : Bool :=
  s.cyc.running && (s.cyc.checked || decide (s.cyc.nextT0.toNat ≤ s.bt.toNat + s.hingeLead))

/-- COMMIT (R29, R767, R769, R772). -/
def State.commit (s : State) (b : Fin 18) : State :=
  let x := s.blk b
  if x.open_ then s
  else if !s.differs b then s.setBlk b { x with state := .applied, code := 0, field := 0 }
  else s.setBlk b { x with state := .pending, refusedPosted := false, late := s.cutOff }

/-- A write of BLK_STAGE_COMMIT (R766, R772). -/
def State.writeCommit (s : State) (b : Fin 18) (v : W32) : State :=
  let s := if bitOf v 1 then s.discard b else s
  if bitOf v 0 then s.commit b else s

/-- A write of SYS_COMMIT_ALL (R774). -/
def State.commitAllBlocks (s : State) (v : W32) : State :=
  if bitOf v 0 then
    ((List.finRange 18).filter (fun b => s.differs b.val)).foldl (fun s b => s.commit b) s
  else s

/-- The blocks in a state that satisfies `p`, in ascending index. -/
def State.blksWhere (s : State) (p : Blk → Bool) : List Nat := (List.range 18).filter (fun b => p (s.blk b))

/-! ## The check of a set (R767, R768) -/

/-- The machine with the stages of some blocks applied. -/
def State.applied (s : State) (bs : List Nat) : State :=
  let l := s.stage.filter (fun p => decide (entryBlk p.1 ∈ bs))
  let regs := l.foldl (fun m p => match entryReg p.1 with
    | some (r, _) => tset r.reset m p.1 p.2
    | none => m) s.regs
  { s with regs := regs, stage := s.stage.filter (fun p => !decide (entryBlk p.1 ∈ bs)) }

/-- A block of a set whose check passed. -/
def Blk.pass (x : Blk) : Blk := { x with state := .checked, code := 0, field := 0 }

/-- A block of a set whose check failed (R768). -/
def Blk.fail (x : Blk) (b : Nat) (code : BitVec 16) (c : Cand) : Blk :=
  if b = c.blk then { x with state := .failed, code := code, field := c.word }
  else { x with state := .failed, code := 0x0203, field := 0 }

/-- A commit set is checked (R767, R768). -/
def State.checkSet (s : State) (bs : List Nat) : State :=
  if bs = [] then s
  else match offending s (s.applied bs) bs with
    | none => bs.foldl (fun s b => s.setBlk b (s.blk b).pass) s
    | some (code, c) =>
      let s := bs.foldl (fun s b => s.setBlk b ((s.blk b).fail b code c)) s
      s.post 0x0210 .warn 0 (payOf ([c.blk] ++ leBytes 2 code.toNat ++ [0] ++ leBytes 4 c.word.toNat))

/-! ## What applying does -/

/-- The home engine of an enabled context no longer lies where its pin, or the pin of its keep set,
allows (R804). -/
def State.homeWrong (t : State) (c : Nat) : Bool :=
  let h := t.hdr c
  let e := (t.ctx c).home
  let set := if hdrKeep h = 0 then [] else t.enabledCtxs.filter (fun m => hdrKeep (t.hdr m) == hdrKeep h)
  let pins := (set.filterMap (fun m => pinCluster (t.hdr m)))
  (hdrPin h == 2 && e != hdrPinId h) || (hdrPin h == 1 && e / 6 != hdrPinId h) ||
    (match pins.head? with
      | some q => e / 6 != q
      | none => false)

/-- A context without a home. -/
def CtxSt.homeless (x : CtxSt) : CtxSt := { x with home := 31, aff := 31, disable := false, lostRuns := 0, busy := 0 }

/-- The next index of a near axis counts as its first (R261). -/
def State.firstIndex (s : State) (n : Nat) : State := s.setFb n { s.fb n with idxRef := none }

/-- A near axis of a context that becomes enabled looks for its first index again. -/
def State.firstIndexOf (t : State) (c : Nat) : State :=
  match t.nearOf c with
  | some n => t.firstIndex n
  | none => t

/-- Contexts become enabled, get their homes and are rehomed; others become disabled (R261, R804). -/
def State.effectDisp (s t : State) : State :=
  let news := allCtxs.filter (fun c => !s.ctxEn c && t.ctxEn c)
  let gone := allCtxs.filter (fun c => s.ctxEn c && !t.ctxEn c)
  let wrong := allCtxs.filter (fun c => s.ctxEn c && t.ctxEn c && t.homeWrong c)
  let t := (news ++ gone ++ wrong).foldl (fun t c => t.setCtx c (t.ctx c).homeless) t
  let t := (allCtxs.filter (fun c => decide (c ∈ news ++ wrong))).foldl (fun t c => t.assignHome c) t
  news.foldl (fun t c => t.firstIndexOf c) t

/-- A committed IDX_MODE, and what restarts the sigma-delta filters (R261, R277). -/
def State.effectFb (s t : State) : State :=
  (List.range 8).foldl (fun t n =>
    let t := if s.rf FB_CFG n 3 2 ≠ t.rf FB_CFG n 3 2 then t.firstIndex n else t
    if s.rf FB_SD_CFG n 8 0 ≠ t.rf FB_SD_CFG n 8 0 || s.rf FB_SD_CFG n 16 12 ≠ t.rf FB_SD_CFG n 16 12 ||
        bitOf (s.rg FB_CFG n) 11 ≠ bitOf (t.rg FB_CFG n) 11 || s.sdPeriod n ≠ t.sdPeriod n then
      t.setFb n { t.fb n with sdRestart := some t.bt }
    else t) t

/-- The fault matrix may trip a running module (R309, R311). -/
def State.effectPwm (t : State) : State :=
  (List.range 8).foldl (fun t m =>
    if (t.pwm m).st = .run && t.mapped m ≠ 0 then t.pwmTrip m else t) t

/-- A master source that is configured anew has no value yet (R345). -/
def State.effectPrf (s t : State) : State :=
  (List.range 16).foldl (fun t k =>
    if s.rg PRF_MS_CFG k ≠ t.rg PRF_MS_CFG k then
      t.setMs k { t.ms k with live.valid := false, fresh := false }
    else t) t

/-- EN of the ports (R409, R479, R808). -/
def State.effectLnk (s t : State) : State :=
  (List.range 5).foldl (fun t p =>
    if !s.portEn p && t.portEn p then t.driveTxdis p
    else if s.portEn p && !t.portEn p then
      let was := (t.port p).lock
      let t := (t.driveTxdis p).setPort p
        { t.port p with lock := false, hiBer := false, up := false }
      if was && decide (p < 4) then t.ringPortLost p else t
    else t) t

/-- RING_NODE_DIR of the nodes of a closed ring (R492): it takes effect at the next hinge point. -/
def State.effectRing (s t : State) : State :=
  (List.range 2).foldl (fun t r =>
    if (t.ring r).st ≠ .closed then t
    else (t.ring r).order.foldl (fun t n =>
      let sel := r * 256 + n
      if s.rg RING_NODE_DIR sel ≠ t.rg RING_NODE_DIR sel then
        t.delaySet r n (bitOf (t.rg RING_NODE_DIR sel) 0) false (t.cyc16 + 1)
      else t) t) t

/-- TWIN_CTL.EN (R559). -/
def State.effectTwin (s t : State) : State :=
  let a := bitOf (s.rg TWIN_CTL) 0
  let b := bitOf (t.rg TWIN_CTL) 0
  if !a && b then t.enterJoining else if a && !b then t.enterTwin .off 0 else t

/-- The staged values of a set take effect (R27 step 1, R767, R770). -/
def State.applySet (s : State) (bs : List Nat) : State :=
  if bs = [] then s else
  let t := s.applied bs
  let t := bs.foldl (fun t b => t.setBlk b { t.blk b with state := .applied }) t
  let t := s.effectDisp t
  let t := if s.rg TIME_CTL ≠ t.rg TIME_CTL then t.checkSrc else t
  let t := (s.effectFb t).effectPwm
  let t := s.effectGo (s.effectPrf t)
  s.effectTwin (s.effectRing (s.effectLnk t))

/-! ## Clusters that a set needs (R728) -/

/-- The clusters that count as available (R717). -/
def State.availClusters (s : State) : List Nat :=
  (List.range 4).filter (fun q => !((s.dom (3 + q)).hostOwned && (s.dom (3 + q)).down))

/-- The fewest clusters whose CAPACITY carries a LOAD. -/
def enough (load per : Nat) : Nat := ((List.range 5).find? (fun n => !overload load per n)).getD 4

/-- The clusters that must become ON before a set applies. -/
def State.needed (s : State) (bs : List Nat) : List Nat :=
  let t := s.applied bs
  let off := t.availClusters.filter (fun q => !s.isOn (3 + q))
  let on := t.availClusters.length - off.length
  let more := off.take (enough t.tpls.load (t.rf DISP_CYC_PERIOD 0 19 0) - on)
  let pins := t.enabledCtxs.filterMap (fun c => pinCluster (t.hdr c))
  off.filter (fun q => decide (q ∈ more) || decide (q ∈ pins))

/-- The checked blocks apply, or placement wakes the clusters that they wait for (R728). -/
def State.applyChecked (s : State) : State :=
  let bs := s.blksWhere (fun x => x.state == .checked)
  if bs = [] then s
  else match s.needed bs with
    | [] => s.applySet bs
    | qs => qs.foldl (fun s q =>
        if s.auto (3 + q) && (s.dom (3 + q)).st == .ret then
          (s.wakeDom (3 + q) []).post 0x0909 .info 0 (payOf [3 + q, 3])
        else s) s

/-! ## The commands -/

/-- STAGE_COMMIT (R767, R772): a write of BLK_STAGE_COMMIT with COMMIT set. -/
def execStageCommit (b : Fin 18) (discard : Bool) (s : State) : Host.Outcome State Fault Refusal :=
  if !s.isOn 1 then .next s else .next (s.writeCommit b (if discard then 3 else 1))

/-- STAGE_DISCARD (R766): a write of BLK_STAGE_COMMIT with DISCARD alone. -/
def execStageDiscard (b : Fin 18) (s : State) : Host.Outcome State Fault Refusal :=
  if !s.isOn 1 then .next s else .next (s.writeCommit b 2)

/-- SYS_COMMIT_ALL (R774). -/
def execSysCommitAll (v : BitVec 32) (s : State) : Host.Outcome State Fault Refusal :=
  if !s.isOn 1 then .next s else .next (s.commitAllBlocks v)

/-- The pending set of the coming hinge point is checked at T0 − HINGE_LEAD (R29, R767). -/
def State.commitCheck (s : State) : State :=
  ({ s with cyc.checked := true }).checkSet (s.blksWhere (fun x => x.state == StageState.pending && !x.late))

/-- COMMIT_SET_CHECK (R767). -/
def execCommitSetCheck (s : State) : Host.Outcome State Fault Refusal :=
  if s.cyc.running && !s.cyc.checked then
    .next ((s.upTo (s.cyc.nextT0 - BitVec.ofNat 64 s.hingeLead)).commitCheck)
  else .next s

/-- STAGE_IDLE_APPLY (R771): while cycles are stopped. -/
def execStageIdleApply (s : State) : Host.Outcome State Fault Refusal :=
  if !s.isOn 1 then .next s
  else
    if s.cyc.running then .next s
    else .next (s.checkSet (s.blksWhere (fun x => x.state == StageState.pending))).applyChecked

end Sys2Proof.Machine
end

