-- ==== Sys2Proof/Machine/Cycle.lean ====
section
/-! DEFINITION. The control cycle: start and stop, the sample instant, the carrier train, the deadline,
the drain and the scrubber (R12 to R56, R245, R802). -/

namespace Sys2Proof.Machine

/-! ## Start and stop (R14 to R16) -/

/-- The state with DISP_CYC_CTL.RUN set or cleared. -/
def State.setRun1 (s : State) (on : Bool) : State :=
  let v := s.rg DISP_CYC_CTL
  s.setRg DISP_CYC_CTL 0 (if on then v ||| 1 else v &&& ~~~ (1 : W32))

/-- A write of 1 to RUN (R14). -/
def State.cycleRun (s : State) : State :=
  let s := s.setRun1 true
  if s.cyc.running then { s with cyc.stopPend := false }
  else { s with cyc.running := true, cyc.stopPend := false, cyc.checked := false,
                cyc.nextT0 := s.firstT0, cyc.phase := .idle }

/-- A write of 0 to RUN (R15, R16). -/
def State.cycleStop (s : State) : State :=
  if s.anyAxis then s.post 0x0C03 .warn 0
  else
    let s := s.setRun1 false
    if s.cyc.running then { s with cyc.stopPend := true } else s

/-- DISP_CYC_CTL written whole (R14 to R16, R59). -/
def State.writeCycCtl (s : State) (v : W32) : State :=
  let n := bitsOf v 11 8
  let s := if n = 0 then s
    else s.setRg DISP_CYC_CTL 0 ((s.rg DISP_CYC_CTL &&& ~~~ (0xF00 : W32)) ||| BitVec.ofNat 32 (n * 256))
  if bitOf v 0 then s.cycleRun else s.cycleStop

/-- CYCLE_RUN (R14): a write of DISP_CYC_CTL with RUN = 1. -/
def execCycleRun (limit : BitVec 4) (s : State) : Host.Outcome State Fault Refusal :=
  if !s.isOn 1 then .next s else .next (s.writeCycCtl (BitVec.ofNat 32 (limit.toNat * 256 + 1)))

/-- CYCLE_STOP (R15, R16): a write of DISP_CYC_CTL with RUN = 0. -/
def execCycleStop (limit : BitVec 4) (s : State) : Host.Outcome State Fault Refusal :=
  if !s.isOn 1 then .next s else .next (s.writeCycCtl (BitVec.ofNat 32 (limit.toNat * 256)))

/-! ## The sample instant and the carrier train (R31, R34, R245) -/

/-- The near axes whose contexts run in this cycle, by context and near-axis number. -/
def State.nearRuns (s : State) : List (Nat × Nat) :=
  axisCtxs.filterMap (fun c => if (s.run c).isSome then (s.nearOf c).map (fun n => (c, n)) else none)

/-- One near axis is sampled, whether or not its context runs in this cycle (R31, R241): the latch, and
for the axis whose context runs the axis inputs (R384), and the master sources that name it. -/
def State.sampleNear (s : State) (n : Nat) : State :=
  let c := s.ctxOfNear n
  let s := s.latchNear n
  (if c = 0 || (s.run c).isNone then s else s.writeAxin c).produceNear n

/-- SAMPLE_INSTANT (R31, R241 to R247, R344, R384, R651): every near axis is sampled, and the contexts that
run in this cycle have their tokens 40 ns later. `lines` gives the levels of the near-axis
balls and field inputs that acquisition samples. -/
def State.takeSamples (s : State) (lines : List (Nat × Bool)) : State :=
  let s := { s with cyc.sampled := true }.upTo s.sampleInstant
  let s := if s.nearOn then (List.range 8).foldl State.sampleNear s else s
  let s := s.sampleRows lines
  let s := s.upTo (s.sampleInstant + 40)
  s.nearRuns.foldl (fun s p => if s.nearOn && !s.sdAny p.2 then s.extArrive p.1 1 else s) s

/-- SAMPLE_INSTANT. -/
def execSampleInstant (lines : List (Nat × Bool)) (s : State) : Host.Outcome State Fault Refusal :=
  if s.cyc.running && s.cyc.phase == .active && !s.cyc.sampled then .next (s.takeSamples lines)
  else .next s

/-- CARRIER_TRAIN (R34, R439): on every active direction the carriers, then the I/O train. -/
def State.carrierTrain (s : State) : State :=
  if s.cyc.running && s.cyc.phase == .active && !s.cyc.trainSent then
    let s := { s with cyc.trainSent := true }.upTo
      (s.cyc.t0 + BitVec.ofNat 64 (s.rf DISP_CYC_CARRIER 0 19 0))
    ((List.range 4).foldl (fun s d => if s.dirActive d then s.sendTrains d else s) s)
  else s

/-- CARRIER_TRAIN. -/
def execCarrierTrain (s : State) : Host.Outcome State Fault Refusal :=
  .next (s.carrierTrain)

/-! ## The deadline (R42 to R48, R802) -/

/-- The cause of a stage that the deadline ends (R46): 1 RUN, 2 READY, 3 WAIT; 0: it has ended. -/
def StageRun.cause (x : StageRun) : Nat :=
  match x.st with
  | .running => 1
  | .ready => 2
  | .credit => 2
  | .waiting => 3
  | _ => 0

/-- An engine loses the stage it runs, with no state saved. A transfer that is still under way has copied
none of its words (DESIGN CHOICE, log 155). -/
def State.dropEngine (s : State) (e : Nat) : State :=
  match (s.eng e).run with
  | some r =>
    let s := s.freeEngine e r
    s.setEng e { s.eng e with xfer := none }
  | none => s

/-- A stage that the deadline ends (R42, R43, R45, R74): killed, or withdrawn with its tokens
dropped; its duty set is discarded. -/
def State.abortStage (s : State) (c i : Nat) (x : StageRun) : State :=
  let s := if x.st == .running then s.dropEngine x.eng else s.dropTok x.delivered
  let s := s.setStage c i { x with st := .killed, delivered := 0, duty := none }
  let s := s.holeEmpty c i x
  let tag := if stwFlowEn (s.stw c i) then x.tag else 0xFFFF
  (s.bump DISP_CYC_ABORTS).trace .abort c i (b2n x.cancelRun) (if x.st == .running then x.eng else 0xFF) x.cause tag

/-- The foreground stages of a run that have not ended, in ascending number. -/
def State.openStages (s : State) (c : Nat) : List (Nat × StageRun) :=
  match s.run c with
  | some r => r.stages.filterMap (fun q => match q.2 with
    | some x => if x.cause ≠ 0 && !stwBg (s.stw c q.1) then some (q.1, x) else none
    | none => none)
  | none => []

/-- The overrun counter of a cause. -/
def ovrReg (cause : Nat) : Reg :=
  if cause = 1 then DISP_CTX_OVR_RUN else if cause = 2 then DISP_CTX_OVR_READY else DISP_CTX_OVR_WAIT

/-- The overrun of a context (R42, R46, R60, R803). -/
def State.overrun (s : State) (c : Nat) (stages : List (Nat × StageRun)) : State :=
  match leastBy (fun (p : Nat × StageRun) => p.2.cause) stages with
  | none => s
  | some (i, x) =>
    let n := s.cyc.count.toNat % 65536
    let s := stages.foldl (fun s p => s.abortStage c p.1 p.2) s
    let s := match s.run c with
      | some r => s.setRun c { r with aborted := true }
      | none => s
    let s := (s.bump (ovrReg x.cause) c).setCtx c { s.ctx c with lastCause := x.cause }
    s.post 0x0C01 .warn c (payOf [i, x.cause, n % 256, n / 256])

/-- Every slot that is still occupied is released as a hole (R42, R48, R802). -/
def State.holeAll (s : State) : State :=
  s.flows.foldl (fun s p => (tkeys (s.flow p.1).slots).foldl (fun s t => s.holeSlot p.1 t) s) s

/-- The items of a direction whose cells have not started are discarded (R802). -/
def State.dropTx (s : State) (d : Nat) : State :=
  let x := s.dir d
  let s := s.setDir d { x with txq := [], txFree := (x.txq.head?.map TxItem.at_).getD x.txFree }
  x.txq.foldl (fun s q =>
    let s := if d < 4 then s.bump LNK_TX_BAD d else s
    if q.first then s.loseRun q.ctx else s) s

/-- Every direction's, and the twin port's. -/
def State.dropAllTx (s : State) : State := (List.range 5).foldl State.dropTx s

/-- The count of consecutive lost outputs ends with a run whose output was not lost (R47). -/
def State.endLost (s : State) : State :=
  s.runs.foldl (fun s p =>
    if decide (p.1 ≤ 128) && decide (p.1 ∉ s.cyc.lost) then
      s.setCtx p.1 { s.ctx p.1 with lostRuns := 0 }
    else s) s

/-- T0 + DEADLINE (R42 to R47, R802, DISP_CYC_DONE_MAX). -/
def State.deadlineAbort (s : State) : State :=
  let s := (s.upTo (s.cyc.t0 + BitVec.ofNat 64 s.deadline)).startAll
  let overs := (tkeys s.runs).filter (fun c => decide (s.openStages c ≠ []))
  let s := overs.foldl (fun s c => s.overrun c (s.openStages c)) s
  let s := s.holeAll.dropAllTx.noteLost.endLost
  let s := if overs = [] then s else s.bump DISP_CYC_OVR
  let done := if overs = [] then (s.cyc.lastEnd - s.cyc.t0).toNat else s.deadline
  { (s.keepMax DISP_CYC_DONE_MAX 0 done).loadMax with cyc.phase := .drain }

/-- DEADLINE_ABORT. -/
def execDeadlineAbort (s : State) : Host.Outcome State Fault Refusal :=
  if s.cyc.running && s.cyc.phase == .active then .next s.deadlineAbort else .next s

/-- T0 + DEADLINE + 200 ns (R48, R501, R557): the sill begins. -/
def State.drainComplete (s : State) : State :=
  let s := s.upTo (s.cyc.t0 + BitVec.ofNat 64 (s.deadline + 200))
  { s with cyc.phase := .sill, cyc.moves := 0 }.healEchoes.sendDigests

/-- DRAIN_COMPLETE. -/
def State.drainCompleteRow (s : State) : State :=
  if s.cyc.running && s.cyc.phase == .drain then s.drainComplete else s

/-- DRAIN_COMPLETE. -/
def execDrainComplete (s : State) : Host.Outcome State Fault Refusal :=
  .next (s.drainCompleteRow)

/-- What is left of a cycle up to its sill. -/
def State.finishCycle (s : State) : State :=
  let s := if s.cyc.phase == .active then s.deadlineAbort else s
  if s.cyc.phase == .drain then s.drainComplete else s

/-! ## Background stages (R54, R753) -/

/-- A background stage that has not ended at the next T0 is killed or withdrawn. -/
def State.abortBg (s : State) (c i : Nat) : State :=
  match s.stage? c i with
  | none => s
  | some x =>
    if x.st == .running then
      let s := (s.dropEngine x.eng).setStage c i { x with st := .killed, duty := none }
      (s.bump DISP_CYC_BG_ABORT).post 0x0C06 .info c
    else if x.cause ≠ 0 then
      ((s.issue x.delivered).dropTok x.delivered).setStage c i { x with st := .killed, delivered := 0 }
    else s

/-- Every background stage at the end of a sill. -/
def State.abortAllBg (s : State) : State :=
  (tkeys s.runs).foldl (fun s c => (List.range 16).foldl (fun s i =>
    if stwBg (s.stw c i) then s.abortBg c i else s) s) s

/-! ## The end of cyclic operation (R15) -/

/-- CYCLE_END (R15). -/
def State.cycleEnd (s : State) : State :=
  if s.cyc.running && s.cyc.stopPend then
    let s := s.finishCycle
    let s := (s.upTo s.cyc.nextT0).endRows.resolveGroups.abortAllBg
    let s := { s with runs := [], cyc.running := false, cyc.stopPend := false,
                      cyc.phase := .idle, cyc.checked := false }
    let late (s : State) (b : Nat) : State := s.setBlk b { s.blk b with late := false }
    ((List.range 18).foldl late s).applyChecked
  else s

/-- CYCLE_END. -/
def execCycleEnd (s : State) : Host.Outcome State Fault Refusal :=
  .next (s.cycleEnd)

/-! ## The scrubber (R51, R52) -/

/-- The scrubber has been through every bank that is ON: a sweep is counted (R52). -/
def State.sweepDone (s : State) : State :=
  if ((List.range 8).filter (fun k => s.isOn (7 + k))).all (fun k => tget false s.cyc.sweeps k) then
    { s with cyc.sweeps := [] }.bump CAB_SWEEPS
  else s

/-- What the decoder finds in the cabinet is counted, and the address of an uncorrectable word kept
(R775). -/
def State.countCabEcc (s : State) (ecc : Ecc) (a : Nat) : State :=
  match ecc with
  | .ok => s
  | .corrected => s.bump CAB_ECC_CORR
  | .uncorrectable => (s.bump CAB_ECC_UE).setRg CAB_UE_ADDR 0 (BitVec.ofNat 32 (2 ^ 31 + a))

/-- SCRUB_GRANT (R51, R775): a bank grants the scrubber its next 64-byte unit; `ecc` and `w` say what
the decoder finds there and in which word. -/
def State.scrubGrant (s : State) (bank : Fin 8) (ecc : Ecc) (w : Fin 16) : State :=
  let b := bank.val
  if !s.isOn (7 + b) then s
  else
    let u := tget 0 s.cyc.scrubUnit b
    let s := s.countCabEcc ecc (b * 0x100000 + u * 64 + 4 * w.val)
    let v := (u + 1) % 16384
    let s := { s with cyc.scrubUnit := tset 0 s.cyc.scrubUnit b v }
    if v = 0 then { s with cyc.sweeps := tset false s.cyc.sweeps b true }.sweepDone else s

/-- SCRUB_GRANT. -/
def execScrubGrant (bank : Fin 8) (ecc : Ecc) (w : Fin 16) (s : State) : Host.Outcome State Fault Refusal :=
  .next (s.scrubGrant bank ecc w)

end Sys2Proof.Machine
end

