-- ==== Sys2Proof/Machine/Link.lean ====
section
/-! DEFINITION. The link's rows: cages, returning cells, forwarding, ADMIN transactions, tunnels and
signal points (R410 to R450, R642). -/

namespace Sys2Proof.Machine

/-! ## Cages (R410) -/

/-- A write of LNK_I2C_CTL for the selected port: the register keeps the word, and GO starts a
transaction to 0x50 or 0x51 unless one runs. -/
def State.i2cCtl (s : State) (v : W32) : State :=
  let p := s.rf LNK_PORT_SEL 0 2 0
  let s := if p ≤ 4 then s.setRg LNK_I2C_CTL p (v &&& LNK_I2C_CTL.mask) else s
  let dev := bitsOf v 7 1
  if !bitOf v 31 || (s.port p).i2c.isSome || !(dev == 0x50 || dev == 0x51) || 4 < p then s
  else
    let t : I2c := ⟨bitOf v 30, BitVec.ofNat 7 dev, v.extractLsb' 8 8, v.extractLsb' 16 8⟩
    (s.setPort p { s.port p with i2c := some t }).out
      (.i2c p t.read dev t.reg.toNat t.data.toNat)

/-- SFP_I2C_READ: the word written has RD set. -/
def execSfpI2CRead (v : BitVec 32) (s : State) : Host.Outcome State Fault Refusal :=
  if !s.isOn 1 then .next s else .next (s.i2cCtl (v ||| 0x40000000))

/-- SFP_I2C_WRITE: the word written has RD clear. -/
def execSfpI2CWrite (v : BitVec 32) (s : State) : Host.Outcome State Fault Refusal :=
  if !s.isOn 1 then .next s else .next (s.i2cCtl (v &&& 0xBFFFFFFF))

/-- SFP_I2C_DONE: the transaction of a port ends. -/
def execSfpI2CDone (p : Fin 5) (nack : Bool) (data : BitVec 8) (s : State) :
    Host.Outcome State Fault Refusal :=
  let x := s.port p
  match x.i2c with
  | none => .next s
  | some t =>
    .next (s.setPort p { x with i2c := none, nack := nack,
                                data := if t.read && !nack then data else x.data })

/-! ## Own cells that return (R422, R423, R493, R496) -/

/-- The port that an own cell of a ring left on: that of its node's direction; a cell to every node
leaves on the first port when the clockwise direction alone is active. -/
def State.leftOn (s : State) (r : Nat) (c : Cell) : Option Nat :=
  if c.node = 255 then
    (if s.dirActive (2 * r) && !s.dirActive (2 * r + 1) then some (2 * r) else none)
  else some (s.dirOf r c.node.toNat)

/-- What the return of an own cell tells of its ring: the mark is back, or the ring is broken. -/
def State.ownBack (s : State) (p : Nat) (c : Cell) : State :=
  let r := p / 2
  let x := s.ring r
  let s := if c.typ = 0xA7 && c.seq = s.cyc16 then s.setRing r { x with markSeen := true } else s
  if x.st = .closed && x.locate.isNone && s.leftOn r c = some p then s.breakRing r none none else s

/-- The common part of a cell's return: the port receives, the checks are counted, and the cell is an
own one with a correct HCRC. The last part says that its CRC holds. -/
def State.ownRx (s : State) (p : Nat) (rx : RxCell) : State × Bool × Bool :=
  if !s.rxOn p then (s, false, false)
  else
    let (s, h, ok) := s.checkRx p rx
    if h && rx.cell.claim == s.twin.claim then (s.ownBack p rx.cell, true, ok) else (s, false, false)

/-- OWN_CELL_RETURN (R422, R423): an own cell is removed from the ring. -/
def State.ownCellReturn (s : State) (p : Fin 4) (rx : RxCell) : State :=
  let c := rx.cell
  let (s, own, _) := s.ownRx p rx
  if own && (c.typ == 0xA1 || c.typ == 0xA5) then
    ((s.bump LNK_STRIP_MISS p).post 0x0502 .warn 0
      (payOf ([p.val / 2, c.node.toNat, c.typ.toNat, 0] ++ leBytes 2 c.seq.toNat)))
  else s

/-- OWN_CELL_RETURN. -/
def execOwnCellReturn (p : Fin 4) (rx : RxCell) (s : State) : Host.Outcome State Fault Refusal :=
  .next (s.ownCellReturn p rx)

/-- CELL_FORWARD (R422, R559): a cell of another CLAIM goes on; it tells of the partner. -/
def State.cellForward (s : State) (p : Fin 4) (rx : RxCell) : State :=
  let c := rx.cell
  if !s.rxOn p then s
  else
    let (s, h, _) := s.checkRx p rx
    if !knownType c.typ || h && c.claim == s.twin.claim then s
    else
      let s := if s.portOn (p.val ^^^ 1) && !s.silent then s.out (.forward (p.val ^^^ 1) rx) else s
      if !h || s.twin.st = .off then s
      else
        let s := { s with twin.otherSeen := true,
                          twin.cellSeen := s.twin.cellSeen || c.claim == s.twin.partner }
        if s.twin.st = .active && s.twin.claim < c.claim then
          ((s.enterTwin .refused 3).post 0x0706 .warn 0)
        else s

/-- CELL_FORWARD. -/
def execCellForward (p : Fin 4) (rx : RxCell) (s : State) : Host.Outcome State Fault Refusal :=
  .next (s.cellForward p rx)

/-- CARRIER_RETURN (R434). -/
def execCarrierReturn (p : Fin 4) (rx : RxCell) (s : State) : Host.Outcome State Fault Refusal :=
  let c := rx.cell
  let (s, own, _) := s.ownRx p rx
  if own && c.typ == 0xA2 then
    let src := (axisCtxs.find? (fun k =>
      s.farOf k == some (p.val / 2, c.node.toNat, c.axs.toNat))).getD 0
    .next ((s.bump LNK_CARRIER_RET p).post 0x0503 .warn src
      (payOf ([p.val / 2, c.node.toNat] ++ leBytes 2 c.seq.toNat)))
  else .next s

/-! ## UP cells (R35, R36, R419, R430 to R433) -/

/-- The context of a ring's node and slot (R431). -/
def State.ctxOfSlot (s : State) (r n sl : Nat) : Nat :=
  let cs := axisCtxs.filter (fun k => s.farOf k == some (r, n, sl))
  ((cs.find? s.ctxEn).or cs.head?).getD 0

/-- A 16-bit field as a signed number times 2^k in a 24-bit word. -/
def scale16 (v k : Nat) : W24 := BitVec.ofInt 24 ((BitVec.ofNat 16 v).toInt * 2 ^ k)

/-- The inbox words of one record at payload octet `o` (R427, R431). -/
def inboxWords (c : Cell) (o : Nat) (duty : Bool) : List W24 :=
  let pos := BitVec.ofNat 32 (c.be o 4)
  let idx := BitVec.ofNat 32 (c.be (o + 4) 4)
  let nst := c.be (o + 8) 2
  let w (k : Nat) : Nat := c.be (o + 10 + 2 * k) 2
  [pos.setWidth 24, BitVec.ofNat 24 (bitsOf pos 31 24 + nst * 256), idx.setWidth 24,
   BitVec.ofNat 24 (bitsOf idx 31 24), (if duty then 0 else scale16 (w 0) 8), 0, 0, 0, 0, 0] ++
  (if duty then [scale16 (w 0) 8, scale16 (w 1) 8, scale16 (w 2) 8, BitVec.ofNat 24 (w 3 * 128)]
   else [0, 0, 0, 0]) ++ [0, 0]

/-- The faults that a record reports of an enabled axis (R433). -/
def State.nodeFaults (s : State) (ctx r n : Nat) (nst : BitVec 16) : State :=
  let pay := payOf ([r, n, s.slotOf ctx, 0] ++ leBytes 2 nst.toNat)
  if !(s.ax ctx).enabled then s
  else
    let s := if bitOf nst 7 then s.post 0x0504 .severe ctx pay else s
    let s := if bitOf nst 10 then s.post 0x0505 .severe ctx pay else s
    if bitOf nst 7 || bitOf nst 10 then s.torqueOff ctx else s

/-- One record of a valid UP cell reaches its context (R197, R383, R384, R431, R433). -/
def State.takeRecord (s : State) (c : Cell) (r n ctx o : Nat) : State :=
  let nst := BitVec.ofNat 16 (c.be (o + 8) 2)
  let ws : List W24 := Sys2Proof.Machine.inboxWords c o (s.isDuty ctx)
  let s := ws.zipIdx.foldl (fun (s : State) p => s.setDrawer ctx (0x3E0 + p.2) p.1) s
  let s := s.setDrawer ctx 0x3F0 (c.fbAge.setWidth 24)
  let s := match (s.ax ctx).outAge with
    | some v => s.setDrawer ctx 0x3F1 v
    | none => s
  let s := s.setAx ctx { s.ax ctx with encFault := bitOf nst 7, drvFault := bitOf nst 10 }
  let s := (List.range 3).foldl (fun s k => s.setWb ctx k (bitOf nst (3 + k))) s
  let s := (s.farInputs ctx nst (BitVec.ofNat 32 (c.be o 4))).writeAxin ctx
  s.nodeFaults ctx r n nst

/-- The direction that a node's UP cell confirms. -/
def State.confirmDir (s : State) (r n : Nat) : State :=
  let x := s.ring r
  let nd := x.node n
  match nd.pend with
  | some p => if nd.second == p.second then
      s.setRing r (x.setNode n { nd with pend := if p.repeat_ then none else some p })
    else s
  | none => s

/-- The next record of an UP cell, for one context. -/
def State.takeNext (c : Cell) (r n : Nat) (t : State × Nat) (ctx : Nat) : State × Nat :=
  (t.1.takeRecord c r n ctx t.2, t.2 + t.1.recLen ctx)

/-- The records of a valid UP cell, and their tokens (R35). -/
def State.takeUp (s : State) (c : Cell) (r : Nat) (k : Carrier) : State :=
  let n := c.node.toNat
  let f : BitVec 3 := BitVec.ofNat 3 (b2n (bitOf c.flags 3) + b2n (bitOf c.flags 2) * 2 +
    b2n (bitOf c.flags 1) * 4)
  let s := { s with lnk.nodeFlags := tset 0 s.lnk.nodeFlags (nodeKey r n) f }
  let s := s.confirmDir r n
  let s := (k.ctxs.foldl (State.takeNext c r n) (s, 0)).1
  k.ctxs.foldl (fun s ctx => s.extTok ctx 1) s

/-- An UP cell that is no token (R36): counted, and the first one of a cycle posted. -/
def State.lateUp (s : State) (c : Cell) (r : Nat) (crcBad : Bool) : State :=
  let s := s.bump DISP_CYC_LATE_UP
  if s.cyc.upSeen then s
  else
    let at_ := if crcBad then 0xFFFFFFFF else s.bt32.toNat
    { s with cyc.upSeen := true }.post 0x0C04 .info (s.ctxOfSlot r c.node.toNat c.axs.toNat)
      (payOf ([r, c.node.toNat] ++ leBytes 2 c.seq.toNat ++ leBytes 4 at_))

/-- UP_CELL_ARRIVAL (R36, R432). -/
def execUpCellArrival (p : Fin 4) (rx : RxCell) (s : State) : Host.Outcome State Fault Refusal :=
  let c := rx.cell
  let r := p.val / 2
  let (s, own, ok) := s.ownRx p rx
  if !own || c.typ ≠ 0xA3 then .next s
  else if !ok then .next (s.lateUp c r true)
  else if s.cyc.phase ≠ .active || c.seq ≠ s.cyc16 ||
      s.cyc.t0 + BitVec.ofNat 64 s.deadline ≤ s.bt then .next (s.lateUp c r false)
  else match tget none s.lnk.carriers (nodeKey r c.node.toNat) with
    | some k => if k.axs = c.axs && k.sub = c.sub then .next (s.takeUp c r k)
        else .next (s.bump LNK_RX_FRAMING p)
    | none => .next (s.bump LNK_RX_FRAMING p)

/-! ## Cyclic I/O and discarded cells (R414, R440) -/

/-- IO_UP_RETURN (R440). -/
def execIoUpReturn (p : Fin 4) (rx : RxCell) (s : State) : Host.Outcome State Fault Refusal :=
  let c := rx.cell
  let (s, own, ok) := s.ownRx p rx
  if own && ok && c.typ == 0xA6 && !c.empty then
    .next ((List.range 5).foldl (fun s j =>
      let key := ioKey (p.val / 2) c.node.toNat (c.axs.toNat % 4) j
      { s with lnk.ioIn := tset 0 s.lnk.ioIn key (BitVec.ofNat 32 (c.be (4 * j) 4)) }) s)
  else .next s

/-- CELL_DISCARD (R414): what the receiver discards of a run of blocks. -/
def execCellDiscard (r : RxBlocks) (s : State) : Host.Outcome State Fault Refusal :=
  if s.portOn r.port then .next (s.bump LNK_RX_FRAMING r.port (framing 0 r.blocks)) else .next s

/-! ## ADMIN (R442 to R444, R488, R499, R546) -/

/-- A transaction ends: its waiting empty cells go. -/
def State.dropAdm (s : State) (a : Adm) : State :=
  let s := { s with lnk.adm := s.lnk.adm.filter (fun b => b.seq != a.seq) }
  (List.range 4).foldl (fun s d =>
    let x := s.dir d
    s.setDir d { x with wait := x.wait.filter (fun b => !(b.cls == 1 && b.cell.seq == a.seq)) }) s

/-- RING_STATE of a node in ENUM has been read (R488): an ENUM_ERR ends the enumeration. -/
def State.enumRead (s : State) (r n v : Nat) : State :=
  let x := s.ring r
  if x.st ≠ .enum then s
  else if v.testBit 4 then s.enumMismatch r
  else
    let x := { x with enumLeft := x.enumLeft.filter (· ≠ n) }
    let s := s.setRing r x
    if x.enumLeft = [] then s.enterMeasure r else s

/-- The filled response of a transaction (R443, R478). -/
def State.admDone (s : State) (a : Adm) (c : Cell) : State :=
  let s := s.dropAdm a
  let st := c.oct 5
  let v : W32 := BitVec.ofNat 32 (c.be 8 4)
  match a.what with
  | .host cmd =>
    if st ≠ 0 then s.complete cmd (BitVec.ofNat 16 (0x0510 + st))
    else if a.write then s.complete cmd 0
    else s.complete cmd 0 (payOf ((List.range a.count).flatMap (fun i =>
      leBytes 4 (c.be (8 + 4 * i) 4))))
  | .enumState => s.enumRead a.ring a.node v.toNat
  | .gap => s.gapState a.ring a.node v.toNat
  | .mixCount => if st = 0 then s.mixCount a.ring a.node v else s
  | .mixSlots _ => if st = 0 then s.mixSlots a.ring a.node v else s
  | .plain => s

/-- ADMIN_RESPONSE (R443). -/
def execAdminResponse (p : Fin 4) (rx : RxCell) (s : State) : Host.Outcome State Fault Refusal :=
  let c := rx.cell
  let (s, own, ok) := s.ownRx p rx
  if !own || !ok || c.typ ≠ 0xA8 || c.empty then .next s
  else
    match s.lnk.adm.find? (fun a => a.ring == p.val / 2 && a.node == c.node.toNat &&
        a.seq == c.seq && c.sub == (if a.write then 0x82 else 0x81)) with
    | some a => .next (s.admDone a c)
    | none => .next s

/-- ADMIN_TIMEOUT (R443): the oldest transaction whose time has passed. -/
def State.adminTimeout (s : State) : State :=
  match s.lnk.adm.find? (fun a => decide (s.rf LNK_ADM 0 7 0 ≤ a.age)) with
  | none => s
  | some a =>
    let s := (s.dropAdm a).bump LNK_ADM_TIMEOUT
    match a.what with
    | .host cmd => (s.complete cmd 0x0510)
    | .enumState => (if (s.ring a.ring).st = .enum then s.enumMismatch a.ring else s)
    | .gap => (s.gapState a.ring a.node 0)
    | _ => s

/-- ADMIN_TIMEOUT. -/
def execAdminTimeout (s : State) : Host.Outcome State Fault Refusal :=
  .next (s.adminTimeout)

/-- ACYCLIC_CELL_START (R449). -/
def execAcyclicCellStart (d : Fin 4) (s : State) : Host.Outcome State Fault Refusal :=
  .next (s.startAcyc d)

/-! ## TUNNEL (R445) -/

/-- A frame is discarded and counted once (R445). -/
def State.tunDrop (s : State) (key : Nat) (t : Tun) : State :=
  let s := { s with lnk.tuns := tset {} s.lnk.tuns key { t with bad := true } }
  if t.bad then s else (s.bump LNK_TUN_DROP).post 0x0506 .info 0

/-- TUNNEL_SEGMENT (R445): a filled segment of a node returns. -/
def State.tunnelSegment (s : State) (p : Fin 4) (rx : RxCell) : State :=
  let c := rx.cell
  let r := p.val / 2
  let n := c.node.toNat
  let (s, own, ok) := s.ownRx p rx
  if !own || !ok || c.typ ≠ 0xA9 || c.empty then s
  else
    let key := nodeKey r n
    let t : Tun := tget {} s.lnk.tuns key
    let t : Tun := if c.sub = 0 && (c.seq ≠ t.frame || t.next = 0 && !t.bad) then { frame := c.seq } else t
    if c.sub.toNat ≠ t.next || c.seq ≠ t.frame || t.bad then
      (s.tunDrop key (if c.seq = t.frame then t else { frame := c.seq }))
    else
      let h := c.be 0 2
      let bs := (List.range (min 22 (h % 32))).map (fun i => BitVec.ofNat 8 (c.oct (2 + i)))
      let t := { t with next := t.next + 1, bytes := t.bytes ++ bs }
      if h.testBit 15 then
        ({ s with lnk.tuns := terase s.lnk.tuns key }.out (.frame r n t.bytes))
      else { s with lnk.tuns := tset {} s.lnk.tuns key t }

/-- TUNNEL_SEGMENT. -/
def execTunnelSegment (p : Fin 4) (rx : RxCell) (s : State) : Host.Outcome State Fault Refusal :=
  .next (s.tunnelSegment p rx)

/-! ## Signal points (R441, R642) -/

/-- The image word of a point of node 0: `true` for the output image, and its key. -/
def ioPoint (r pt : Nat) : Option (Bool × Nat) :=
  let dec (b : Nat) : Option Nat :=
    let o := pt - b
    let n := o / 32
    let k := o / 8 % 4
    let j := o % 8
    if 1 ≤ n && n ≤ 254 && j ≤ 4 then some (ioKey r n k j) else none
  if 0x4000 ≤ pt && pt < 0x8000 then (dec 0x4000).map (fun k => (true, k))
  else if 0x8000 ≤ pt && pt < 0xC000 then (dec 0x8000).map (fun k => (false, k))
  else none

/-- The points that a signal descriptor names, or `none` when one does not exist. -/
def ioPoints (r pt n : Nat) : Option (List (Bool × Nat)) :=
  (List.range n).mapM (fun i => ioPoint r (pt + i))

/-- SIG_READ at its hinge point (R642). -/
def applySigRead (d : Desc) (cmd : Option Cmd) (s : State) : State :=
  let r := bitsOf d.target 24 24
  let n := bitsOf d.target 23 16
  let pt := bitsOf d.target 15 0
  let k := bitsOf d.aux 2 0
  if k = 0 || 4 < k then s.complete cmd 0x0513
  else if n = 255 then s.complete cmd 0x0515
  else if n = 0 then
    match ioPoints r pt k with
    | none => s.complete cmd 0x0511
    | some ps => s.complete cmd 0 (payOf (ps.flatMap (fun p =>
        leBytes 4 (tget 0 (if p.1 then s.lnk.ioOut else s.lnk.ioIn) p.2).toNat)))
  else s.startAdm r n pt k false [] (.host cmd)

/-- SIG_READ. -/
def execSigRead (d : Desc) (s : State) : Host.Outcome State Fault Refusal :=
  .next (s.runDesc 0x42 d applySigRead)

/-- SIG_WRITE at its hinge point (R444, R642). -/
def applySigWrite (d : Desc) (cmd : Option Cmd) (s : State) : State :=
  let r := bitsOf d.target 24 24
  let n := bitsOf d.target 23 16
  let pt := bitsOf d.target 15 0
  let k := bitsOf d.aux 2 0
  let vals := (List.range k).map (fun i => BitVec.ofNat 32 (d.le (16 + 4 * i) 4))
  if k = 0 || 4 < k then s.complete cmd 0x0513
  else if n = 0 then
    match ioPoints r pt k with
    | none => s.complete cmd 0x0511
    | some ps =>
      if ps.any (fun p => !p.1) then s.complete cmd 0x0512
      else
        let s := (ps.zip vals).foldl (fun s p =>
          { s with lnk.ioOut := tset 0 s.lnk.ioOut p.1.2 p.2 }) s
        s.complete cmd 0
  else
    let s := s.startAdm r n pt k true vals (.host cmd)
    if n = 255 then s.complete cmd 0 else s

/-- SIG_WRITE. -/
def execSigWrite (d : Desc) (s : State) : Host.Outcome State Fault Refusal :=
  .next (s.runDesc 0x43 d applySigWrite)

end Sys2Proof.Machine
end

