-- ==== Sys2Proof/Machine/Hinge.lean ====
section
/-! DEFINITION. The hinge point (R18, R26 to R30, R54, R87, R551, R625 to R628), and CTX_CANCEL (R91 to
R95). -/

namespace Sys2Proof.Machine

/-! ## CTX_CANCEL (R91, R95) -/

/-- A context runs in the cycle of this hinge point (R19, R555). -/
def State.dueNow (s : State) (c : Nat) : Bool := hdrRuns (s.hdr c) s.cyc.count.toNat && s.twinRuns c

/-- CTX_CANCEL in step 2 of a hinge point: every stage of the run that begins there is marked. (What
DISP_CTX_STATUS.CANCEL_PENDING shows is the model's choice: log 152.) -/
def applyCancelMark (d : Desc) (cmd : Option Cmd) (s : State) : State :=
  let c := descCtx d
  if s.dueNow c then (s.setCtx c { s.ctx c with cancelPend := true }).complete cmd 0
  else s.complete cmd 0x0C20

/-- CTX_CANCEL on a run whose counters have been reloaded. -/
def applyCtxCancel (d : Desc) (cmd : Option Cmd) (s : State) : State :=
  let c := descCtx d
  if (s.run c).isSome then (s.cancelRun c).complete cmd 0 else s.complete cmd 0x0C20

/-- CTX_CANCEL (R91, R95). -/
def execCtxCancel (d : Desc) (s : State) : Host.Outcome State Fault Refusal :=
  .next (s.runDesc 0x01 d applyCtxCancel)

/-! ## Descriptors by opcode -/

/-- Classes 0x0 to 0x4. -/
def applyLow (op : Nat) : Desc → Option Cmd → State → State :=
  match op with
  | 0x01 => applyCancelMark
  | 0x08 => applyTimeSlew
  | 0x09 => applyTimeStep
  | 0x10 => applyAxEnable
  | 0x11 => applyAxMove
  | 0x12 => applyAxVel
  | 0x13 => applyAxPvt
  | 0x14 => applyAxStep
  | 0x15 => applyAxGear
  | 0x16 => applyAxCam
  | 0x17 => applyAxStop
  | 0x18 => applyHmStart
  | 0x19 => applyHmSet
  | 0x1A => applyLimClear
  | 0x20 => applyGrpDefine
  | 0x21 => applyGrpLine
  | 0x22 => applyGrpArc
  | 0x23 => applyGrpHold
  | 0x24 => applyGrpResume
  | 0x25 => applyGrpFlush
  | 0x2E => applyGrpPos
  | 0x30 => applyEvArm
  | 0x31 => applyEvDisarm
  | 0x32 => applyCtLoad
  | 0x33 => applyCtCommit
  | 0x34 => applyVmSet
  | 0x40 => applyParamWrite
  | 0x41 => applyParamRead
  | 0x42 => applySigRead
  | 0x43 => applySigWrite
  | _ => applyNop

/-- The descriptors of a channel of the Brake Guard. -/
def applyGuard (b : Bool) (k : Nat) : Desc → Option Cmd → State → State :=
  match k with
  | 0 => applyGWrite b
  | 1 => applyGRead b
  | 2 => applyGConfirm b
  | 3 => applyGPassword b
  | 4 => applyGFaultClear b
  | 5 => applyGaSbt
  | 6 => applyGLogRead b
  | _ => applyGReset b

/-- Classes 0x5 to 0xF. -/
def applyHigh (op : Nat) : Desc → Option Cmd → State → State :=
  if 0x80 ≤ op && op < 0xA0 then applyGuard (decide (0x90 ≤ op)) (op % 16)
  else match op with
    | 0x50 => applyAcqStart
    | 0x51 => applyAcqStop
    | 0x52 => applyAcqArm
    | 0x53 => applyAcqDisarm
    | 0x54 => applyAcqForce
    | 0x60 => applyPwrSet
    | 0x70 => applyTwinSwitch
    | 0x71 => applyTwinClaim
    | 0x72 => applyTwinRejoin
    | 0xF0 => applyFwWrite
    | 0xF1 => applyFwVerify
    | 0xF2 => applyFwActivate
    | 0xF3 => applyFwInfo
    | 0xF4 => applyLpLoad
    | 0xF5 => applyLpCommit
    | 0xF6 => applyRecFlush
    | 0xF7 => applyRecRead
    | _ => applyNop

/-- What a descriptor of an opcode does at its hinge point. -/
def applyOp (op : BitVec 8) : Desc → Option Cmd → State → State :=
  if op.toNat < 0x50 then applyLow op.toNat else applyHigh op.toNat

/-! ## The host's queue (R26, R624 to R628) -/

/-- What a hinge point makes of a fetched descriptor. -/
inductive Verdict where
  | now
  | fail
  | wait (f : Fetched)
  deriving DecidableEq, Repr

/-- Master position `p` is at or above EXEC_AT (R365, R627). -/
def atOrAbove (p x : W32) : Bool := decide ((p - x).toNat < 2 ^ 31)

/-- An EXEC = 2 descriptor that meets R26 (R627, R628). -/
def State.judgeMaster (s : State) (f : Fetched) : Verdict :=
  let k := descMs f.d
  let v := (s.ms k).froz
  if s.msKind k = 0 then .fail
  else if !v.valid then
    if s.rf PRF_MS_CFG k 19 16 ≤ f.novalid then .fail else .wait { f with novalid := f.novalid + 1 }
  else
    let p : W32 := v.pos.extractLsb' 32 32
    let now := atOrAbove p f.d.execAt
    match f.ref with
    | none => .wait { f with ref := some p, novalid := 0 }
    | some r =>
      let was := atOrAbove r f.d.execAt
      if (if descDown f.d then was && !now else !was && now) then .now
      else .wait { f with ref := some p, novalid := 0 }

/-- The instant from which an EXEC = 1 descriptor may take effect (R626). -/
def Fetched.notBefore (f : Fetched) : Nat :=
  if descExec f.d = 1 && bt32After f.d.execAt (f.bt.setWidth 32) then
    f.bt.toNat + (f.d.execAt - f.bt.setWidth 32).toNat
  else 0

/-- A descriptor fetched before the cut-off of this hinge point (R26). At a hinge point whose own commit
changes HINGE_LEAD the cut-off is that of the value committed there (DESIGN CHOICE, log 151). -/
def State.inTime (s : State) (f : Fetched) : Bool := decide (f.bt.toNat + s.hingeLead < s.cyc.t0.toNat)

/-- What this hinge point makes of a fetched descriptor that nothing on its SQ holds back. -/
def State.verdict (s : State) (f : Fetched) : Verdict :=
  match f.applySeq with
  | some k =>
    if (s.cyc16 - k).toNat < 2 ^ 15 then (if descExec f.d = 2 then s.judgeMaster f else .now) else .wait f
  | none =>
    if !s.inTime f then .wait f
    else if descExec f.d = 2 then s.judgeMaster f
    else if f.notBefore ≤ s.cyc.t0.toNat then .now
    else .wait f

/-- A descriptor of the host's own that only the fetch cut-off keeps from this hinge point (R26, R57):
one whose EXEC_AT does not name a later one. -/
def State.onlyLate (s : State) (f : Fetched) : Bool :=
  f.applySeq.isNone && !s.inTime f && (descExec f.d != 1 || decide (f.notBefore ≤ s.cyc.t0.toNat))

/-- One descriptor of the queue: the SQs that are held back, and the descriptors that stay. -/
def State.hingeOne (a : State × List Nat × List Fetched) (f : Fetched) : State × List Nat × List Fetched :=
  let (s, held, kept) := a
  let q := f.d.sq.toNat
  let defers := s.onlyLate f && f.refuse.isNone && kept.all (fun g => g.d.sq != f.d.sq || s.onlyLate g)
  if q ∈ held then (if defers then s.bump DISP_CYC_CMD_DEFER else s, held, kept ++ [f])
  else match f.refuse with
    | some st => ((s.breakSegs f.op f.d).complete (some f.cmd) st, held, kept)
    | none => match s.verdict f with
      | .now => (s.atHinge f.op f.d (some f.cmd) (applyOp f.op), held, kept)
      | .fail => ((s.breakSegs f.op f.d).complete (some f.cmd) 0x0106, held, kept)
      | .wait g => (if defers then s.bump DISP_CYC_CMD_DEFER else s, held ++ [q], kept ++ [g])

/-- Step 2 of R27 for the host's own descriptors, in fetch order. -/
def State.hingeQueue (s : State) : State :=
  let r := s.host.queue.foldl State.hingeOne (s, [], [])
  { r.1 with host.queue := r.2.2 }

/-- A mirrored descriptor applies on the standby (R551, R555, R565). -/
def State.hingeMirror (s : State) (m : Mirror) : State :=
  let (c, s) := s.fetchCmd m.op m.d
  let s := s.breakSegs m.op m.d
  let s := (applyOp m.op m.d (some c) s).bump TWIN_MIRRORED
  let x := descCtx m.d
  if m.op = 0x10 && bitOf m.d.aux 0 && s.twinned x && decide (x ∉ s.twin.synced) then
    { s with twin.synced := s.twin.synced ++ [x] }
  else s

/-- Step 2 of R27 for the descriptors that the active has mirrored, in MSEQ order. -/
def State.hingeMirrors (s : State) : State :=
  let due := s.twin.queue.filter (fun m => m.applySeq == s.cyc16)
  let s := { s with twin.queue := s.twin.queue.filter (fun m => m.applySeq != s.cyc16) }
  due.foldl (fun s m => s.hingeMirror m) s

/-! ## The reload of the counters (R27 step 3, R30, R87, R91) -/

/-- The next tag of every flow, and the stages of a run with their tags (R87). -/
def State.makeStages (s : State) (c : Nat) (next : Table Nat) : Table Nat × Table (Option StageRun) :=
  (List.range (s.nst c)).foldl (fun (a : Table Nat × Table (Option StageRun)) i =>
    let w := s.stw c i
    let f := stwFlow w
    let tag := if stwFlowEn w then tget 0 a.1 f else 0
    let x : StageRun := { cnt := stwInit w, tag := tag }
    (if stwFlowEn w then tset 0 a.1 f (tag + stwItems w) else a.1, tset none a.2 i (some x))) (next, [])

/-- The slots that a stage reserves on its flow (R87). -/
def State.reserve (s : State) (c i : Nat) (x : StageRun) : State :=
  let w := s.stw c i
  if !stwFlowEn w then s
  else
    let f := stwFlow w
    let y := (List.range (stwItems w)).foldl (fun (y : Flow) j =>
      let sl : ShelfSlot := { ctx := c, stage := i, first := stwOut w && j == 0 }
      { y with slots := tset none y.slots (x.tag + j) (some sl), next := x.tag + j + 1 }) (s.flow f)
    s.setFlow f y

/-- The slots of a stage that runs in this cycle. -/
def State.reserveOf (s : State) (c i : Nat) : State :=
  match s.stage? c i with
  | some x => s.reserve c i x
  | none => s

/-- The runs of this cycle, in ascending context. -/
def State.makeRuns (s : State) : State :=
  let due := allCtxs.filter s.dueNow
  let (_, runs) := due.foldl (fun (a : Table Nat × Table (Option CtxRun)) c =>
    let (next, st) := s.makeStages c a.1
    (next, tset none a.2 c (some { stages := st }))) ([], [])
  let s := { s with runs := runs, flows := [] }
  due.foldl (fun s c => (List.range (s.nst c)).foldl (fun s i => s.reserveOf c i) s) s

/-- The stages that are ready at once, and the runs that a CTX_CANCEL has marked (R91). -/
def State.startStage (s : State) (c i : Nat) : State :=
  match s.stage? c i with
  | some x => if x.cnt = 0 then s.makeReady c i x else s
  | none => s
def State.startRuns (s : State) : State :=
  (tkeys s.runs).foldl (fun s c =>
    if (s.ctx c).cancelPend then
      (s.setCtx c { s.ctx c with cancelPend := false }).cancelRun c
    else (List.range 16).foldl (fun s i => s.startStage c i) s) s

/-- The tokens held since the deadline (R30, R72). -/
def State.deliverHeld (s : State) : State :=
  s.cyc.held.foldl (fun s t => s.extTok t.ctx t.kind) { s with cyc.held := [] }

/-! ## The hinge point (R27) -/

/-- FB_CNT_SET takes effect (R257). -/
def State.applyCntSet (s : State) (n : Nat) : State :=
  match (s.fb n).cntSet with
  | some v => s.setFb n { (s.fb n).setCnt v with cntSet := none }
  | none => s
def State.applyCntSets (s : State) : State := (List.range 8).foldl State.applyCntSet s

/-- The contexts that a drawer error has disabled (R81). -/
def State.disableBad (s : State) : State :=
  allCtxs.foldl (fun s c =>
    if (s.ctx c).disable then
      let s := (s.setRg DISP_TPL_HDR_HI c (s.rg DISP_TPL_HDR_HI c &&& 0x7FFFFFFF)).setCtx c
        (s.ctx c).homeless
      if decide (c ≤ 128) && (s.ax c).enabled then s.torqueOff c else s
    else s) s

/-- The end of the old cycle at T0 (R18, R54, R652, R753), and the new one's count. -/
def State.nextCycle (s : State) : State :=
  let t0 := s.cyc.nextT0
  let s := (s.upTo t0).endRows.resolveGroups.abortAllBg.countWindow
  { s with
    runs := [], flows := []
    cyc.count := s.cyc.count + 1, cyc.t0 := t0, cyc.lastEnd := t0, cyc.phase := .active
    cyc.upSeen := false, cyc.taSeen := false, cyc.straySeen := false, cyc.badTxSeen := false
    cyc.checked := false, cyc.sampled := false, cyc.trainSent := false, cyc.lost := [], cyc.moves := 0 }

/-- Step 1 of R27: committed stages, and what waits for this T0 apart from descriptors. -/
def State.hingeStages (s : State) : State :=
  let s := s.applyChecked.disableBad
  let late (s : State) (b : Nat) : State := s.setBlk b { s.blk b with late := false }
  let s := (List.range 18).foldl late s
  let s := { s with cyc.nextT0 := s.cyc.t0 + BitVec.ofNat 64 (s.rf DISP_CYC_PERIOD 0 19 0) }
  (s.applyPends.twinAtT0.domHinge).applyCntSets

/-- What leaves and what is watched at T0 (R33, R448, R515, R556, R574, R577). -/
def State.hingeSends (s : State) : State :=
  let s := (((s.sendMarks.checkMap false).checkMap true).guardAtT0).sendHeart
  let s := (s.ringsAtT0.refillCredits).ageAdm
  { s with tm.stepFlag := false }

/-- DIR_CHANGE may be posted again in the new cycle (R264). -/
def State.clearPosted (s : State) : State :=
  (List.range 8).foldl (fun s n => s.setFb n { s.fb n with dirPosted := false }) s

/-- The hinge point (R27). -/
def State.hinge (s : State) : State :=
  let s := s.finishCycle
  let s := if s.cyc.checked then s
    else (s.upTo (s.cyc.nextT0 - BitVec.ofNat 64 s.hingeLead)).commitCheck
  let s := s.nextCycle.freezeMs.advanceAll
  let s := s.hingeStages.hingeMirrors.hingeQueue
  let s := s.makeRuns.startRuns.deliverHeld
  (s.pwmHinge.hingeSends.clearPosted).noteLost

/-- HINGE_POINT (R27): the next T0. -/
def State.hingePoint (s : State) : State :=
  if s.cyc.running && !s.cyc.stopPend then s.hinge else s

/-- HINGE_POINT. -/
def execHingePoint (s : State) : Host.Outcome State Fault Refusal :=
  .next (s.hingePoint)

end Sys2Proof.Machine
end

