-- ==== Sys2Proof/Machine/LeAlu.lean ====
section
/-! DEFINITION. The meanings of the ALU/control-slot rows: each is the issue of a word whose slot holds it. -/

namespace Sys2Proof.Machine

/-- ADD (R127). -/
def execAdd (io : Issue) (d : BitVec 5) (a : BitVec 5) (b : BitVec 5) (s : State) :
    Host.Outcome State Fault Refusal :=
  .next (issueWord io (withAlu io.other (.r3 .add d a b)) s)

/-- ADC (R127). -/
def execAdc (io : Issue) (d : BitVec 5) (a : BitVec 5) (b : BitVec 5) (s : State) :
    Host.Outcome State Fault Refusal :=
  .next (issueWord io (withAlu io.other (.r3 .adc d a b)) s)

/-- SUB (R127). -/
def execSub (io : Issue) (d : BitVec 5) (a : BitVec 5) (b : BitVec 5) (s : State) :
    Host.Outcome State Fault Refusal :=
  .next (issueWord io (withAlu io.other (.r3 .sub d a b)) s)

/-- SBC (R127). -/
def execSbc (io : Issue) (d : BitVec 5) (a : BitVec 5) (b : BitVec 5) (s : State) :
    Host.Outcome State Fault Refusal :=
  .next (issueWord io (withAlu io.other (.r3 .sbc d a b)) s)

/-- AND (R181). -/
def execAnd (io : Issue) (d : BitVec 5) (a : BitVec 5) (b : BitVec 5) (s : State) :
    Host.Outcome State Fault Refusal :=
  .next (issueWord io (withAlu io.other (.r3 .and d a b)) s)

/-- OR (R181). -/
def execOr (io : Issue) (d : BitVec 5) (a : BitVec 5) (b : BitVec 5) (s : State) :
    Host.Outcome State Fault Refusal :=
  .next (issueWord io (withAlu io.other (.r3 .or d a b)) s)

/-- XOR (R181). -/
def execXor (io : Issue) (d : BitVec 5) (a : BitVec 5) (b : BitVec 5) (s : State) :
    Host.Outcome State Fault Refusal :=
  .next (issueWord io (withAlu io.other (.r3 .xor d a b)) s)

/-- LSL (R183). -/
def execLsl (io : Issue) (d : BitVec 5) (a : BitVec 5) (b : BitVec 5) (s : State) :
    Host.Outcome State Fault Refusal :=
  .next (issueWord io (withAlu io.other (.r3 .lsl d a b)) s)

/-- LSR (R183). -/
def execLsr (io : Issue) (d : BitVec 5) (a : BitVec 5) (b : BitVec 5) (s : State) :
    Host.Outcome State Fault Refusal :=
  .next (issueWord io (withAlu io.other (.r3 .lsr d a b)) s)

/-- ASR (R183). -/
def execAsr (io : Issue) (d : BitVec 5) (a : BitVec 5) (b : BitVec 5) (s : State) :
    Host.Outcome State Fault Refusal :=
  .next (issueWord io (withAlu io.other (.r3 .asr d a b)) s)

/-- MIN (R181). -/
def execMin (io : Issue) (d : BitVec 5) (a : BitVec 5) (b : BitVec 5) (s : State) :
    Host.Outcome State Fault Refusal :=
  .next (issueWord io (withAlu io.other (.r3 .min d a b)) s)

/-- MAX (R181). -/
def execMax (io : Issue) (d : BitVec 5) (a : BitVec 5) (b : BitVec 5) (s : State) :
    Host.Outcome State Fault Refusal :=
  .next (issueWord io (withAlu io.other (.r3 .max d a b)) s)

/-- ABS (R181). -/
def execAbs (io : Issue) (d : BitVec 5) (a : BitVec 5) (s : State) :
    Host.Outcome State Fault Refusal :=
  .next (issueWord io (withAlu io.other (.abs d a)) s)

/-- CMP (R181). -/
def execCmp (io : Issue) (a : BitVec 5) (b : BitVec 5) (s : State) :
    Host.Outcome State Fault Refusal :=
  .next (issueWord io (withAlu io.other (.cmp a b)) s)

/-- MOV (R181). -/
def execMov (io : Issue) (d : BitVec 5) (a : BitVec 5) (s : State) :
    Host.Outcome State Fault Refusal :=
  .next (issueWord io (withAlu io.other (.mov d a)) s)

/-- ADDI (R181). -/
def execAddi (io : Issue) (d : BitVec 5) (imm : BitVec 11) (s : State) :
    Host.Outcome State Fault Refusal :=
  .next (issueWord io (withAlu io.other (.ri .addi d imm)) s)

/-- MOVI (R181). -/
def execMovi (io : Issue) (d : BitVec 5) (imm : BitVec 11) (s : State) :
    Host.Outcome State Fault Refusal :=
  .next (issueWord io (withAlu io.other (.ri .movi d imm)) s)

/-- MOVHI (R181). -/
def execMovhi (io : Issue) (d : BitVec 5) (imm : BitVec 11) (s : State) :
    Host.Outcome State Fault Refusal :=
  .next (issueWord io (withAlu io.other (.ri .movhi d imm)) s)

/-- ORI (R181). -/
def execOri (io : Issue) (d : BitVec 5) (imm : BitVec 11) (s : State) :
    Host.Outcome State Fault Refusal :=
  .next (issueWord io (withAlu io.other (.ri .ori d imm)) s)

/-- LSLI (R181). -/
def execLsli (io : Issue) (d : BitVec 5) (a : BitVec 5) (u : BitVec 5) (s : State) :
    Host.Outcome State Fault Refusal :=
  .next (issueWord io (withAlu io.other (.sh .lsl d a u)) s)

/-- LSRI (R181). -/
def execLsri (io : Issue) (d : BitVec 5) (a : BitVec 5) (u : BitVec 5) (s : State) :
    Host.Outcome State Fault Refusal :=
  .next (issueWord io (withAlu io.other (.sh .lsr d a u)) s)

/-- ASRI (R181). -/
def execAsri (io : Issue) (d : BitVec 5) (a : BitVec 5) (u : BitVec 5) (s : State) :
    Host.Outcome State Fault Refusal :=
  .next (issueWord io (withAlu io.other (.sh .asr d a u)) s)

/-- MVC_TO_CR (R184). -/
def execMvcToCr (io : Issue) (cr : BitVec 6) (x : BitVec 5) (s : State) :
    Host.Outcome State Fault Refusal :=
  .next (issueWord io (withAlu io.other (.mvcTo cr x)) s)

/-- MVC_FROM_CR (R184). -/
def execMvcFromCr (io : Issue) (d : BitVec 5) (cr : BitVec 6) (s : State) :
    Host.Outcome State Fault Refusal :=
  .next (issueWord io (withAlu io.other (.mvcFrom d cr)) s)

/-- MOVI_CR (R184). -/
def execMoviCr (io : Issue) (cr : BitVec 6) (imm : BitVec 10) (s : State) :
    Host.Outcome State Fault Refusal :=
  .next (issueWord io (withAlu io.other (.moviCr cr imm)) s)

/-- MOVI_LC (R181). -/
def execMoviLc (io : Issue) (u : BitVec 16) (s : State) :
    Host.Outcome State Fault Refusal :=
  .next (issueWord io (withAlu io.other (.moviLc u)) s)

/-- MVX_FROM_ACC (R126). -/
def execMvxFromAcc (io : Issue) (d : BitVec 5) (k : BitVec 2) (part : BitVec 2) (s : State) :
    Host.Outcome State Fault Refusal :=
  .next (issueWord io (withAlu io.other (.mvxFrom d k part)) s)

/-- MVX_TO_ACC (R126). -/
def execMvxToAcc (io : Issue) (k : BitVec 2) (part : BitVec 2) (x : BitVec 5) (s : State) :
    Host.Outcome State Fault Refusal :=
  .next (issueWord io (withAlu io.other (.mvxTo k part x)) s)

/-- MOV_ACC (R172). -/
def execMovAcc (io : Issue) (d : BitVec 5) (m : BitVec 2) (k : BitVec 2) (s : State) :
    Host.Outcome State Fault Refusal :=
  .next (issueWord io (withAlu io.other (.movAcc d m k)) s)

/-- BR (R135). -/
def execBr (io : Issue) (target : BitVec 13) (s : State) :
    Host.Outcome State Fault Refusal :=
  .next (issueWord io (withAlu io.other (.br target)) s)

/-- BCC (R188). -/
def execBcc (io : Issue) (cond : BitVec 3) (target : BitVec 13) (s : State) :
    Host.Outcome State Fault Refusal :=
  .next (issueWord io (withAlu io.other (.bcc cond target)) s)

/-- DBNZ (R136). -/
def execDbnz (io : Issue) (target : BitVec 13) (s : State) :
    Host.Outcome State Fault Refusal :=
  .next (issueWord io (withAlu io.other (.dbnz target)) s)

/-- BRR (R137). -/
def execBrr (io : Issue) (target : BitVec 13) (s : State) :
    Host.Outcome State Fault Refusal :=
  .next (issueWord io (withAlu io.other (.brr target)) s)

/-- JR (R181). -/
def execJr (io : Issue) (x : BitVec 5) (s : State) :
    Host.Outcome State Fault Refusal :=
  .next (issueWord io (withAlu io.other (.jr x)) s)

/-- TEND (R138). -/
def execTend (io : Issue) (mask : BitVec 16) (s : State) :
    Host.Outcome State Fault Refusal :=
  .next (issueWord io (withAlu io.other (.tend mask)) s)

/-- RETE (R149). -/
def execRete (io : Issue) (s : State) :
    Host.Outcome State Fault Refusal :=
  .next (issueWord io (withAlu io.other (.rete)) s)

/-- BRK (R191). -/
def execBrk (io : Issue) (u : BitVec 16) (s : State) :
    Host.Outcome State Fault Refusal :=
  .next (issueWord io (withAlu io.other (.brk u)) s)

end Sys2Proof.Machine
end

