-- ==== Sys2Proof/Machine/LeCmac.lean ====
section
/-! DEFINITION. The meanings of the CMAC-slot rows: each is the issue of a word whose slot holds it. -/

namespace Sys2Proof.Machine

/-- CLRA (R164). -/
def execClra (io : Issue) (k : BitVec 2) (s : State) :
    Host.Outcome State Fault Refusal :=
  .next (issueWord io (withCmac io.other (.clra k)) s)

/-- MPY (R164). -/
def execMpy (io : Issue) (i : Bool) (neg : Bool) (k : BitVec 2) (x : BitVec 5) (y : BitVec 5) (s
    : State) :
    Host.Outcome State Fault Refusal :=
  .next (issueWord io (withCmac io.other (.mpy i neg k x y)) s)

/-- MAC (R164). -/
def execMac (io : Issue) (i : Bool) (neg : Bool) (k : BitVec 2) (x : BitVec 5) (y : BitVec 5) (s
    : State) :
    Host.Outcome State Fault Refusal :=
  .next (issueWord io (withCmac io.other (.mac i neg k x y)) s)

/-- MPY2 (R164). -/
def execMpy2 (io : Issue) (i : Bool) (neg : Bool) (k : BitVec 2) (x : BitVec 5) (y : BitVec 5)
    (s : State) :
    Host.Outcome State Fault Refusal :=
  .next (issueWord io (withCmac io.other (.mpy2 i neg k x y)) s)

/-- MAC2 (R164). -/
def execMac2 (io : Issue) (i : Bool) (neg : Bool) (k : BitVec 2) (x : BitVec 5) (y : BitVec 5)
    (s : State) :
    Host.Outcome State Fault Refusal :=
  .next (issueWord io (withCmac io.other (.mac2 i neg k x y)) s)

/-- CMPY (R118). -/
def execCmpy (io : Issue) (i : Bool) (neg : Bool) (k : BitVec 2) (x : BitVec 5) (y : BitVec 5)
    (s : State) :
    Host.Outcome State Fault Refusal :=
  .next (issueWord io (withCmac io.other (.cmpy i neg k x y)) s)

/-- CMAC (R118). -/
def execCmac (io : Issue) (i : Bool) (neg : Bool) (k : BitVec 2) (x : BitVec 5) (y : BitVec 5)
    (s : State) :
    Host.Outcome State Fault Refusal :=
  .next (issueWord io (withCmac io.other (.cmac i neg k x y)) s)

/-- CMPY_C (R118). -/
def execCmpyC (io : Issue) (i : Bool) (neg : Bool) (k : BitVec 2) (x : BitVec 5) (y : BitVec 5)
    (s : State) :
    Host.Outcome State Fault Refusal :=
  .next (issueWord io (withCmac io.other (.cmpyC i neg k x y)) s)

/-- CMAC_C (R118). -/
def execCmacC (io : Issue) (i : Bool) (neg : Bool) (k : BitVec 2) (x : BitVec 5) (y : BitVec 5)
    (s : State) :
    Host.Outcome State Fault Refusal :=
  .next (issueWord io (withCmac io.other (.cmacC i neg k x y)) s)

/-- ADDA (R166). -/
def execAdda (io : Issue) (neg : Bool) (k : BitVec 2) (j : BitVec 2) (s : State) :
    Host.Outcome State Fault Refusal :=
  .next (issueWord io (withCmac io.other (.adda neg k j)) s)

/-- ASRA (R167). -/
def execAsra (io : Issue) (k : BitVec 2) (sh : BitVec 5) (s : State) :
    Host.Outcome State Fault Refusal :=
  .next (issueWord io (withCmac io.other (.asra k sh)) s)

/-- ASLA (R167). -/
def execAsla (io : Issue) (k : BitVec 2) (sh : BitVec 5) (s : State) :
    Host.Outcome State Fault Refusal :=
  .next (issueWord io (withCmac io.other (.asla k sh)) s)

/-- LDA (R164). -/
def execLda (io : Issue) (i : Bool) (neg : Bool) (k : BitVec 2) (x : BitVec 5) (s : State) :
    Host.Outcome State Fault Refusal :=
  .next (issueWord io (withCmac io.other (.lda i neg k x)) s)

end Sys2Proof.Machine
end

