-- ==== Sys2Proof/Machine/LeMem.lean ====
section
/-! DEFINITION. The meanings of the memory-slot rows: each is the issue of a word whose slot holds it. -/

namespace Sys2Proof.Machine

/-- LD (R171). -/
def execLd (io : Issue) (d : BitVec 5) (am : AddrMode) (s : State) :
    Host.Outcome State Fault Refusal :=
  .next (issueWord io (withMem io.other (.ld d am)) s)

/-- ST (R171). -/
def execSt (io : Issue) (x : BitVec 5) (am : AddrMode) (s : State) :
    Host.Outcome State Fault Refusal :=
  .next (issueWord io (withMem io.other (.st x am)) s)

/-- ST_ACC (R172). -/
def execStAcc (io : Issue) (m : BitVec 2) (k : BitVec 2) (am : AddrMode) (s : State) :
    Host.Outcome State Fault Refusal :=
  .next (issueWord io (withMem io.other (.stAcc m k am)) s)

/-- LD_PAIR (R173). -/
def execLdPair (io : Issue) (k : BitVec 5) (p : BitVec 3) (d : BitVec 10) (s : State) :
    Host.Outcome State Fault Refusal :=
  .next (issueWord io (withMem io.other (.pair k p d)) s)

/-- DUAL_ACCESS (R174). -/
def execDualAccess (io : Issue) (ar : BitVec 5) (ap : BitVec 3) (ainc : Bool) (b : DualB) (bp :
    BitVec 3) (binc : Bool) (s : State) :
    Host.Outcome State Fault Refusal :=
  .next (issueWord io (withMem io.other (.dual ar ap ainc b bp binc)) s)

/-- MVO (R176). -/
def execMvo (io : Issue) (k : BitVec 4) (x : BitVec 5) (s : State) :
    Host.Outcome State Fault Refusal :=
  .next (issueWord io (withMem io.other (.mvo k x)) s)

/-- MVO_ACC (R176). -/
def execMvoAcc (io : Issue) (k : BitVec 4) (m : BitVec 2) (a : BitVec 2) (s : State) :
    Host.Outcome State Fault Refusal :=
  .next (issueWord io (withMem io.other (.mvoAcc k m a)) s)

/-- PUT (R139). -/
def execPut (io : Issue) (k : BitVec 4) (s : State) :
    Host.Outcome State Fault Refusal :=
  .next (issueWord io (withMem io.other (.put k)) s)

/-- PUTD (R140). -/
def execPutd (io : Issue) (k : BitVec 4) (s : State) :
    Host.Outcome State Fault Refusal :=
  .next (issueWord io (withMem io.other (.putd k)) s)

/-- XFER_R (R177). -/
def execXferR (io : Issue) (x : BitVec 5) (n : BitVec 3) (len : BitVec 6) (s : State) :
    Host.Outcome State Fault Refusal :=
  .next (issueWord io (withMem io.other (.xfer false x n len)) s)

/-- XFER_W (R143). -/
def execXferW (io : Issue) (x : BitVec 5) (n : BitVec 3) (len : BitVec 6) (s : State) :
    Host.Outcome State Fault Refusal :=
  .next (issueWord io (withMem io.other (.xfer true x n len)) s)

/-- LE_NOP (R161): the named slot holds 0, and so does nothing; the other slots of the word do
what they hold. -/
def execLeNop (io : Issue) (slot : Slot) (s : State) : Host.Outcome State Fault Refusal :=
  let w : W64 := match slot with
    | .word => 0
    | .cmac => leWord 0 (slotMem io.other) (slotAlu io.other)
    | .mem => leWord (slotCmac io.other) 0 (slotAlu io.other)
    | .alu => leWord (slotCmac io.other) (slotMem io.other) 0
  .next (issueWord io w s)

/-- A scratch word as a transfer finds it (R177, R179). -/
def xferWord (x : Engine) (t : Xfer) (a : Nat) : W24 :=
  if a ∈ t.touched then Config.xferRace x.scrEpoch a
  else (tget none x.scr a).getD (Config.scratch x.scrEpoch a)

/-- One word of a transfer to the cabinet: bits [31:24] are stored as 0 (R177); a bank that is
not ON takes nothing (R718). -/
def xferOut (x : Engine) (t : Xfer) (s : State) (i : Nat) : State :=
  let a := 4 * (t.cab + i)
  if s.isOn (bankDom a) then s.setCabWord a ((xferWord x t (t.scr + i)).setWidth 32) else s

/-- One word of a transfer to scratch; a bank that is not ON reads 0 (R718), and a word that the
program stored to meanwhile holds no stated value (R179). -/
def xferIn (s : State) (t : Xfer) (m : Table (Option W24)) (i : Nat) : Table (Option W24) :=
  let a := 4 * (t.cab + i)
  if t.scr + i ∈ t.touched then tset none m (t.scr + i) none
  else tset none m (t.scr + i)
    (some (if s.isOn (bankDom a) then (s.cabWord a).setWidth 24 else 0))

/-- A transfer finishes its copy and SW.XB clears (R142, R177); the banks it reaches are accessed
(R718). -/
def State.xferEnd (s : State) (e : Nat) (t : Xfer) : State :=
  let x := s.eng e
  let a := 4 * t.cab
  let z := 4 * (t.cab + t.len - 1)
  let s := s.touchBank a
  let s := if bankDom a = bankDom z then s else s.touchBank z
  if t.write then
    let s := (List.range t.len).foldl (fun s i => xferOut x t s i) s
    s.setEng e { s.eng e with xfer := none }
  else
    let scr := (List.range t.len).foldl (fun m i => xferIn s t m i) x.scr
    s.setEng e { s.eng e with xfer := none, scr := scr }

/-- XFER_COMPLETE (R142): nothing happens on an engine without a running transfer. -/
def execXferComplete (e : Fin 24) (s : State) : Host.Outcome State Fault Refusal :=
  match (s.eng e).xfer with
  | some t => .next (s.xferEnd e t)
  | none => .next s

/-- LDM_SCRUB (R154, R155): a corrected word is counted, an uncorrectable one counted and marked;
an engine whose cluster is not ON is not scrubbed. -/
def execLdmScrub (e : Fin 24) (a : BitVec 14) (ecc : Ecc) (s : State) :
    Host.Outcome State Fault Refusal :=
  if !s.isOn (engDom e) then .next s
  else match ecc with
    | .ok => .next s
    | .corrected => .next (s.bump LE_ECC_CORR e)
    | .uncorrectable =>
      let s := s.bump LE_ECC_UE e
      let x := s.eng e
      .next (s.setEng e { x with bad := a.toNat :: x.bad.filter (· ≠ a.toNat) })

/-- IM_REWRITE (R156): in the sill, a word corrected on fetch is rewritten from MRAM; in the user region it
then holds MRAM's word. -/
def execImRewrite (e : Fin 24) (a : BitVec 13) (s : State) : Host.Outcome State Fault Refusal :=
  if s.cyc.phase == .sill then
    let x := s.eng e
    if a.toNat ∈ x.imFix then
      let t := s.setEng e { x with imFix := x.imFix.filter (· ≠ a.toNat) }
      if 0x1000 ≤ a.toNat ∧ a.toNat ≤ 0x1FBF then
        .next { t with fw.im := tset 0 t.fw.im (e * 4096 + (a.toNat - 0x1000))
                                  (tget 0 t.fw.lpMram (a.toNat - 0x1000)) }
      else .next t
    else .next s
  else .next s

/-- LE_EXC_LOG_READ (R159): the read returns LE_EXC_LOG_HI and clears VALID. -/
def execLeExcLogRead (s : State) : Host.Outcome State Fault Refusal :=
  if !s.isOn 1 then .next s
  else
    let v := s.rg LE_EXC_LOG_HI
    .next ((s.out (.bar0 v)).setRg LE_EXC_LOG_HI 0 (v &&& 0x7FFFFFFF))

end Sys2Proof.Machine
end

