-- ==== Sys2Proof/Machine/Views.lean ====
section
/-! DEFINITION. What a read of BAR0 returns (R6, R762 to R765): the registers that hold a value of
their own, the stage view, the staging registers, and the views of what the hardware updates. -/

namespace Sys2Proof.Machine

/-- A word from values at bit positions. -/
def packW (l : List (Nat × Nat)) : W32 := BitVec.ofNat 32 ((l.map (fun p => p.2 * 2 ^ p.1)).sum)

/-- A signed quantity in 32 bits, saturating. -/
def satI32 (v : Int) : W32 := BitVec.ofInt 32 (max (-2147483648) (min 2147483647 v))

/-- The bits of a list of flags, the first one lowest. -/
def packBits (l : List Bool) : Nat := (l.zipIdx.map (fun p => b2n p.1 * 2 ^ p.2)).sum

/-! ## SYS, PWR and TIME (R774, R732, R533) -/

/-- The views of the SYS block. -/
def State.viewSys (s : State) (a : Nat) : Option W32 :=
  match a with
  | 0x4 => some (if Config.gradeE then 0x1B0 else 0xB0)
  | 0x8 => some (Config.uid.setWidth 32)
  | 0xC => some ((Config.uid >>> 32).setWidth 32)
  | 0x14 => some (BitVec.ofNat 32 s.boot.cause)
  | 0x18 => some (s.pwr.straps.setWidth 32)
  | 0x34 => some (BitVec.ofNat 32 (packBits ((List.range 18).map (fun b => (s.blk b).open_))))
  | _ => none

/-- The code of a domain's state. -/
def DomSt.code : DomSt → Nat
  | .on => 0
  | .entering => 1
  | .ret => 2
  | .waking => 3
  | .off => 4
  | .leavingOff => 5

/-- The code of LATCHED. -/
def latchedCode : Option DomTgt → Nat
  | none => 0
  | some .on => 1
  | some .ret => 2
  | some .off => 3

/-- The views of the PWR block. -/
def State.viewPwr (s : State) (a sel : Nat) : Option W32 :=
  match a with
  | 0x4004 =>
    let x := s.dom sel
    some (packW [(0, x.st.code), (4, latchedCode x.latched), (8, b2n (s.auto sel)), (16, x.lost.toNat)])
  | 0x4008 => some (BitVec.ofNat 32 (packBits ((List.range 23).map (fun d => !s.isOn d))))
  | 0x4020 => some (s.pwr.vbrk ++ s.pwr.vin)
  | 0x4024 => some (s.pwr.tj.setWidth 32)
  | 0x4028 => some (packW ((List.range 4).flatMap (fun x =>
      [(4 * x, bitsOf s.pwr.straps (2 * x + 1) (2 * x)),
       (4 * x + 2, b2n (!s.pwr.vioFail.getLsbD x))])))
  | _ => none

/-- The views of the TIME block. -/
def State.viewTime (s : State) (a : Nat) : Option W32 :=
  let left : W64 := BitVec.ofInt 64 s.tm.slewLeft.floor
  match a with
  | 0x8030 => some (packW [(0, s.tm.servo.code), (8, s.tflags.toNat)])
  | 0x8034 => some (satI32 (s.tm.theta.getD 0))
  | 0x8038 => some (satI32 (s.rateY * 1000000000).floor)
  | 0x803C => some (left.setWidth 32)
  | 0x8040 => some ((left >>> 32).setWidth 32)
  | 0x8044 => some s.bt32
  | 0x8048 => some s.tm.btHi
  | 0x804C => some s.tm.mpd
  | 0x8050 => some (s.tm.gm.setWidth 32)
  | 0x8054 => some ((s.tm.gm >>> 32).setWidth 32)
  | _ => none

/-! ## HOST, DISP, LE and CAB (R646, R57, R98) -/

/-- The views of the HOST block. -/
def State.viewHost (s : State) (a sel : Nat) : Option W32 :=
  let n := sel % 256
  match a with
  | 0xC018 =>
    let h := s.host
    some (packW [(0, b2n h.ready), (1, b2n h.polling), (2, b2n h.lost), (4, h.speed.toNat),
      (8, h.width.toNat)])
  | 0xC034 =>
    let p := match sel / 256 with
      | 0 => ((s.sq n).head, (s.sq n).tail)
      | 1 => ((s.cq n).tail, (s.cq n).head)
      | _ => ((s.strm n).tail, (s.strm n).head)
    some (packW [(0, p.1), (16, p.2)])
  | 0xC038 => some (match sel / 256 with
    | 0 => packW [(0, (s.sq n).opened)]
    | 1 => packW [(16, (s.cq n).buf.length)]
    | _ => 0)
  | 0xC048 =>
    let f := s.fw
    some (packW [(0, b2n f.active), (1, b2n f.next), (2, b2n f.verified), (3, b2n f.fallback)])
  | _ => none

/-- USED of a flow (R98). -/
def Flow.used (x : Flow) : Nat :=
  (x.slots.filter (fun p => decide (x.h ≤ p.1) && decide (p.1 < x.h + 64) && match p.2 with
    | some sl => !sl.hole
    | none => false)).length

/-- CANCEL_PENDING (R98): a fetched CTX_CANCEL of the context waits for its hinge point. -/
def State.cancelWaits (s : State) (c : Nat) : Bool :=
  s.host.queue.any (fun f => f.op == 0x01 && f.refuse.isNone && descCtx f.d == c)

/-- The views of the DISP block. -/
def State.viewDisp (s : State) (a sel : Nat) : Option W32 :=
  match a with
  | 0x10018 => some (BitVec.ofNat 32 (b2n s.cyc.running))
  | 0x10020 => some s.cyc.count
  | 0x10024 => some (s.cyc.t0.setWidth 32)
  | 0x10028 => some (packW [(0, s.tpls.load), (16, capacityAt (s.rf DISP_CYC_PERIOD 0 19 0))])
  | 0x10200 =>
    let x := s.ctx sel
    some (packW [(0, x.lastCause), (8, x.aff), (16, x.home), (24, b2n (s.cancelWaits sel))])
  | 0x10308 => some (packW [(0, (s.flow sel).used), (16, (s.flow sel).h)])
  | 0x103A4 => some (BitVec.ofNat 32 (s.eng sel).mean)
  | 0x103A8 => some (BitVec.ofNat 32 ((List.range 12).filter
      (fun k => tget 0 (s.eng sel).slots k ≠ 0)).length)
  | _ => none

/-! ## FB, PWM and PRF (R285, R319, R374, R403) -/

/-- The views of the FB block. -/
def State.viewFb (s : State) (a n : Nat) : Option W32 :=
  let x := s.fb n
  match a with
  | 0x20028 => some x.cnt
  | 0x20030 => some (s.rg FB_STATUS n ||| packW [(24, b2n x.armed), (25, b2n x.dir)])
  | 0x20034 => some (packW [(0, x.lineOpen.toNat), (8, x.lineShort.toNat), (16, x.linePol.toNat)])
  | 0x20038 => some x.indexErr
  | 0x2003C => some x.idxLatch
  | 0x20090 => some x.stepCnt
  | _ => none

/-- The code of a module's state. -/
def PwmSt.code : PwmSt → Nat
  | .disabled => 0
  | .run => 1
  | .fault => 2

/-- The views of the PWM block. -/
def State.viewPwm (s : State) (a m : Nat) : Option W32 :=
  let x := s.pwm m
  match a with
  | 0x24014 => some (packW [(0, b2n x.enable)])
  | 0x24044 => some (BitVec.ofNat 32 (packBits ((List.range 16).map (fun k => s.srcActive m k))))
  | 0x24050 => some (packW [(0, x.st.code), (4, b2n x.calOk)])
  | 0x24060 => some (carryBits x.u.carry)
  | 0x24064 => some (carryBits x.v.carry)
  | 0x24068 => some (carryBits x.w.carry)
  | _ => none

/-- The code of PRF_GRP_STATUS.STATE. -/
def GrpSt.code : GrpSt → Nat
  | .idle => 0
  | .run => 1
  | .hold => 2
  | .stopping => 3

/-- PRF_LIM_STATUS of an axis. -/
def State.limStatus (s : State) (c : Nat) : W32 :=
  let x := s.ax c
  packW [(0, packBits [s.inLevel c 0, s.inLevel c 1, s.inLevel c 2]),
    (4, packBits [x.inP.raw != s.inPol c 0, x.inN.raw != s.inPol c 1, x.inH.raw != s.inPol c 2]),
    (8, packBits [x.inP.chat, x.inN.chat, x.inH.chat]),
    (12, packBits [x.inP.wb, x.inN.wb, x.inH.wb]), (16, b2n x.homed)]

/-- The views of the PRF block. -/
def State.viewPrf (s : State) (a sel : Nat) : Option W32 :=
  let v := (s.ms sel).froz
  match a with
  | 0x28008 => some (v.pos.setWidth 32)
  | 0x2800C => some ((v.pos >>> 32).setWidth 32)
  | 0x28010 => some (v.vel.setWidth 32)
  | 0x28014 => some ((v.vel >>> 32).setWidth 32)
  | 0x28018 => some (packW [(0, b2n v.valid), (4, (s.ms sel).held)])
  | 0x28044 =>
    let g := s.grp sel
    some (packW [(0, g.runTag), (16, g.queue.length), (24, g.st.code)])
  | 0x28064 =>
    let x := s.cam sel
    some (packW [(0, x.n), (12, b2n x.cyclic), (30, b2n (s.camUsed sel)), (31, b2n x.ready)])
  | 0x28108 =>
    let e := s.ev sel
    some (packW [(0, packBits [e.armed, !e.sched.isEmpty, e.behind]), (8, e.owner)])
  | 0x2810C => some (match (s.ev sel).sched with
    | f :: _ => f.edge.setWidth 32
    | [] => 0)
  | 0x28208 => some (s.limStatus sel)
  | _ => none

/-! ## LNK, RING and TWIN (R475, R502, R565) -/

/-- CYCLIC of a direction, the largest over the divisor pattern (R446). -/
def State.cyclicMax (s : State) (d : Nat) : Nat :=
  (List.range 8).foldl (fun m k => max m (s.cyclicOf d (fun c => hdrRuns (s.hdr c) k))) 0

/-- The views of the LNK block. -/
def State.viewLnk (s : State) (a sel : Nat) : Option W32 :=
  match a with
  | 0x30008 =>
    let x := s.port sel
    let on := s.portOn sel
    some (packW [(0, packBits [x.modabs, x.losSeen, on && x.lock, on && x.hiBer, s.linkUp sel])])
  | 0x30034 =>
    let x := s.port sel
    some (packW [(0, x.data.toNat), (8, b2n x.i2c.isSome), (9, b2n x.nack)])
  | 0x30084 => some (packW [(0, s.slots), (16, s.cyclicMax sel)])
  | 0x3008C => some (BitVec.ofNat 32 (s.dir sel).used)
  | 0x3010C => some ((tget 0 s.lnk.nodeFlags sel).setWidth 32)
  | _ => none

/-- The views of the RING block; `sel` holds the ring in its upper part where a node or segment is
selected too. -/
def State.viewRing (s : State) (a sel : Nat) : Option W32 :=
  let x := s.ring sel
  let y := s.ring (sel / 256)
  let n := sel % 256
  let here (v : W32) : W32 := if 1 ≤ n && n ≤ y.nodes then v else 0
  match a with
  | 0x34010 => some (packW [(0, x.st.code), (8, x.nodes), (16, x.max), (24, x.min)])
  | 0x34014 => some x.loopCw
  | 0x34018 => some x.loopCcw
  | 0x34024 => some (tget 0xFFFFFFFF y.seg n)
  | 0x34034 => some (here (y.node n).id)
  | 0x34038 => some (here (y.node n).caps)
  | 0x3403C => some (here (y.node n).prep)
  | 0x34040 => some (here (y.node n).pd)
  | 0x34048 => some (here (packW [(0, b2n (s.second (sel / 256) n)), (1, b2n (y.node n).lost),
      (8, (y.node n).fwd.toNat)]))
  | _ => none

/-- The views of the TWIN block. -/
def State.viewTwin (s : State) (a : Nat) : Option W32 :=
  let t := s.twin
  match a with
  | 0x38004 => some (packW [(0, t.claim.toNat), (8, t.partner.toNat)])
  | 0x38008 => some (packW [(0, t.st.code), (4, t.partnerSt.toNat), (8, b2n t.partnerOk),
      (12, t.cause), (16, t.synced.length)])
  | 0x3800C => some s.cfgDigest
  | 0x38010 => some t.pcfg
  | 0x38040 => some (t.mseq.setWidth 32)
  | 0x38044 => some (satI32 t.theta)
  | _ =>
    if 0x38020 ≤ a && a < 0x38040 then
      some (BitVec.ofNat 32 (packBits ((List.range 32).map (fun i =>
        decide (32 * ((a - 0x38020) / 4) + i ∈ t.synced)))))
    else none

/-! ## GUARD, ACQ, REC and FIELD (R602, R604, R675, R705, R776) -/

/-- The near axes that satisfy `p`, one bit each. -/
def nears8 (p : Nat → Bool) : Nat := packBits ((List.range 8).map p)

/-- FAULT of an axis: a near axis with a latched fault of its switch. -/
def State.nearFault (s : State) (g : Guard) (c : Nat) : Bool :=
  match s.nearOf c with
  | some n => (g.swOf n).latch != 0
  | none => false

/-- The views of a GUARD block, by offset. -/
def State.viewGuard (s : State) (b : Bool) (a sel : Nat) : Option W32 :=
  let g := s.guard b
  let o := s.guard (!b)
  let has (g : Guard) (n : Nat) : Bool :=
    let c := s.ctxOfNear n
    c != 0 && decide (c ∈ g.grants)
  match a with
  | 0x000 =>
    let own := if b then s.seals.b else s.seals.a
    let cross := if b then s.seals.a else s.seals.b
    some (packW [(0, g.st.code), (8, g.cause), (16, packBits [own, cross, s.seals.mism]),
      (20, b2n g.locked), (24, b2n g.en)])
  | 0x004 => some (packW [(0, nears8 (has g)), (8, nears8 (has o)),
      (16, nears8 (fun n => (g.swOf n).conducts)), (24, nears8 (fun n => (g.swOf n).pulse.isSome))])
  | 0x008 => some (packW ((List.range 4).map (fun k =>
      (8 * k, nears8 (fun n => (g.swOf n).latch.getLsbD k)))))
  | 0x00C => some (packW [(0, g.demand.toNat), (8, o.demand.toNat), (16, g.discrep.toNat)])
  | 0x014 => some (packW [(0, packBits [decide (sel ∈ g.grants), decide (sel ∈ o.grants),
      bitOf (g.par (0x100 + sel)) 0 && decide (tget 0 g.mapBad sel = 0), s.nearFault g sel,
      !b && decide (sel ∈ g.sbtFault)])])
  | 0x018 => some (Config.guardCfgCrc g.params)
  | 0x01C => some (packW [(0, g.log.length), (16, g.unconf.length)])
  | 0x020 =>
    if b then some 0
    else some (match s.seals.sbt with
      | some x => packW [(0, 1), (1, x.step), (8, x.ctx), (16, s.seals.sbtLast)]
      | none => packW [(16, s.seals.sbtLast)])
  | _ => none

/-- The views of the ACQ block. -/
def State.viewAcq (s : State) (a u : Nat) : Option W32 :=
  match a with
  | 0x50060 => some (packW [(0, (s.acq u).st.code), (4, (s.masterOf u).getD 0),
      (7, b2n (s.masterOf u).isSome), (8, (s.fullLanes u).length), (16, (s.decLanes u).length)])
  | _ => none

/-- The SEQ of the latest committed entry (R697). -/
def RecSt.lastSeq (r : RecSt) : W32 :=
  BitVec.ofNat 32 (maxSeq ((r.chest0.journal ++ r.chest1.journal).filter JEntry.committed))

/-- The views of the REC block. -/
def State.viewRec (s : State) (a : Nat) : Option W32 :=
  let r := s.recd
  match a with
  | 0x58000 => some (packW [(0, packBits [r.recovered && !r.chest0.failed,
      r.recovered && !r.chest1.failed, r.flush.isSome,
      r.held.isSome]), (4, ((r.flush.map Flush.cause).getD 0)), (16, r.dirty.length)])
  | 0x58004 => some r.lastSeq
  | 0x58008 => some (s.cabWord (recBase + 4))
  | 0x5800C => some (if r.recovered then packW [(0, r.chest0.free), (16, r.chest1.free)] else 0)
  | 0x58010 => some (packW [(0, min 255 r.chest0.retired), (16, min 255 r.chest1.retired)])
  | _ => none

/-- The views of the FIELD block; its clamped signals read 0 (R721). -/
def State.viewField (s : State) (a : Nat) : Option W32 :=
  match a with
  | 0x60008 => some (if s.isOn 22 then s.go.ovl else 0)
  | 0x6000C => some (if s.isOn 22 then s.go.giF.setWidth 32 else 0)
  | _ => none

/-! ## Reads (R3, R6, R763, R764) -/

/-- The view of a register that the hardware updates; none: it holds a value of its own. -/
def State.view (s : State) (r : Reg) (sel : Nat) : Option W32 :=
  let a := r.addr
  match (blockOf a).map Fin.val with
  | some 0 => s.viewSys a
  | some 1 => s.viewPwr a sel
  | some 2 => s.viewTime a
  | some 3 => s.viewHost a sel
  | some 4 => s.viewDisp a sel
  | some 7 => s.viewFb a sel
  | some 8 => s.viewPwm a sel
  | some 9 => s.viewPrf a sel
  | some 10 => s.viewLnk a sel
  | some 11 => s.viewRing a sel
  | some 12 => s.viewTwin a
  | some 13 => s.viewGuard false (a - 0x40000) sel
  | some 14 => s.viewGuard true (a - 0x48000) sel
  | some 15 => s.viewAcq a sel
  | some 16 => s.viewRec a
  | some 17 => s.viewField a
  | _ => none

/-- The instance that a register's selector chooses. -/
def State.selOf (s : State) (r : Reg) : Nat :=
  let v (a : Nat) : Nat := match findReg a with
    | some q => (s.rg q 0).toNat
    | none => 0
  match r.sel with
  | .none => 0
  | .one a => v a
  | .two a b => v a * 256 + v b

/-- A selector register holds a value in its stated ranges. -/
def State.selInRange (s : State) (a : Nat) : Bool :=
  match findReg a with
  | some q => q.flds.all (fun x => x.ok (s.rg q 0))
  | none => true

/-- The selected instance of a register exists: its selectors are in range, a context is selected, a
ring exists. -/
def State.selExists (s : State) (r : Reg) : Bool :=
  match r.sel with
  | .none => true
  | .one a =>
    s.selInRange a && !(a == 0x10100 && s.rg DISP_TPL_SEL 0 == 0) &&
      !(a == 0xC020 && !ringExists (s.selOf r / 256) (s.selOf r % 256))
  | .two a b => s.selInRange a && s.selInRange b

/-- What the active offset of a register reads. -/
def State.readReg (s : State) (r : Reg) : W32 :=
  if r.acc == .wo || !s.selExists r then 0
  else (s.view r (s.selOf r)).getD (s.rg r (s.selOf r))

/-- BLK_STAGE_STATUS (R766). -/
def Blk.status (x : Blk) : W32 :=
  packW [(0, match x.state with
    | .idle => 0
    | .pending => 1
    | .checked => 2
    | .applied => 3
    | .failed => 4), (16, x.code.toNat)]

/-- The staging registers of a block (R766). -/
def State.readStaging (s : State) (b : Fin 18) (off : Nat) : W32 :=
  match off with
  | 0x1004 => (s.blk b).status
  | 0x1008 => (s.blk b).field
  | 0x100C => s.rg (STAGE_REFUSED b)
  | _ => 0

/-- A read of an aligned word of BAR0. -/
def State.bar0Read (s : State) (a : Nat) : W32 :=
  match blockOf a with
  | none => 0
  | some b =>
    let off := a - blockBase b
    if a % 4 ≠ 0 then 0
    else if off < 0x800 then (match findReg a with
      | some r => s.readReg r
      | none => 0)
    else if off < 0x1000 then (match findReg (a - 0x800) with
      | some r => if r.acc == .st && s.selExists r then s.stg r (s.selOf r) else 0
      | none => 0)
    else s.readStaging b off

end Sys2Proof.Machine
end

