-- ==== Sys2Proof/Machine/RegAccess.lean ====
section
/-! DEFINITION. The host's accesses to BAR0 (R2, R3, R6, R763 to R765, R769, R806), and the FIELD
block (R776, R789). -/

namespace Sys2Proof.Machine

/-! ## The FIELD block (R776, R789) -/

/-- A write of FIELD_GO: the balls that FIELD_GO_OWN gives to the block follow it. -/
def State.writeGo (s : State) (v : W32) : State :=
  s.effectGo (s.setRg FIELD_GO 0 (v &&& FIELD_GO.mask))

/-- FIELD_GO_WRITE (R776). -/
def execFieldGoWrite (v : BitVec 32) (s : State) : Host.Outcome State Fault Refusal :=
  if !s.isOn 1 then .next s else .next (s.writeGo v)

/-- GO_OVERLOAD (R776, R789): an output enters or leaves current limit or thermal shutdown. -/
def execGoOverload (n : Fin 16) (thermal present : Bool) (s : State) : Host.Outcome State Fault Refusal :=
  if !s.isOn 22 then .next s
  else
    let k := n.val + (if thermal then 16 else 0)
    let b : W32 := BitVec.ofNat 32 (2 ^ k)
    let t := if present && !bitOf s.go.ovl k then s.bump FIELD_GO_FAULTS else s
    .next { t with go.ovl := if present then s.go.ovl ||| b else s.go.ovl &&& ~~~ b }

/-- GI_INPUT_CHANGE (R776): a general input has held a level for GI_FLT. -/
def execGiInputChange (n : Fin 16) (level : Bool) (s : State) : Host.Outcome State Fault Refusal :=
  if !s.isOn 22 then .next s
  else
    let b : BitVec 16 := BitVec.ofNat 16 (2 ^ n.val)
    .next { s with go.giF := if level then s.go.giF ||| b else s.go.giF &&& ~~~ b }

/-! ## Writes -/

/-- A field held to its stated range (R806). -/
def Fld.clamp (x : Fld) (v : W32) : Nat := (max x.mn (min x.mx (x.val v))).toNat

/-- The value that a write stores (R2, R806): reserved bits read 0, and a HOST field takes the
nearest value in its range. -/
def Reg.store (r : Reg) (v : W32) : W32 :=
  if blockOf r.addr = some 3 then BitVec.ofNat 32 ((r.flds.map (fun x => x.clamp v * 2 ^ x.lo)).sum)
  else v &&& r.mask

/-- A write to an ST register goes to its stage (R6, R764, R769). -/
def State.writeStage (s : State) (r : Reg) (sel : Nat) (v : W32) : State :=
  let fix : W32 := if r.addr = PWM_FLT_MAP2.addr then 0xFFFF0000 else 0
  let v := (v &&& ~~~ fix) ||| (s.rg r sel &&& fix)
  match blockOf r.addr with
  | none => s
  | some b =>
    if (s.blk b).open_ then s.refuseStaged b
    else { s with stage := tset (s.rg r sel) s.stage (regKey r sel) (v &&& r.mask) }

/-- RING_CMD (R502): INTAKE, CLOSE and RESTORE. -/
def State.writeRingCmd (s : State) (v : W32) : State :=
  let s := if bitOf v 0 then s.ringIntake else s
  let s := if bitOf v 1 then s.ringClose else s
  if bitOf v 2 then s.ringRestore else s

/-- A write to a register with behaviour of its own; none: it has none. -/
def State.writeOwn (s : State) (a : Nat) (v : W32) : Option State :=
  match a with
  | 0x10 => some (s.writeRst v)
  | 0x30 => some (s.commitAllBlocks v)
  | 0xC000 => some (s.writeHostCtl v)
  | 0xC024 => some (s.writeBase HOST_RING_BASE_LO (v &&& HOST_RING_BASE_LO.mask))
  | 0xC028 => some (s.writeBase HOST_RING_BASE_HI v)
  | 0xC02C => some (s.writeRingCfg v)
  | 0xC0A0 => some (s.hostLatch v)
  | 0x10014 => some (s.writeCycCtl v)
  | 0x10390 => some (if bitOf v 0 then s.tokLatch else s)
  | 0x20024 => some (s.idxArm v)
  | 0x2002C => some (s.cntSet v)
  | 0x20030 => some (s.fbStatusClear v)
  | 0x2004C => some (s.fbLatch v)
  | 0x24014 => some (if bitOf v 0 then s.pwmEnable else s.pwmDisable)
  | 0x24054 => some (s.fltLatchClear v)
  | 0x2409C => some (s.pwmLatch v)
  | 0x30030 => some (s.i2cCtl v)
  | 0x34008 => some (s.writeRingCmd v)
  | 0x50310 => some (s.acqLatch v)
  | 0x60004 => some (s.writeGo v)
  | _ => none

/-- A register whose selected instance takes no write: FL0 to FL15 of DISP_FLOW_BIND (R98). -/
def State.writeIgnored (s : State) (r : Reg) : Bool :=
  !s.selExists r || (r.addr == 0x10304 && decide (s.selOf r < 16))

/-- A write to an active offset (R6). -/
def State.writeActive (s : State) (r : Reg) (v : W32) : State :=
  match s.writeOwn r.addr v with
  | some t => t
  | none =>
    if s.writeIgnored r then s
    else match r.acc with
      | .rw => s.setRg r (s.selOf r) (r.store v)
      | .st => s.writeStage r (s.selOf r) v
      | _ => s

/-- A write to a stage-view offset (R764). -/
def State.writeView (s : State) (r : Reg) (v : W32) : State :=
  if r.acc == .st && !s.writeIgnored r then s.writeStage r (s.selOf r) v else s

/-- A write of an aligned word of BAR0 (R3, R763 to R766, R604). -/
def State.bar0Write (s : State) (a : Nat) (v : W32) : State :=
  match blockOf a with
  | none => s
  | some b =>
    let off := a - blockBase b
    if a % 4 ≠ 0 then s
    else if off < 0x800 then (match findReg a with
      | some r => s.writeActive r v
      | none => s)
    else if off < 0x1000 then (match findReg (a - 0x800) with
      | some r => s.writeView r v
      | none => s)
    else if off = 0x1000 then s.writeCommit b v
    else s

/-- REGISTER_WRITE (R6, R765): a write of a BAR0 word. -/
def execRegisterWrite (a : BitVec 24) (v : BitVec 32) (s : State) : Host.Outcome State Fault Refusal :=
  if !s.isOn 1 then .next s else .next (s.bar0Write a.toNat v)

/-! ## Reads that clear (R6) -/

/-- What a read leaves of an RC register: 0; LE_EXC_LOG_HI loses VALID alone (R157). -/
def rcLeft (r : Reg) (v : W32) : W32 := if r.addr = 0x14044 then v &&& 0x7FFFFFFF else 0

/-- The RC register at an address of BAR0. -/
def rcAt (a : Nat) : Option Reg :=
  match blockOf a with
  | none => none
  | some b =>
    if a - blockBase b = 0x100C then some (STAGE_REFUSED b)
    else match findReg a with
      | some r => if r.acc == .rc then some r else none
      | none => none

/-- RC_COUNTER_READ (R6): the read returns the word, and an RC register is cleared. -/
def execRcCounterRead (a : BitVec 24) (s : State) : Host.Outcome State Fault Refusal :=
  if !s.isOn 1 then .next s
  else
    let n := a.toNat
    let t := s.out (.bar0 (s.bar0Read n))
    .next (match rcAt n with
      | some r =>
        let k := s.selOf r
        if s.selExists r then t.setRg r k (rcLeft r (s.rg r k)) else t
      | none => t)

end Sys2Proof.Machine
end

