-- ==== Sys2Proof/Machine/Dispatch.lean ====
section
/-! DEFINITION. The dispatch of a command to its meaning: one arm per constructor. -/

namespace Sys2Proof.Machine

/-- The effect of a command on everything but the queue. -/
def exec (i : Instr) (s : State) : Host.Outcome State Fault Refusal :=
  match i with
  | .cycleRun limit => Sys2Proof.Machine.execCycleRun limit s
  | .cycleStop limit => Sys2Proof.Machine.execCycleStop limit s
  | .cycleEnd => Sys2Proof.Machine.execCycleEnd s
  | .hingePoint => Sys2Proof.Machine.execHingePoint s
  | .commitSetCheck => Sys2Proof.Machine.execCommitSetCheck s
  | .sampleInstant lines => Sys2Proof.Machine.execSampleInstant lines s
  | .carrierTrain => Sys2Proof.Machine.execCarrierTrain s
  | .upCellArrival p rx => Sys2Proof.Machine.execUpCellArrival p rx s
  | .deadlineAbort => Sys2Proof.Machine.execDeadlineAbort s
  | .drainComplete => Sys2Proof.Machine.execDrainComplete s
  | .scrubGrant bank ecc w => Sys2Proof.Machine.execScrubGrant bank ecc w s
  | .drawerMigration => Sys2Proof.Machine.execDrawerMigration s
  | .stageDispatch ecc => Sys2Proof.Machine.execStageDispatch ecc s
  | .stageComplete e => Sys2Proof.Machine.execStageComplete e s
  | .shelfCredit => Sys2Proof.Machine.execShelfCredit s
  | .flowRelease f => Sys2Proof.Machine.execFlowRelease f s
  | .ctxCancel d => Sys2Proof.Machine.execCtxCancel d s
  | .placementWindow plan set empty => Sys2Proof.Machine.execPlacementWindow plan set empty s
  | .dispTokLatch => Sys2Proof.Machine.execDispTokLatch s
  | .leNop io slot => Sys2Proof.Machine.execLeNop io slot s
  | .clra io k => Sys2Proof.Machine.execClra io k s
  | .mpy io int neg k x y => Sys2Proof.Machine.execMpy io int neg k x y s
  | .mac io int neg k x y => Sys2Proof.Machine.execMac io int neg k x y s
  | .mpy2 io int neg k x y => Sys2Proof.Machine.execMpy2 io int neg k x y s
  | .mac2 io int neg k x y => Sys2Proof.Machine.execMac2 io int neg k x y s
  | .cmpy io int neg k x y => Sys2Proof.Machine.execCmpy io int neg k x y s
  | .cmac io int neg k x y => Sys2Proof.Machine.execCmac io int neg k x y s
  | .cmpyC io int neg k x y => Sys2Proof.Machine.execCmpyC io int neg k x y s
  | .cmacC io int neg k x y => Sys2Proof.Machine.execCmacC io int neg k x y s
  | .adda io neg k j => Sys2Proof.Machine.execAdda io neg k j s
  | .asra io k sh => Sys2Proof.Machine.execAsra io k sh s
  | .asla io k sh => Sys2Proof.Machine.execAsla io k sh s
  | .lda io int neg k x => Sys2Proof.Machine.execLda io int neg k x s
  | .ld io d am => Sys2Proof.Machine.execLd io d am s
  | .st io x am => Sys2Proof.Machine.execSt io x am s
  | .stAcc io m k am => Sys2Proof.Machine.execStAcc io m k am s
  | .ldPair io k p d => Sys2Proof.Machine.execLdPair io k p d s
  | .dualAccess io ar ap ainc b bp binc => Sys2Proof.Machine.execDualAccess io ar ap ainc b bp binc s
  | .mvo io k x => Sys2Proof.Machine.execMvo io k x s
  | .mvoAcc io k m a => Sys2Proof.Machine.execMvoAcc io k m a s
  | .put io k => Sys2Proof.Machine.execPut io k s
  | .putd io k => Sys2Proof.Machine.execPutd io k s
  | .xferR io x n len => Sys2Proof.Machine.execXferR io x n len s
  | .xferW io x n len => Sys2Proof.Machine.execXferW io x n len s
  | .xferComplete e => Sys2Proof.Machine.execXferComplete e s
  | .add io d a b => Sys2Proof.Machine.execAdd io d a b s
  | .adc io d a b => Sys2Proof.Machine.execAdc io d a b s
  | .sub io d a b => Sys2Proof.Machine.execSub io d a b s
  | .sbc io d a b => Sys2Proof.Machine.execSbc io d a b s
  | .and io d a b => Sys2Proof.Machine.execAnd io d a b s
  | .or io d a b => Sys2Proof.Machine.execOr io d a b s
  | .xor io d a b => Sys2Proof.Machine.execXor io d a b s
  | .lsl io d a b => Sys2Proof.Machine.execLsl io d a b s
  | .lsr io d a b => Sys2Proof.Machine.execLsr io d a b s
  | .asr io d a b => Sys2Proof.Machine.execAsr io d a b s
  | .min io d a b => Sys2Proof.Machine.execMin io d a b s
  | .max io d a b => Sys2Proof.Machine.execMax io d a b s
  | .abs io d a => Sys2Proof.Machine.execAbs io d a s
  | .cmp io a b => Sys2Proof.Machine.execCmp io a b s
  | .mov io d a => Sys2Proof.Machine.execMov io d a s
  | .addi io d imm => Sys2Proof.Machine.execAddi io d imm s
  | .movi io d imm => Sys2Proof.Machine.execMovi io d imm s
  | .movhi io d imm => Sys2Proof.Machine.execMovhi io d imm s
  | .ori io d imm => Sys2Proof.Machine.execOri io d imm s
  | .lsli io d a u => Sys2Proof.Machine.execLsli io d a u s
  | .lsri io d a u => Sys2Proof.Machine.execLsri io d a u s
  | .asri io d a u => Sys2Proof.Machine.execAsri io d a u s
  | .mvcToCr io cr x => Sys2Proof.Machine.execMvcToCr io cr x s
  | .mvcFromCr io d cr => Sys2Proof.Machine.execMvcFromCr io d cr s
  | .moviCr io cr imm => Sys2Proof.Machine.execMoviCr io cr imm s
  | .moviLc io u => Sys2Proof.Machine.execMoviLc io u s
  | .mvxFromAcc io d k part => Sys2Proof.Machine.execMvxFromAcc io d k part s
  | .mvxToAcc io k part x => Sys2Proof.Machine.execMvxToAcc io k part x s
  | .movAcc io d m k => Sys2Proof.Machine.execMovAcc io d m k s
  | .br io target => Sys2Proof.Machine.execBr io target s
  | .bcc io cond target => Sys2Proof.Machine.execBcc io cond target s
  | .dbnz io target => Sys2Proof.Machine.execDbnz io target s
  | .brr io target => Sys2Proof.Machine.execBrr io target s
  | .jr io x => Sys2Proof.Machine.execJr io x s
  | .tend io mask => Sys2Proof.Machine.execTend io mask s
  | .rete io => Sys2Proof.Machine.execRete io s
  | .brk io u => Sys2Proof.Machine.execBrk io u s
  | .ldmScrub e a ecc => Sys2Proof.Machine.execLdmScrub e a ecc s
  | .imRewrite e a => Sys2Proof.Machine.execImRewrite e a s
  | .leExcLogRead => Sys2Proof.Machine.execLeExcLogRead s
  | .quadEdge n a b z => Sys2Proof.Machine.execQuadEdge n a b z s
  | .edgeQuarantineExpire n z => Sys2Proof.Machine.execEdgeQuarantineExpire n z s
  | .fbIdxArm v => Sys2Proof.Machine.execFbIdxArm v s
  | .fbCntSet v => Sys2Proof.Machine.execFbCntSet v s
  | .fbLatch v => Sys2Proof.Machine.execFbLatch v s
  | .fbStatusClear v => Sys2Proof.Machine.execFbStatusClear v s
  | .hallAccept n code => Sys2Proof.Machine.execHallAccept n code s
  | .ssiFrameStart n ssdLow => Sys2Proof.Machine.execSsiFrameStart n ssdLow s
  | .ssiFrameEnd n bits stopHigh => Sys2Proof.Machine.execSsiFrameEnd n bits stopHigh s
  | .sdFrameReady n r0 r1 r2 edge => Sys2Proof.Machine.execSdFrameReady n r0 r1 r2 edge s
  | .sdCompTrip n k => Sys2Proof.Machine.execSdCompTrip n k s
  | .modStuck n k stuck => Sys2Proof.Machine.execModStuck n k stuck s
  | .lineFault n line short present => Sys2Proof.Machine.execLineFault n line short present s
  | .diffPolarity n ssd present => Sys2Proof.Machine.execDiffPolarity n ssd present s
  | .stepEdge n dir => Sys2Proof.Machine.execStepEdge n dir s
  | .pwmZero m => Sys2Proof.Machine.execPwmZero m s
  | .pwmCentre m => Sys2Proof.Machine.execPwmCentre m s
  | .pwmSyncIn k => Sys2Proof.Machine.execPwmSyncIn k s
  | .pwmFaultTrip flt => Sys2Proof.Machine.execPwmFaultTrip flt s
  | .pwmEnable => Sys2Proof.Machine.execPwmEnable s
  | .pwmDisable => Sys2Proof.Machine.execPwmDisable s
  | .pwmFltLatchClear v => Sys2Proof.Machine.execPwmFltLatchClear v s
  | .pwmLatch v => Sys2Proof.Machine.execPwmLatch v s
  | .dlCalibration m ok => Sys2Proof.Machine.execDlCalibration m ok s
  | .axEnable d => Sys2Proof.Machine.execAxEnable d s
  | .axMove d => Sys2Proof.Machine.execAxMove d s
  | .axVel d => Sys2Proof.Machine.execAxVel d s
  | .axPvt d => Sys2Proof.Machine.execAxPvt d s
  | .axStep d => Sys2Proof.Machine.execAxStep d s
  | .axGear d => Sys2Proof.Machine.execAxGear d s
  | .axCam d => Sys2Proof.Machine.execAxCam d s
  | .axStop d => Sys2Proof.Machine.execAxStop d s
  | .grpDefine d => Sys2Proof.Machine.execGrpDefine d s
  | .grpLine d => Sys2Proof.Machine.execGrpLine d s
  | .grpArc d => Sys2Proof.Machine.execGrpArc d s
  | .grpHold d => Sys2Proof.Machine.execGrpHold d s
  | .grpResume d => Sys2Proof.Machine.execGrpResume d s
  | .grpFlush d => Sys2Proof.Machine.execGrpFlush d s
  | .grpPos d => Sys2Proof.Machine.execGrpPos d s
  | .evArm d => Sys2Proof.Machine.execEvArm d s
  | .evDisarm d => Sys2Proof.Machine.execEvDisarm d s
  | .ctLoad d => Sys2Proof.Machine.execCtLoad d s
  | .ctCommit d => Sys2Proof.Machine.execCtCommit d s
  | .camTableReady k => Sys2Proof.Machine.execCamTableReady k s
  | .vmSet d => Sys2Proof.Machine.execVmSet d s
  | .eventFire k => Sys2Proof.Machine.execEventFire k s
  | .goPulseEnd k => Sys2Proof.Machine.execGoPulseEnd k s
  | .hmStart d => Sys2Proof.Machine.execHmStart d s
  | .hmSet d => Sys2Proof.Machine.execHmSet d s
  | .limClear d => Sys2Proof.Machine.execLimClear d s
  | .axisInputSample n limp limn home => Sys2Proof.Machine.execAxisInputSample n limp limn home s
  | .wireBreak n k present => Sys2Proof.Machine.execWireBreak n k present s
  | .linkUp p => Sys2Proof.Machine.execLinkUp p s
  | .portLockLoss p l => Sys2Proof.Machine.execPortLockLoss p l s
  | .moduleAbsent p absent => Sys2Proof.Machine.execModuleAbsent p absent s
  | .sfpI2CRead v => Sys2Proof.Machine.execSfpI2CRead v s
  | .sfpI2CWrite v => Sys2Proof.Machine.execSfpI2CWrite v s
  | .sfpI2CDone p nack data => Sys2Proof.Machine.execSfpI2CDone p nack data s
  | .ownCellReturn p rx => Sys2Proof.Machine.execOwnCellReturn p rx s
  | .cellForward p rx => Sys2Proof.Machine.execCellForward p rx s
  | .carrierReturn p rx => Sys2Proof.Machine.execCarrierReturn p rx s
  | .ioUpReturn p rx => Sys2Proof.Machine.execIoUpReturn p rx s
  | .adminResponse p rx => Sys2Proof.Machine.execAdminResponse p rx s
  | .adminTimeout => Sys2Proof.Machine.execAdminTimeout s
  | .tunnelSegment p rx => Sys2Proof.Machine.execTunnelSegment p rx s
  | .cellDiscard r => Sys2Proof.Machine.execCellDiscard r s
  | .acyclicCellStart d => Sys2Proof.Machine.execAcyclicCellStart d s
  | .timeInfoBroadcast => Sys2Proof.Machine.execTimeInfoBroadcast s
  | .ringCmdIntake => Sys2Proof.Machine.execRingCmdIntake s
  | .ringCmdClose => Sys2Proof.Machine.execRingCmdClose s
  | .ringCmdRestore => Sys2Proof.Machine.execRingCmdRestore s
  | .autoIntake r => Sys2Proof.Machine.execAutoIntake r s
  | .joinReceive p rx => Sys2Proof.Machine.execJoinReceive p rx s
  | .intakeQuietExpire r => Sys2Proof.Machine.execIntakeQuietExpire r s
  | .enumProbeReturn p rx assoc => Sys2Proof.Machine.execEnumProbeReturn p rx assoc s
  | .enumProbeTimeout r assoc => Sys2Proof.Machine.execEnumProbeTimeout r assoc s
  | .echoResponse p rx => Sys2Proof.Machine.execEchoResponse p rx s
  | .cycleMarkTimeout r => Sys2Proof.Machine.execCycleMarkTimeout r s
  | .locateReturn p rx => Sys2Proof.Machine.execLocateReturn p rx s
  | .locateTimeout r second => Sys2Proof.Machine.execLocateTimeout r second s
  | .restorePoll r => Sys2Proof.Machine.execRestorePoll r s
  | .btWrap => Sys2Proof.Machine.execBtWrap s
  | .ptpMessage usable m => Sys2Proof.Machine.execPtpMessage usable m s
  | .holdoverTimeout => Sys2Proof.Machine.execHoldoverTimeout s
  | .timeSlew d => Sys2Proof.Machine.execTimeSlew d s
  | .slewComplete => Sys2Proof.Machine.execSlewComplete s
  | .timeStep d => Sys2Proof.Machine.execTimeStep d s
  | .timeStepApply => Sys2Proof.Machine.execTimeStepApply s
  | .twHeartReceive h => Sys2Proof.Machine.execTwHeartReceive h s
  | .heartbeatMiss => Sys2Proof.Machine.execHeartbeatMiss s
  | .twinJoinTimeout => Sys2Proof.Machine.execTwinJoinTimeout s
  | .twDescReceive rx => Sys2Proof.Machine.execTwDescReceive rx s
  | .twDigestReceive rx => Sys2Proof.Machine.execTwDigestReceive rx s
  | .twCopyReceive rx enabled => Sys2Proof.Machine.execTwCopyReceive rx enabled s
  | .twSwitchReceive rx => Sys2Proof.Machine.execTwSwitchReceive rx s
  | .twinSwitch d => Sys2Proof.Machine.execTwinSwitch d s
  | .twinClaim d => Sys2Proof.Machine.execTwinClaim d s
  | .twinRejoin d => Sys2Proof.Machine.execTwinRejoin d s
  | .mixPoll => Sys2Proof.Machine.execMixPoll s
  | .guardDecision b => Sys2Proof.Machine.execGuardDecision b s
  | .xmonHeartbeat b => Sys2Proof.Machine.execXmonHeartbeat b s
  | .xmonTimeout b => Sys2Proof.Machine.execXmonTimeout b s
  | .safeInputFilter b k demand => Sys2Proof.Machine.execSafeInputFilter b k demand s
  | .siDiscrepancy k => Sys2Proof.Machine.execSiDiscrepancy k s
  | .switchShort b n present => Sys2Proof.Machine.execSwitchShort b n present s
  | .switchStuck b n present => Sys2Proof.Machine.execSwitchStuck b n present s
  | .switchOpen b n present => Sys2Proof.Machine.execSwitchOpen b n present s
  | .brakeOpenLoad b n present => Sys2Proof.Machine.execBrakeOpenLoad b n present s
  | .brakeOverload present => Sys2Proof.Machine.execBrakeOverload present s
  | .testPulseStart b n off => Sys2Proof.Machine.execTestPulseStart b n off s
  | .testPulseEnd b n off back => Sys2Proof.Machine.execTestPulseEnd b n off back s
  | .sbtStep => Sys2Proof.Machine.execSbtStep s
  | .sbtDue => Sys2Proof.Machine.execSbtDue s
  | .sealChange a b => Sys2Proof.Machine.execSealChange a b s
  | .selftestComplete b pass crcOk => Sys2Proof.Machine.execSelftestComplete b pass crcOk s
  | .guardLockoutExpire b => Sys2Proof.Machine.execGuardLockoutExpire b s
  | .gaWrite d => Sys2Proof.Machine.execGaWrite d s
  | .gaRead d => Sys2Proof.Machine.execGaRead d s
  | .gaConfirm d => Sys2Proof.Machine.execGaConfirm d s
  | .gaPassword d => Sys2Proof.Machine.execGaPassword d s
  | .gaFaultClear d => Sys2Proof.Machine.execGaFaultClear d s
  | .gaSbt d => Sys2Proof.Machine.execGaSbt d s
  | .gaLogRead d => Sys2Proof.Machine.execGaLogRead d s
  | .gaReset d => Sys2Proof.Machine.execGaReset d s
  | .gbWrite d => Sys2Proof.Machine.execGbWrite d s
  | .gbRead d => Sys2Proof.Machine.execGbRead d s
  | .gbConfirm d => Sys2Proof.Machine.execGbConfirm d s
  | .gbPassword d => Sys2Proof.Machine.execGbPassword d s
  | .gbFaultClear d => Sys2Proof.Machine.execGbFaultClear d s
  | .gbLogRead d => Sys2Proof.Machine.execGbLogRead d s
  | .gbReset d => Sys2Proof.Machine.execGbReset d s
  | .doorbellPoll page descs => Sys2Proof.Machine.execDoorbellPoll page descs s
  | .cqEntryWrite n => Sys2Proof.Machine.execCqEntryWrite n s
  | .itmrExpire n => Sys2Proof.Machine.execItmrExpire n s
  | .msixUnmask v => Sys2Proof.Machine.execMsixUnmask v s
  | .ringCfgWrite v => Sys2Proof.Machine.execRingCfgWrite v s
  | .hostEnable v => Sys2Proof.Machine.execHostEnable v s
  | .hostDisable v => Sys2Proof.Machine.execHostDisable v s
  | .hostLatch v => Sys2Proof.Machine.execHostLatch v s
  | .hostInterfaceReset cause => Sys2Proof.Machine.execHostInterfaceReset cause s
  | .hostWatchdog => Sys2Proof.Machine.execHostWatchdog s
  | .dmaError kind n entry => Sys2Proof.Machine.execDmaError kind n entry s
  | .bar2Write a v => Sys2Proof.Machine.execBar2Write a v s
  | .configRequest q => Sys2Proof.Machine.execConfigRequest q s
  | .nop d => Sys2Proof.Machine.execNop d s
  | .paramWrite d => Sys2Proof.Machine.execParamWrite d s
  | .paramRead d => Sys2Proof.Machine.execParamRead d s
  | .sigRead d => Sys2Proof.Machine.execSigRead d s
  | .sigWrite d => Sys2Proof.Machine.execSigWrite d s
  | .fwWrite d => Sys2Proof.Machine.execFwWrite d s
  | .fwVerify d => Sys2Proof.Machine.execFwVerify d s
  | .fwVerifyDone ok => Sys2Proof.Machine.execFwVerifyDone ok s
  | .fwActivate d => Sys2Proof.Machine.execFwActivate d s
  | .fwInfo d => Sys2Proof.Machine.execFwInfo d s
  | .lpLoad d => Sys2Proof.Machine.execLpLoad d s
  | .lpCommit d => Sys2Proof.Machine.execLpCommit d s
  | .acqStart d => Sys2Proof.Machine.execAcqStart d s
  | .acqStop d => Sys2Proof.Machine.execAcqStop d s
  | .acqArm d => Sys2Proof.Machine.execAcqArm d s
  | .acqDisarm d => Sys2Proof.Machine.execAcqDisarm d s
  | .acqForce d => Sys2Proof.Machine.execAcqForce d s
  | .fastRow u sd lines => Sys2Proof.Machine.execFastRow u sd lines s
  | .trigIoEdge => Sys2Proof.Machine.execTrigIoEdge s
  | .trigIoPulseEnd => Sys2Proof.Machine.execTrigIoPulseEnd s
  | .acqPageTimeout k => Sys2Proof.Machine.execAcqPageTimeout k s
  | .acqLatch v => Sys2Proof.Machine.execAcqLatch v s
  | .periodicFlushDue => Sys2Proof.Machine.execPeriodicFlushDue s
  | .flushStart => Sys2Proof.Machine.execFlushStart s
  | .flushCommit retire0 retire1 fault0 fault1 => Sys2Proof.Machine.execFlushCommit retire0 retire1 fault0 fault1 s
  | .opMinuteTick => Sys2Proof.Machine.execOpMinuteTick s
  | .supplySample vin vbrk tj => Sys2Proof.Machine.execSupplySample vin vbrk tj s
  | .resetHeldEntry => Sys2Proof.Machine.execResetHeldEntry s
  | .recRecovery bad0 bad1 fault0 fault1 => Sys2Proof.Machine.execRecRecovery bad0 bad1 fault0 fault1 s
  | .recFlush d => Sys2Proof.Machine.execRecFlush d s
  | .recRead d => Sys2Proof.Machine.execRecRead d s
  | .powerFailTrigger => Sys2Proof.Machine.execPowerFailTrigger s
  | .vinLow => Sys2Proof.Machine.execVinLow s
  | .vinHigh => Sys2Proof.Machine.execVinHigh s
  | .vbrkLow => Sys2Proof.Machine.execVbrkLow s
  | .vbrkHigh => Sys2Proof.Machine.execVbrkHigh s
  | .vioFail b => Sys2Proof.Machine.execVioFail b s
  | .tjHigh => Sys2Proof.Machine.execTjHigh s
  | .pwrSet d => Sys2Proof.Machine.execPwrSet d s
  | .cabIdleExpire k => Sys2Proof.Machine.execCabIdleExpire k s
  | .retentionEntry => Sys2Proof.Machine.execRetentionEntry s
  | .entryComplete d => Sys2Proof.Machine.execEntryComplete d s
  | .wakeEvent k => Sys2Proof.Machine.execWakeEvent k s
  | .wakeComplete d lost => Sys2Proof.Machine.execWakeComplete d lost s
  | .leaveOffComplete d => Sys2Proof.Machine.execLeaveOffComplete d s
  | .holdRestart => Sys2Proof.Machine.execHoldRestart s
  | .powerOn straps => Sys2Proof.Machine.execPowerOn straps s
  | .resetNAssert => Sys2Proof.Machine.execResetNAssert s
  | .resetRelease => Sys2Proof.Machine.execResetRelease s
  | .softColdReset v => Sys2Proof.Machine.execSoftColdReset v s
  | .softCoreReset v => Sys2Proof.Machine.execSoftCoreReset v s
  | .bootWatchdog => Sys2Proof.Machine.execBootWatchdog s
  | .imageCheckComplete okA okB => Sys2Proof.Machine.execImageCheckComplete okA okB s
  | .hostReady => Sys2Proof.Machine.execHostReady s
  | .stageCommit b discard => Sys2Proof.Machine.execStageCommit b discard s
  | .stageDiscard b => Sys2Proof.Machine.execStageDiscard b s
  | .sysCommitAll v => Sys2Proof.Machine.execSysCommitAll v s
  | .stageIdleApply => Sys2Proof.Machine.execStageIdleApply s
  | .fieldGoWrite v => Sys2Proof.Machine.execFieldGoWrite v s
  | .goOverload n thermal present => Sys2Proof.Machine.execGoOverload n thermal present s
  | .giInputChange n level => Sys2Proof.Machine.execGiInputChange n level s
  | .timeBtLoRead => Sys2Proof.Machine.execTimeBtLoRead s
  | .rcCounterRead a => Sys2Proof.Machine.execRcCounterRead a s
  | .registerWrite a v => Sys2Proof.Machine.execRegisterWrite a v s
  | .uncorrectableSramError b => Sys2Proof.Machine.execUncorrectableSramError b s
  | .ownOscillatorCheckFailure b => Sys2Proof.Machine.execOwnOscillatorCheckFailure b s
  | .parameterCrcError b => Sys2Proof.Machine.execParameterCrcError b s
  | .vioFailEnd b => Sys2Proof.Machine.execVioFailEnd b s
  | .perstNRise => Sys2Proof.Machine.execPerstNRise s
  | .pcieLinkUp speed width => Sys2Proof.Machine.execPcieLinkUp speed width s

end Sys2Proof.Machine
end

