-- ==== Sys2Proof/Safety.lean ====
section
/-! DEFINITION. The terms that claims about the block use: a command that runs, the canonical form of
the cabinet, and when a descriptor takes effect. -/

namespace Sys2Proof.Machine

/-- The command answers a next state, and `P` holds of it. -/
def Runs (c : Instr) (s : State) (P : State → Prop) : Prop := ∃ t, exec c s = .next t ∧ P t

/-- The cabinet is in its canonical form: addresses rise strictly, and no byte is listed that reads 0. -/
def CabWf (m : List Host.Cell) : Prop := twf 0 m = true

/-- Where the block stands in the control cycle: the part of `Cyc` that only the cycle's own commands, the
end of power and a reset move. -/
structure Beat where
  running : Bool
  stopPend : Bool
  phase : Phase
  count : W32
  t0 : W64
  checked : Bool
  sampled : Bool
  trainSent : Bool
  deriving DecidableEq, Repr

/-- The beat of the control cycle. -/
def Cyc.beat (c : Cyc) : Beat :=
  ⟨c.running, c.stopPend, c.phase, c.count, c.t0, c.checked, c.sampled, c.trainSent⟩

/-- BT as one number of units of 2^-32 ns (R505). -/
def State.btUnits (s : State) : Nat := s.bt.toNat * 2 ^ 32 + s.frac.toNat

/-- Every register instance but the listed ones holds the same active value in both states. -/
def SameRegsBut (s t : State) (ks : List Nat) : Prop := ∀ q j, regKey q j ∉ ks → t.rg q j = s.rg q j

/-- Every byte of the cabinet reads the same in both states. -/
def SameCab (s t : State) : Prop := ∀ a, t.cabByte a = s.cabByte a

/-- The command entry of a descriptor that is fetched. -/
def cmdOf (s : State) (op : BitVec 8) (d : Desc) : Cmd := (s.fetchCmd op d).1

/-- The state in which a descriptor takes effect: it has been fetched, and the segments that it does not
go on with have ended (R362). -/
def taken (s : State) (op : BitVec 8) (d : Desc) : State := (s.fetchCmd op d).2.breakSegs op d

/-- A descriptor takes effect: CORE is on, the fetch accepts the descriptor, and no gate refuses it. -/
def Ready (s : State) (op : BitVec 8) (d : Desc) : Prop :=
  s.isOn 1 = true ∧ fetchCheck op d = none ∧ (taken s op d).gate op d = none

/-! ## Ledgers -/

/-- The edge and counter ledgers of every near axis balance modulo 2^32 (R252, R255). -/
def EdgeLedgers (s : State) : Prop :=
  ∀ n, (s.fb n).obs = (s.fb n).acc + (s.fb n).disc ∧
    (s.fb n).cnt = (s.fb n).up - (s.fb n).dn - (s.fb n).adj

/-- The volt-second ledger of every phase balances modulo 2^32 (R304), and carries are 0 outside RUN
(R305). -/
def VoltLedgers (s : State) : Prop :=
  ∀ m k, ((s.pwm m).phase k).diff =
      BitVec.ofInt 32 ((s.pwm m).phase k).carry + ((s.pwm m).phase k).sat ∧
    ((s.pwm m).st ≠ .run → ((s.pwm m).phase k).carry = 0)

/-! ## The Loop Engines -/

/-- An engine runs stage `r` with no transfer, exception or end on its way, and no breakpoint or trace
matches, or a handler runs, in which neither is raised (R147). -/
def Steady (s : State) (e : Nat) (r : EngRun) : Prop :=
  (s.eng e).run = some r ∧ (s.eng e).fin = none ∧ (s.eng e).tr = none ∧ (s.eng e).late = none ∧
  (s.eng e).exhEnd = false ∧ (s.eng e).pass = false ∧
  ((s.eng e).exh = true ∨ (s.bkptHit r (s.eng e).pc = false ∧ s.traceHit r = false)) ∧
  ∀ k, k < 3 → defaultWord ((s.eng e).pc + BitVec.ofNat 13 k).toNat = none

/-- The word holds nothing outside the slot that the row names, and its fetch is sound. -/
def Alone (io : Issue) : Prop := io.other = 0 ∧ io.im = .ok

/-- The engine after a word, apart from what its slots do: due results land, the accumulators that a
source sees move on (R134), and the next word follows. `k` corrected words are written back (R154). -/
def Engine.wordDone (x : Engine) (k : Nat := 1) : Engine :=
  let y := ({ x with fix := x.fix.drop k }).landUpTo (x.n + 1)
  { y with acc1 := x.acc, acc2 := x.acc1, n := x.n + 1, pc := x.pc + 1 }

/-- The state after a word that only writes `v` to Dd and sets the condition flags to `f`. -/
def State.aluDone (s : State) (e : Nat) (d : BitVec 5) (v : W24) (f : Flags) : State :=
  let y := (s.eng e).wordDone
  s.setEng e { y.setNamed (s.eng e).rotb d.toNat v with sw := putFlags y.sw f }

/-- The state after a word that only writes `v` to Dd and sets the sticky flags `st`. -/
def State.movDone (s : State) (e : Nat) (d : BitVec 5) (v : W24) (st : W24 := 0) : State :=
  let y := (s.eng e).wordDone
  s.setEng e { y.setNamed (s.eng e).rotb d.toNat v with sw := y.sw ||| st }

/-- The bits of a control register that exist (R184). -/
def crMask (cr : Nat) : W24 := if cr < 0x20 then 0x3FFF else if cr = 0x20 then 0xFFFF else 0xF

/-- A value held within the signed range of `w` bits. -/
def clampInt (w : Nat) (v : Int) : Int := max (-(2 ^ (w - 1))) (min (2 ^ (w - 1) - 1) v)

/-- An excursion counter whose count would be `z`: it holds its limit and pins (R122). -/
def AccV.holds (n : AccV) (z : Int) : Prop :=
  n.ex = max (-4) (min 3 z) ∧ n.pin = decide (z < -4 ∨ 3 < z)

/-- `n` is `o` with the addend `v` (R121, R122). -/
def AccV.adds (o : AccV) (v : Int) (n : AccV) : Prop :=
  let sum := o.v.toInt + v
  let d : Int := if 2 ^ 55 ≤ sum then 1 else if sum < -(2 ^ 55) then -1 else 0
  n.v.toInt = sum - d * 2 ^ 56 ∧
    if o.pin then n.ex = o.ex ∧ n.pin = true else n.holds (o.ex + d)

/-- An access of `x` loads Dd: the word lands for the word after next, 0 where R106 does not allow the
read (R107, R134). -/
def Engine.loads (x0 x : Engine) (slot d : Nat) (ac : Acx) : Engine :=
  let ok : Bool := (slot * 1024 ≤ ac.a && ac.a < slot * 1024 + 1024) || 0x3000 ≤ ac.a
  { x with
    lands := x.lands ++ [⟨x0.n + 2, .d (physD x0.rotb d), if ok then x0.ldmAt ac.a else 0⟩]
    sw := x.sw ||| (if ac.modv then swModv else 0) ||| (if ok then 0 else swAccv) }

/-- An access of `x` stores `v`; a store that R106 or R108 does not allow is discarded. -/
def Engine.stores (x : Engine) (slot : Nat) (ac : Acx) (v : W24) (sat : Bool) : Engine :=
  let ok : Bool := (slot * 1024 ≤ ac.a && ac.a < slot * 1024 + 1023) || (0x3000 ≤ ac.a && ac.a < 0x3800)
  let y := if ok then x.ldmPut ac.a v else x
  { y with sw := y.sw ||| (if ac.modv then swModv else 0) ||| (if sat then swSat else 0) |||
      (if ok then 0 else swAccv) }

/-- What a slot may hold without being a reserved encoding (R162 to R184). -/
def CmacOp.legal : CmacOp → Bool
  | .asra _ sh => 1 ≤ sh.toNat && sh.toNat ≤ 24
  | .asla _ sh => 1 ≤ sh.toNat && sh.toNat ≤ 8
  | _ => true
def MemOp.legal : MemOp → Bool
  | .pair k _ _ => k ≠ 31
  | _ => true
def AluOp.legal : AluOp → Bool
  | .mvcTo cr _ | .moviCr cr _ => cr.toNat ≤ 0x22
  | .mvcFrom _ cr => cr.toNat ≤ 0x25
  | .mvxFrom _ _ part | .mvxTo _ part _ => part ≠ 3
  | _ => true

end Sys2Proof.Machine

namespace Sys2Proof

/-- The opcode and the descriptor of a row that is a descriptor. -/
def Instr.desc? : Instr → Option (BitVec 8 × Desc)
  | .ctxCancel d => some (0x01, d)
  | .axEnable d => some (0x10, d)
  | .axMove d => some (0x11, d)
  | .axVel d => some (0x12, d)
  | .axPvt d => some (0x13, d)
  | .axStep d => some (0x14, d)
  | .axGear d => some (0x15, d)
  | .axCam d => some (0x16, d)
  | .axStop d => some (0x17, d)
  | .grpDefine d => some (0x20, d)
  | .grpLine d => some (0x21, d)
  | .grpArc d => some (0x22, d)
  | .grpHold d => some (0x23, d)
  | .grpResume d => some (0x24, d)
  | .grpFlush d => some (0x25, d)
  | .grpPos d => some (0x2E, d)
  | .evArm d => some (0x30, d)
  | .evDisarm d => some (0x31, d)
  | .ctLoad d => some (0x32, d)
  | .ctCommit d => some (0x33, d)
  | .vmSet d => some (0x34, d)
  | .hmStart d => some (0x18, d)
  | .hmSet d => some (0x19, d)
  | .limClear d => some (0x1A, d)
  | .timeSlew d => some (0x08, d)
  | .timeStep d => some (0x09, d)
  | .twinSwitch d => some (0x70, d)
  | .twinClaim d => some (0x71, d)
  | .twinRejoin d => some (0x72, d)
  | .gaWrite d => some (0x80, d)
  | .gaRead d => some (0x81, d)
  | .gaConfirm d => some (0x82, d)
  | .gaPassword d => some (0x83, d)
  | .gaFaultClear d => some (0x84, d)
  | .gaSbt d => some (0x85, d)
  | .gaLogRead d => some (0x86, d)
  | .gaReset d => some (0x87, d)
  | .gbWrite d => some (0x90, d)
  | .gbRead d => some (0x91, d)
  | .gbConfirm d => some (0x92, d)
  | .gbPassword d => some (0x93, d)
  | .gbFaultClear d => some (0x94, d)
  | .gbLogRead d => some (0x96, d)
  | .gbReset d => some (0x97, d)
  | .nop d => some (0x00, d)
  | .paramWrite d => some (0x40, d)
  | .paramRead d => some (0x41, d)
  | .sigRead d => some (0x42, d)
  | .sigWrite d => some (0x43, d)
  | .fwWrite d => some (0xF0, d)
  | .fwVerify d => some (0xF1, d)
  | .fwActivate d => some (0xF2, d)
  | .fwInfo d => some (0xF3, d)
  | .lpLoad d => some (0xF4, d)
  | .lpCommit d => some (0xF5, d)
  | .acqStart d => some (0x50, d)
  | .acqStop d => some (0x51, d)
  | .acqArm d => some (0x52, d)
  | .acqDisarm d => some (0x53, d)
  | .acqForce d => some (0x54, d)
  | .recFlush d => some (0xF6, d)
  | .recRead d => some (0xF7, d)
  | .pwrSet d => some (0x60, d)
  | _ => none

/-- The commands that may move the beat: the cycle's own, a write of any register (DISP_CYC_CTL and SYS_RST
are registers), the end of power, and what resets the block. -/
def Instr.movesBeat : Instr → Bool
  | .cycleRun _ | .cycleStop _ | .cycleEnd | .hingePoint | .commitSetCheck | .sampleInstant _
  | .carrierTrain | .deadlineAbort | .drainComplete | .registerWrite _ _ | .powerFailTrigger
  | .powerOn _ | .resetNAssert | .holdRestart | .softColdReset _ | .softCoreReset _ | .bootWatchdog
  | .vioFail _ => true
  | _ => false

end Sys2Proof

namespace Sys2Proof.Machine

/-- Where a descriptor row takes effect (`Ready`), it completes, and `P` holds of the state in which it
does, its command entry and the state after it. -/
def Takes (c : Instr) (s : State) (P : State → Option Cmd → State → Prop) : Prop :=
  ∀ op d, c.desc? = some (op, d) → Ready s op d →
    Runs c s (P (taken s op d) (some (cmdOf s op d)))

/-- No axis but `c` changes. -/
def OtherAxes (c : Nat) (u t : State) : Prop := ∀ k, k ≠ c → t.ax k = u.ax k

end Sys2Proof.Machine
end

