-- ==== Sys2Proof/Certificates/Slice0/Obligations.lean ====
section
/-! DEFINITION. The statements about the block that the provers prove. -/

open Sys2Proof Sys2Proof.Machine

/-- A step takes the command at the front of the queue. -/
def Obligations.StepRunsFrontCommand : Prop :=
  ∀ (c : Instr) (s : State) (rest : List Instr), s.pending = c :: rest →
    step s = exec c { s with pending := rest }

/-- R505. That a step with no command is a CLK_CORE edge is the model's choice. -/
def Obligations.EmptyQueueIsOneClockEdge : Prop :=
  ∀ s : State, s.pending = [] → ∃ t, step s = .next t ∧
    t.btUnits =
      (s.btUnits + (2 ^ 32 + (s.rateY * 2 ^ 32).floor).toNat) % 2 ^ 96 ∧
    t = { s with bt := t.bt, frac := t.frac, tm := t.tm }

/-- Every command completes, and the queue is left to the step. -/
def Obligations.NoCommandTouchesTheQueue : Prop :=
  ∀ (c : Instr) (s : State), Runs c s (fun t => t.pending = s.pending)

/-- The cabinet's canonical form is an invariant of every step. -/
def Obligations.CabinetFormKeptByEveryStep : Prop :=
  ∀ s t : State, CabWf s.cab → step s = .next t → CabWf t.cab

/-- The invariants of the step hold at reset. -/
def Obligations.InvariantsHoldAtReset : Prop :=
  CabWf State.reset.cab ∧ (∀ a, State.reset.cabByte a = 0) ∧ EdgeLedgers State.reset ∧
    VoltLedgers State.reset

/-- R14, R15, R18: no other command starts, stops or moves the cycle. -/
def Obligations.OnlyCycleCommandsMoveTheBeat : Prop :=
  ∀ (c : Instr) (s t : State), c.movesBeat = false → exec c s = .next t →
    t.cyc.beat = s.cyc.beat

/-- R507, R735, and the reset values of the register tables. -/
def Obligations.ResetLeavesTheBlockReleased : Prop :=
  let r := State.reset
  r.bt = 0 ∧ r.frac = 0 ∧ r.cyc.running = false ∧ r.cyc.count = 0 ∧ (∀ d, r.isOn d = true) ∧
    (∀ q k, r.rg q k = q.reset) ∧ (∀ q k, r.stg q k = r.rg q k) ∧ r.pending = [] ∧ r.outputs = [] ∧
    (∀ n, (r.cq n).buf = []) ∧ r.host.queue = [] ∧
    r.rg DISP_CYC_PERIOD = 0x7A12 ∧ r.rg DISP_CYC_HINGE = 0x7D0 ∧ r.rg DISP_CYC_SAMPLE = 0x3E8 ∧
    r.rg DISP_CYC_CARRIER = 0xBB8 ∧ r.rg DISP_CYC_DEADLINE = 0 ∧ r.rg DISP_CYC_CTL = 0x300

/-- R8, and what it is for. -/
def Obligations.StampsOrderAcrossTheWrap : Prop :=
  (∀ a b : W32, bt32After a b = true ↔
    1 ≤ (a.toNat + 2 ^ 32 - b.toNat) % 2 ^ 32 ∧ (a.toNat + 2 ^ 32 - b.toNat) % 2 ^ 32 ≤ 2 ^ 31 - 1) ∧
  (∀ a b : W32, bt32After a b = true → bt32After b a = false) ∧
  ∀ t u : W64, t.toNat < u.toNat → u.toNat - t.toNat < 2 ^ 31 →
    bt32After (u.setWidth 32) (t.setWidth 32) = true

/-- R4, R610: words of the cabinet are little-endian. -/
def Obligations.CabinetWordsReadBack : Prop :=
  ∀ (s : State) (a : Nat) (v : W32),
    (∀ i, i < 4 → (s.setCabWord a v).cabByte (a + i) = v.extractLsb' (8 * i) 8) ∧
    (s.setCabWord a v).cabWord a = v ∧
    ∀ b, (b < a ∨ a + 4 ≤ b) → (s.setCabWord a v).cabByte b = s.cabByte b

/-- R14. -/
def Obligations.CycleRunFixesTheFirstT0 : Prop :=
  ∀ (s : State) (limit : BitVec 4), s.isOn 1 = true →
    let p := s.rf DISP_CYC_PERIOD 0 19 0
    12500 ≤ p → p ≤ 1000000 → s.bt.toNat + 1100000 < 2 ^ 64 →
    Runs (.cycleRun limit) s (fun t =>
      t.cyc.running = true ∧ t.cyc.stopPend = false ∧ bitOf (t.rg DISP_CYC_CTL) 0 = true ∧
      (s.cyc.running = false → t.cyc.nextT0.toNat % p = 0 ∧
        s.bt.toNat + 100000 ≤ t.cyc.nextT0.toNat ∧ t.cyc.nextT0.toNat < s.bt.toNat + 100000 + p) ∧
      (s.cyc.running = true → t.cyc = { s.cyc with stopPend := false }) ∧
      SameRegsBut s t [regKey DISP_CYC_CTL 0] ∧ t = { s with cyc := t.cyc, regs := t.regs })

/-- R15, R16 and R59. -/
def Obligations.CycleStopEndsOrIsRefused : Prop :=
  ∀ (s : State) (limit : BitVec 4), s.isOn 1 = true →
    let lim (t : State) : Nat := t.rf DISP_CYC_CTL 0 11 8
    let want : Nat := if limit = 0 then lim s else limit.toNat
    Runs (.cycleRun limit) s (fun t => lim t = want) ∧
    (s.anyAxis = false → Runs (.cycleStop limit) s (fun t =>
      bitOf (t.rg DISP_CYC_CTL) 0 = false ∧ lim t = want ∧
      t.cyc = (if s.cyc.running then { s.cyc with stopPend := true } else s.cyc) ∧
      SameRegsBut s t [regKey DISP_CYC_CTL 0] ∧ t = { s with cyc := t.cyc, regs := t.regs })) ∧
    (s.anyAxis = true → Runs (.cycleStop limit) s (fun t => ∃ u : State, t = u.post 0x0C03 .warn 0 ∧
      bitOf (u.rg DISP_CYC_CTL) 0 = bitOf (s.rg DISP_CYC_CTL) 0 ∧ lim u = want ∧
      SameRegsBut s u [regKey DISP_CYC_CTL 0] ∧ u = { s with regs := u.regs }))

/-- The steps of a cycle, by the beat they leave. -/
def Obligations.CycleStepsInTheirPhases : Prop :=
  ∀ s : State,
    (s.cyc.running = true → s.cyc.stopPend = false → Runs .hingePoint s (fun t =>
      t.cyc.beat = { s.cyc.beat with
        count := s.cyc.count + 1, t0 := t.cyc.t0, phase := .active, checked := false,
        sampled := false, trainSent := false } ∧
      (s.cyc.phase = .sill → s.cyc.checked = true → t.cyc.t0 = s.cyc.nextT0))) ∧
    (s.cyc.running = true → s.cyc.checked = false → Runs .commitSetCheck s (fun t =>
      t.cyc.beat = { s.cyc.beat with checked := true })) ∧
    (s.cyc.running = true → s.cyc.phase = .active → s.cyc.sampled = false →
      ∀ lines, Runs (.sampleInstant lines) s (fun t =>
        t.cyc.beat = { s.cyc.beat with sampled := true })) ∧
    (s.cyc.running = true → s.cyc.phase = .active → s.cyc.trainSent = false →
      Runs .carrierTrain s (fun t => t.cyc.beat = { s.cyc.beat with trainSent := true })) ∧
    (s.cyc.running = true → s.cyc.phase = .active → Runs .deadlineAbort s (fun t =>
      t.cyc.beat = { s.cyc.beat with phase := .drain })) ∧
    (s.cyc.running = true → s.cyc.phase = .drain → Runs .drainComplete s (fun t =>
      t.cyc.beat = { s.cyc.beat with phase := .sill })) ∧
    (s.cyc.running = true → s.cyc.stopPend = true → Runs .cycleEnd s (fun t =>
      t.cyc.running = false ∧ t.cyc.stopPend = false ∧ t.cyc.phase = .idle ∧
      t.cyc.count = s.cyc.count)) ∧
    (s.cyc.running = false → ∀ c ∈ [Instr.hingePoint, .carrierTrain, .deadlineAbort, .drainComplete,
      .cycleEnd], exec c s = .next s)

/-- R51, R52, R775. -/
def Obligations.ScrubberVisitsItsUnits : Prop :=
  ∀ (s : State) (bank : Fin 8) (ecc : Ecc) (w : Fin 16), s.isOn (7 + bank.val) = true →
    let u := tget 0 s.cyc.scrubUnit bank.val
    Runs (.scrubGrant bank ecc w) s (fun t =>
      tget 0 t.cyc.scrubUnit bank.val = (u + 1) % 16384 ∧
      (∀ k, k ≠ bank.val → tget 0 t.cyc.scrubUnit k = tget 0 s.cyc.scrubUnit k) ∧
      t.rg CAB_ECC_CORR = (if ecc = .corrected then satAdd (s.rg CAB_ECC_CORR) 1 else s.rg CAB_ECC_CORR) ∧
      t.rg CAB_ECC_UE = (if ecc = .uncorrectable then satAdd (s.rg CAB_ECC_UE) 1 else s.rg CAB_ECC_UE) ∧
      (ecc = .uncorrectable → t.rg CAB_UE_ADDR =
        BitVec.ofNat 32 (2 ^ 31 + (bank.val * 0x100000 + u * 64 + 4 * w.val))) ∧
      SameRegsBut s t [regKey CAB_ECC_CORR 0, regKey CAB_ECC_UE 0, regKey CAB_UE_ADDR 0, regKey CAB_SWEEPS 0] ∧
      t.cyc = { s.cyc with scrubUnit := t.cyc.scrubUnit, sweeps := t.cyc.sweeps } ∧
      t = { s with regs := t.regs, cyc := t.cyc })

/-- R76, R80. -/
def Obligations.DispatchedStageStartsAtItsEntry : Prop :=
  ∀ (s : State) (e k c i slot : Nat) (x : StageRun), s.nextDispatch = some (e, k, c, i, x) →
    s.resident c = some (e, slot) → (s.stage? c i).isSome = true → i < 16 → c < 256 → slot < 12 → e < 24 →
    Runs (.stageDispatch none) s (fun t => ∃ u : State, t = u.noteLost ∧
      (u.eng e).pc = stwEntry (s.stw c i) ∧ tget 0 (u.eng e).base 0 = BitVec.ofNat 14 (slot * 1024) ∧
      (u.eng e).dreg 0 = BitVec.ofNat 24 c ∧
      (u.eng e).dreg 1 = BitVec.ofNat 24 (i + if x.cancelRun then 0x800000 else 0) ∧
      (∃ r, (u.eng e).run = some r ∧ r.ctx = c ∧ r.stage = i ∧ r.slot = slot) ∧
      (u.stage? c i).map StageRun.st = some .running ∧ (u.ctx c).aff = e ∧
      ∀ e', e' ≠ e → u.eng e' = s.eng e')

/-- The dispatcher's other rows, and the uplink cell. -/
def Obligations.DispatcherRowsDoTheirPart : Prop :=
  ∀ s : State,
    (s.isOn 1 = true → Runs .dispTokLatch s (fun t =>
      t.rg DISP_TOK_ISSUED = s.disp.tok.issued ∧ t.rg DISP_TOK_RETIRED = s.disp.tok.retired ∧
      t.rg DISP_TOK_DROPPED = s.disp.tok.dropped ∧ t.rg DISP_TOK_STRAY = s.disp.tok.stray ∧
      (s.disp.tok.issued = s.disp.tok.retired + s.disp.tok.dropped →
        t.rg DISP_TOK_ISSUED = t.rg DISP_TOK_RETIRED + t.rg DISP_TOK_DROPPED) ∧
      SameRegsBut s t [regKey DISP_TOK_ISSUED 0, regKey DISP_TOK_RETIRED 0, regKey DISP_TOK_DROPPED 0,
        regKey DISP_TOK_STRAY 0] ∧
      t = { s with regs := t.regs, disp := { s.disp with tok := {} } })) ∧
    (∀ (e : Fin 24) (r : EngRun), (s.eng e).run = some r → (s.eng e).xfer = none →
      s.libStage r.ctx r.stage = true ∨ (s.eng e).fin.isSome = true →
      Runs (.stageComplete e) s (fun t => ∃ u : State, t = u.noteLost ∧ (u.eng e).run = none ∧
        (u.eng e).fin = none ∧ (s.libStage r.ctx r.stage = false →
          (s.stage? r.ctx r.stage).isSome = true →
          (u.stage? r.ctx r.stage).map StageRun.st = some .complete))) ∧
    (∀ e : Fin 24, (s.eng e).run = none → exec (.stageComplete e) s = .next s) ∧
    (∀ (e k c i : Nat) (x : StageRun) (w : Fin 1024), s.nextDispatch = some (e, k, c, i, x) → e < 24 →
      (∀ slot, s.resident c ≠ some (e, slot)) → (s.run c).isSome = true →
      Runs (.stageDispatch (some w)) s (fun t => ∃ u : State, t = u.noteLost ∧
        (u.ctx c).disable = true ∧ (u.stage? c i).map StageRun.st = some .cancelled)) ∧
    Runs .shelfCredit s (fun t => t = { s with runs := t.runs } ∧
      ∀ c i x, i < 16 → s.stage? c i = some x → t.stage? c i = some
        (if x.st = .credit ∧ s.hasCredit c i x = true then { x with st := .ready } else x)) ∧
    (∀ (f : BitVec 6) (sl : ShelfSlot), tget none (s.flow f.toNat).slots (s.flow f.toNat).h = some sl →
      sl.item = none → Runs (.flowRelease f) s (fun t =>
        t = s.setFlow f.toNat (passHoles 2048 (s.flow f.toNat)) ∧
        (sl.hole = false → t.flow f.toNat = s.flow f.toNat))) ∧
    (∀ (f : BitVec 6) (sl : ShelfSlot) (bs : List Byte),
      tget none (s.flow f.toNat).slots (s.flow f.toNat).h = some sl → sl.item = some bs →
      Runs (.flowRelease f) s (fun t => ∃ v : State, t = (v.consume f.toNat sl bs).noteLost ∧
        v.rg DISP_FLOW_REL f.toNat = satAdd (s.rg DISP_FLOW_REL f.toNat) 1 ∧
        (s.flow f.toNat).h < (v.flow f.toNat).h ∧ SameRegsBut s v [regKey DISP_FLOW_REL f.toNat] ∧
        (∀ g, g ≠ f.toNat → v.flow g = s.flow g) ∧ v = { s with flows := v.flows, regs := v.regs } ∧
        (16 ≤ f.toNat → v.consume f.toNat sl bs = v.postEntry (v.rf DISP_FLOW_BIND f.toNat 5 0)
          { ty := .item, src := BitVec.ofNat 8 sl.ctx, bt := s.bt32
            status := (bs.getD 0 0) ++ (bs.getD 1 0)
            payload := payOf ((List.range 16).map (fun i => (bs.getD (2 + i) 0).toNat)) }))) ∧
    (∀ f : BitVec 6, tget none (s.flow f.toNat).slots (s.flow f.toNat).h = none →
      exec (.flowRelease f) s = .next s) ∧
    (∀ plan set empty, s.disp.due = true → Runs (.placementWindow plan set empty) s (fun t =>
      t.disp.due = false ∧ (bitOf (s.rg DISP_PLACE) 31 = false → t = { s with disp.due := false }) ∧
      ∀ g ∈ t.disp.plan, g ∈ s.disp.plan ∨ (∃ p ∈ plan, g = [⟨p.1, p.2⟩]) ∨
        g = set.map (fun p => ⟨p.1, p.2⟩))) ∧
    (s.disp.window = 255 → s.countWindow.disp.window = 0 ∧ s.countWindow.disp.due = true ∧
      ∀ e, e < 24 → (s.countWindow.eng e).mean = (s.eng e).busy / 256 ∧ (s.countWindow.eng e).busy = 0) ∧
    (∀ g, s.livePlan.find? (fun g => g.all (fun m => !s.ctxRunning m.ctx)) = some g → s.cyc.phase = .sill →
      s.cyc.moves + g.length ≤ min 4 (s.rf DISP_PLACE 0 2 0) →
      Runs .drawerMigration s (fun t => t.disp.plan = s.livePlan.erase g ∧
        t.cyc.moves = s.cyc.moves + g.length ∧
        t.rg DISP_MIG_COUNT = satAdd (s.rg DISP_MIG_COUNT) g.length ∧
        (∀ m ∈ g, (t.ctx m.ctx).home = m.dst ∧ (t.ctx m.ctx).aff = m.dst) ∧
        ∀ m k ev, g = [m] → m.ctx ≠ 0 → s.resident m.ctx = none → s.slotFor m.dst = some (k, ev) →
          t.resident m.ctx = some (m.dst, k))) ∧
    (∀ (p : Fin 4) (rx : RxCell), (s.ownRx p rx).2.1 = true → rx.cell.typ = 0xA3 →
      let u := (s.ownRx p rx).1
      (s.ownRx p rx).2.2 = false ∨ u.cyc.phase ≠ .active ∨ rx.cell.seq ≠ u.cyc16 ∨
        u.cyc.t0 + BitVec.ofNat 64 u.deadline ≤ u.bt →
      Runs (.upCellArrival p rx) s (fun t =>
        t.rg DISP_CYC_LATE_UP = satAdd (u.rg DISP_CYC_LATE_UP) 1 ∧ t.lnk = u.lnk ∧ t.runs = u.runs)) ∧
    ∀ (p : Fin 4) (rx : RxCell) (k : Carrier), let u := (s.ownRx p rx).1
      (s.ownRx p rx).2 = (true, true) → rx.cell.typ = 0xA3 → u.cyc.phase = .active →
      rx.cell.seq = u.cyc16 → u.bt < u.cyc.t0 + BitVec.ofNat 64 u.deadline →
      tget none u.lnk.carriers (nodeKey (p.val / 2) rx.cell.node.toNat) = some k →
      k.axs = rx.cell.axs → k.sub = rx.cell.sub →
      Runs (.upCellArrival p rx) s (fun t => ∃ v : State,
        t = k.ctxs.foldl (fun z c => z.extTok c 1) v ∧
        ∀ c e n, k.ctxs = [c] → u.resident c = some (e, n) → ∃ w : State,
          v = w.nodeFaults c (p.val / 2) rx.cell.node.toNat (BitVec.ofNat 16 (rx.cell.be 8 2)) ∧
          w.drawer c 0x3F0 = rx.cell.fbAge.setWidth 24 ∧
          ∀ j, j < 16 → w.drawer c (0x3E0 + j) = (inboxWords rx.cell 0 (u.isDuty c)).getD j 0)

/-- R160 to R184: decode of encode, for every legal word. -/
def Obligations.LoopWordsRoundTrip : Prop :=
  (∀ (c : CmacOp) (m : MemOp) (a : AluOp), c.legal = true → m.legal = true → a.legal = true →
    let w := leWord (encCmac c) (encMem m) (encAlu a)
    decCmac (slotCmac w) = some c ∧ decMem (slotMem w) = some m ∧ decAlu (slotAlu w) = some a) ∧
  (∀ v c, decCmac v = some c → c.legal = true) ∧ (∀ v m, decMem v = some m → m.legal = true) ∧
  (∀ v a, decAlu v = some a → a.legal = true) ∧
  (∀ (w : W64) (c : CmacOp), slotCmac (withCmac w c) = encCmac c ∧
    slotMem (withCmac w c) = slotMem w ∧ slotAlu (withCmac w c) = slotAlu w) ∧
  (∀ (w : W64) (m : MemOp), slotCmac (withMem w m) = slotCmac w ∧
    slotMem (withMem w m) = encMem m ∧ slotAlu (withMem w m) = slotAlu w) ∧
  (∀ (w : W64) (a : AluOp), slotCmac (withAlu w a) = slotCmac w ∧
    slotMem (withAlu w a) = slotMem w ∧ slotAlu (withAlu w a) = encAlu a) ∧
  decCmac (slotCmac 0) = some .nop ∧ decMem (slotMem 0) = some .nop ∧ decAlu (slotAlu 0) = some .nop

/-- R127; also R181 and R182 for the other operations. -/
def Obligations.AluRowsWriteResultAndFlags : Prop :=
  ∀ (s : State) (io : Issue) (r : EngRun) (d a b : BitVec 5), Steady s io.e r → Alone io →
    let x := s.eng io.e
    let p := x.dreg a.toNat
    let q := x.dreg b.toNat
    let f := flagsOf x.sw
    let cin : Nat := if f.c then 1 else 0
    let done (v : W24) (n : Flags) : Host.Outcome State Fault Refusal := .next (s.aluDone io.e d v n)
    let up (v : W24) (cy : Bool) : Flags := ⟨v.msb, v == 0, p.msb == q.msb && v.msb != p.msb, cy⟩
    let dn (v : W24) (cy : Bool) : Flags := ⟨v.msb, v == 0, p.msb != q.msb && v.msb != p.msb, cy⟩
    let logic (v : W24) : Host.Outcome State Fault Refusal := done v ⟨v.msb, v == 0, false, f.c⟩
    let lo : W24 := if p.toInt ≤ q.toInt then p else q
    let hi : W24 := if p.toInt ≤ q.toInt then q else p
    let ab : W24 := BitVec.ofInt 24 (min (2 ^ 23 - 1) (max p.toInt (-p.toInt)))
    exec (.add io d a b) s = done (p + q) (up (p + q) (decide (2 ^ 24 ≤ p.toNat + q.toNat))) ∧
    exec (.adc io d a b) s = done (p + q + BitVec.ofNat 24 cin)
      (up (p + q + BitVec.ofNat 24 cin) (decide (2 ^ 24 ≤ p.toNat + q.toNat + cin))) ∧
    exec (.sub io d a b) s = done (p - q) (dn (p - q) (decide (q.toNat ≤ p.toNat))) ∧
    exec (.sbc io d a b) s = done (p + ~~~q + BitVec.ofNat 24 cin)
      (dn (p + ~~~q + BitVec.ofNat 24 cin) (decide (q.toNat + 1 ≤ p.toNat + cin))) ∧
    exec (.cmp io a b) s = .next (s.setEng io.e
      { x.wordDone with sw := putFlags x.wordDone.sw (dn (p - q) (decide (q.toNat ≤ p.toNat))) }) ∧
    exec (.and io d a b) s = logic (p &&& q) ∧ exec (.or io d a b) s = logic (p ||| q) ∧
    exec (.xor io d a b) s = logic (p ^^^ q) ∧
    exec (.min io d a b) s = done lo ⟨lo.msb, lo == 0, f.v, f.c⟩ ∧
    exec (.max io d a b) s = done hi ⟨hi.msb, hi == 0, f.v, f.c⟩ ∧
    exec (.abs io d a) s = done ab ⟨ab.msb, ab == 0, p == 0x800000, f.c⟩ ∧
    exec (.mov io d a) s = .next (s.movDone io.e d p)

/-- R183; also R181 and R182. -/
def Obligations.ShiftsAndImmediates : Prop :=
  ∀ (s : State) (io : Issue) (r : EngRun) (d a b u : BitVec 5) (imm : BitVec 11),
    Steady s io.e r → Alone io →
    let x := s.eng io.e
    let p := x.dreg a.toNat
    let f := flagsOf x.sw
    let out (v : W24) (n : Nat) (cy : Bool) : Host.Outcome State Fault Refusal :=
      .next (s.aluDone io.e d v ⟨v.msb, v == 0, false, if n = 0 then f.c else cy⟩)
    let left (n : Nat) := out (p <<< n) n (p <<< (n - 1)).msb
    let right (n : Nat) := out (p >>> n) n ((p >>> (n - 1)).getLsbD 0)
    let arith (n : Nat) := out (p.sshiftRight n) n ((p.sshiftRight (n - 1)).getLsbD 0)
    let n := (x.dreg b.toNat).toNat % 32
    let q := x.dreg d.toNat
    let i := BitVec.ofInt 24 imm.toInt
    exec (.lsl io d a b) s = left n ∧ exec (.lsr io d a b) s = right n ∧
    exec (.asr io d a b) s = arith n ∧
    exec (.lsli io d a u) s = left u.toNat ∧ exec (.lsri io d a u) s = right u.toNat ∧
    exec (.asri io d a u) s = arith u.toNat ∧
    exec (.addi io d imm) s = .next (s.aluDone io.e d (q + i) ⟨(q + i).msb, q + i == 0,
      q.msb == i.msb && (q + i).msb != q.msb, decide (2 ^ 24 ≤ q.toNat + i.toNat)⟩) ∧
    exec (.movi io d imm) s = .next (s.movDone io.e d i) ∧
    exec (.movhi io d imm) s = .next (s.movDone io.e d (BitVec.ofInt 24 (imm.toInt * 2 ^ 11))) ∧
    (let v := q ||| BitVec.ofNat 24 imm.toNat
     exec (.ori io d imm) s = .next (s.aluDone io.e d v ⟨v.msb, v == 0, false, f.c⟩)) ∧
    ∀ k, 24 ≤ k → p <<< k = 0 ∧ p >>> k = 0 ∧ p.sshiftRight k = if p.msb then 0xFFFFFF else 0

/-- R126, R184, R185. -/
def Obligations.ControlRegisterRows : Prop :=
  ∀ (s : State) (io : Issue) (r : EngRun) (d q : BitVec 5) (cr : BitVec 6) (k : BitVec 2),
    Steady s io.e r → Alone io →
    let x := s.eng io.e
    let y := x.wordDone
    let v := x.dreg q.toNat
    let written (w : W24) (t : State) : Prop := ∃ z : Engine, t = s.setEng io.e z ∧
      (cr.toNat < 0x22 → z.crRead cr.toNat = w &&& crMask cr.toNat) ∧
      (cr = 0x22 → z.crRead 0x22 = (w &&& 0xF78F) ||| (x.swRead &&& 0x10800)) ∧
      (∀ j, j ≤ 0x25 → j ≠ cr.toNat → z.crRead j = y.crRead j) ∧
      z = { y with
        ofs := z.ofs, base := z.base, len := z.len, str := z.str, lc := z.lc, rotb := z.rotb,
        sw := z.sw, acc := { y.acc with pin := z.acc.pin } }
    (cr.toNat ≤ 0x22 → Runs (.mvcToCr io cr q) s (written v) ∧
      ∀ imm : BitVec 10, Runs (.moviCr io cr imm) s (written (BitVec.ofInt 24 imm.toInt))) ∧
    (cr.toNat ≤ 0x25 → exec (.mvcFromCr io d cr) s = .next (s.movDone io.e d (x.crRead cr.toNat))) ∧
    (∀ u : BitVec 16, exec (.moviLc io u) s = .next (s.setEng io.e { y with lc := u })) ∧
    (let a := x.acc2.get k.toNat
     let move (part : BitVec 2) (w : W24) : Prop :=
      exec (.mvxFromAcc io d k part) s = .next (s.movDone io.e d w)
     move 0 (a.v.extractLsb' 0 24) ∧ move 1 (a.v.extractLsb' 24 24) ∧
     move 2 (BitVec.ofNat 24 ((if a.pin then 2048 else 0) + 256 * (a.ex % 8).toNat +
       (a.v.extractLsb' 48 8).toNat))) ∧
    ∀ part : BitVec 2, part ≠ 3 → Runs (.mvxToAcc io k part q) s (fun t => ∃ z : Accs,
      t = s.setEng io.e { y with acc := z } ∧ (∀ j, j < 4 → j ≠ k.toNat → z.get j = x.acc.get j) ∧
      let o := x.acc.get k.toNat
      let n := z.get k.toNat
      n.v.extractLsb' 0 24 = (if part = 0 then v else o.v.extractLsb' 0 24) ∧
      n.v.extractLsb' 24 24 = (if part = 1 then v else o.v.extractLsb' 24 24) ∧
      n.v.extractLsb' 48 8 = (if part = 2 then v.extractLsb' 0 8 else o.v.extractLsb' 48 8) ∧
      n.ex = (if part = 2 then (v.extractLsb' 8 3).toInt else o.ex) ∧
      n.pin = (if part = 2 then v.getLsbD 11 else o.pin))

/-- R123, R124, R125; R172 for the modes, R176 for the outbox. -/
def Obligations.StoresOfAccumulatorsSaturate : Prop :=
  (∀ (m : BitVec 2) (a : AccV),
    let w : Nat := if m = 1 ∨ m = 2 then 48 else 24
    let full : Int := if m = 0 then (a.v.toInt + 2 ^ 22) / 2 ^ 23 else a.v.toInt
    let held : Int := if 0 < a.ex then 2 ^ (w - 1) - 1 else if a.ex < 0 then -(2 ^ (w - 1))
      else clampInt w full
    conv m a = (BitVec.ofInt 24 (if m = 1 then held / 2 ^ 24 else held),
      decide (a.ex ≠ 0 ∨ clampInt w full ≠ full))) ∧
  ∀ (s : State) (io : Issue) (r : EngRun) (d : BitVec 5) (m k : BitVec 2) (o : BitVec 4),
    Steady s io.e r → Alone io →
    let x := s.eng io.e
    let c := conv m (x.acc2.get k.toNat)
    let st : W24 := if c.2 then 0x80 else 0
    exec (.movAcc io d m k) s = .next (s.movDone io.e d c.1 st) ∧
    exec (.mvoAcc io o m k) s = .next (s.setEng io.e
      { x.wordDone with ob := tset 0 x.ob o.toNat c.1, sw := x.wordDone.sw ||| st })

/-- R135, R136, R137, R138, R149, R150, R188, R189, R190, R191. -/
def Obligations.TransfersTakeTwoDelaySlots : Prop :=
  ∀ (s : State) (i0 i1 i2 : Issue) (r : EngRun) (a b : Slot), Steady s i0.e r → Alone i0 →
    Alone i1 → Alone i2 → i1.e = i0.e → i2.e = i0.e →
    bitOf (s.rg LE_BKPT) 31 = false → bitOf (s.rg LE_TRACE) 31 = false →
    let e := i0.e.val
    let x := s.eng e
    let f := flagsOf x.sw
    let runs (c : Instr) (P : Engine → Engine → Prop) : Prop :=
      Runs c s (fun s1 => Runs (.leNop i1 a) s1 (fun s2 => Runs (.leNop i2 b) s2 (fun s3 =>
        (s1.eng e).pc = x.pc + 1 ∧ (s2.eng e).pc = x.pc + 2 ∧ (s3.eng e).tr = none ∧
        P (s2.eng e) (s3.eng e))))
    let fall := x.pc + 3
    (∀ t, runs (.br i0 t) (fun _ z => z.pc = t)) ∧
    (∀ q, runs (.jr i0 q) (fun _ z => z.pc = (x.dreg q.toNat).setWidth 13)) ∧
    (∀ t, runs (.bcc i0 0 t) (fun _ z => z.pc = if f.z then t else fall) ∧
      runs (.bcc i0 1 t) (fun _ z => z.pc = if f.z then fall else t) ∧
      runs (.bcc i0 2 t) (fun _ z => z.pc = if f.n = f.v then fall else t) ∧
      runs (.bcc i0 3 t) (fun _ z => z.pc = if f.n = f.v then t else fall) ∧
      runs (.bcc i0 4 t) (fun _ z => z.pc = if f.z = true ∨ f.n ≠ f.v then t else fall) ∧
      runs (.bcc i0 5 t) (fun _ z => z.pc = if f.z = false ∧ f.n = f.v then t else fall) ∧
      runs (.bcc i0 6 t) (fun _ z => z.pc = if f.c then t else fall) ∧
      runs (.bcc i0 7 t) (fun _ z => z.pc = if f.c then fall else t)) ∧
    (∀ t, runs (.dbnz i0 t) (fun _ z => z.lc = x.lc - 1 ∧ z.pc = if x.lc = 1 then fall else t)) ∧
    (x.lands = [] → ∀ t, runs (.brr i0 t) (fun y z => z.lc = x.lc - 1 ∧ y.rotb = x.rotb ∧
      z.wordDone.rotb = x.rotb - 1 ∧ z.pc = if x.lc = 1 then fall else t)) ∧
    (∀ m, runs (.tend i0 m) (fun y z => y.fin = none ∧ z.fin = some ⟨m &&& r.succ, false⟩ ∧ z.lands = [])) ∧
    (x.exh = true → x.resumable = true → runs (.rete i0) (fun y z => y.exh = true ∧ z.fin = none ∧
      z.pc = x.epc ∧ z.pass = true ∧ z.exhEnd = true ∧ z.clearExh.exh = false)) ∧
    (x.exh = true → x.resumable = false → runs (.rete i0) (fun y z => y.fin = none ∧
      z.fin = some ⟨r.succ, true⟩)) ∧
    (∀ u, x.exh = true → exec (.brk i0 u) s = .next (s.setEng e x.wordDone)) ∧
    ∀ u, x.exh = false → Runs (.brk i0 u) s (fun t => ∃ z, t = s.setEng e z ∧ z.epc = x.pc + 1 ∧
      z.ecause = 1 ∧ z.exh = true ∧ z.pc = s.excBase ∧ z.lands = [] ∧ z.acc = x.acc ∧ z.tr = none ∧
      z.resumable = true ∧ z.n = x.n + 4)

/-- R118, R121, R122, R164, R166, R167. -/
def Obligations.CmacRowsAccumulate : Prop :=
  ∀ (s : State) (io : Issue) (r : EngRun) (i neg : Bool) (k j : BitVec 2) (x y sh : BitVec 5),
    Steady s io.e r → Alone io →
    let g := s.eng io.e
    let D (n : Nat) : Int := (g.dreg n).toInt
    let sg : Int := if neg then -1 else 1
    let X := x.toNat
    let Y := y.toNat
    let o (n : Nat) : AccV := g.acc.get n
    let keeps (z : Accs) (l : List Nat) : Prop := ∀ n, n < 4 → n ∉ l → z.get n = g.acc.get n
    let leaves (c : Instr) (P : Accs → Prop) : Prop :=
      Runs c s (fun t => ∃ z : Accs, t = s.setEng io.e { g.wordDone with acc := z } ∧ P z)
    let fresh (v : Int) : AccV := ⟨BitVec.ofInt 56 v, 0, false⟩
    let K := k.toNat
    let one (v : Int) (z : Accs) : Prop := z.get K = fresh v ∧ keeps z [K]
    let two (v w : Int) (z : Accs) : Prop :=
      z.get K = fresh v ∧ z.get (K + 1) = fresh w ∧ keeps z [K, K + 1]
    let add1 (v : Int) (z : Accs) : Prop := (o K).adds v (z.get K) ∧ keeps z [K]
    let add2 (v w : Int) (z : Accs) : Prop :=
      (o K).adds v (z.get K) ∧ (o (K + 1)).adds w (z.get (K + 1)) ∧ keeps z [K, K + 1]
    let p := sg * (D X * D Y)
    let p' := sg * (D (X + 1) * D (Y + 1))
    let re := sg * (D X * D Y - D (X + 1) * D (Y + 1))
    let im := sg * (D X * D (Y + 1) + D (X + 1) * D Y)
    let reC := sg * (D X * D Y + D (X + 1) * D (Y + 1))
    let imC := sg * (D (X + 1) * D Y - D X * D (Y + 1))
    let shifted (w : Int) (z : Accs) : Prop := keeps z [K] ∧
      ∃ q : Int, (z.get K).v.toInt + q * 2 ^ 56 = w ∧ (z.get K).holds q
    let pinned (w : Int) (z : Accs) : Prop := keeps z [K] ∧ z.get K = ⟨BitVec.ofInt 56 w, (o K).ex, true⟩
    let exact := (o K).v.toInt + (o K).ex * 2 ^ 56
    leaves (.clra io k) (one 0) ∧
    leaves (.mpy io i neg k x y) (one p) ∧ leaves (.mac io i neg k x y) (add1 p) ∧
    (∀ l : Bool, leaves (.lda io l neg k x) (one (sg * (D X * if l then 1 else 2 ^ 23)))) ∧
    (K % 2 = 0 → X % 2 = 0 → Y % 2 = 0 →
      leaves (.mpy2 io i neg k x y) (two p p') ∧ leaves (.mac2 io i neg k x y) (add2 p p') ∧
      leaves (.cmpy io i neg k x y) (two re im) ∧ leaves (.cmac io i neg k x y) (add2 re im) ∧
      leaves (.cmpyC io i neg k x y) (two reC imC) ∧ leaves (.cmacC io i neg k x y) (add2 reC imC)) ∧
    leaves (.adda io neg k j) (fun z => keeps z [K] ∧
      let a := g.acc2.get j.toNat
      ∃ m : AccV, (o K).adds (sg * a.v.toInt) m ∧ (z.get K).v = m.v ∧
        if a.pin then (z.get K).ex = min 3 (sg * a.ex) ∧ (z.get K).pin = true
        else if m.pin then z.get K = m else (z.get K).holds (m.ex + sg * a.ex)) ∧
    (1 ≤ sh.toNat → sh.toNat ≤ 24 → leaves (.asra io k sh) (fun z =>
      if (o K).pin then pinned ((o K).v.toInt / 2 ^ sh.toNat) z else shifted (exact / 2 ^ sh.toNat) z)) ∧
    (1 ≤ sh.toNat → sh.toNat ≤ 8 → leaves (.asla io k sh) (fun z =>
      if (o K).pin then pinned ((o K).v.toInt * 2 ^ sh.toNat) z else shifted (exact * 2 ^ sh.toNat) z))

/-- R130, R131, R133. -/
def Obligations.AddressesFollowTheirModes : Prop :=
  ∀ (x : Engine) (ofs : Table (BitVec 14)) (p d : Nat) (inc : Bool),
    let b := (tget 0 x.base p).toNat
    let l := (tget 0 x.len p).toNat
    let o := (tget 0 ofs p).toNat
    let z := x.viaPtr ofs p d inc
    (l = 0 → z.a = (b + o + d) % 16384 ∧ z.modv = false) ∧
    (0 < l → o < l → z.a = (b + (o + d) % l) % 16384 ∧ z.modv = false) ∧
    (0 < l → l ≤ o → z.a = (b + o + d) % 16384 ∧ z.modv = true) ∧
    ((tget 0 z.ofs p).toNat : Int) = (if inc then
      ((o : Int) + (tget 0 x.str p).toInt) % (if l = 0 then 16384 else (l : Int)) else (o : Int)) ∧
    ∀ q, q ≠ p → tget 0 z.ofs q = tget 0 ofs q

/-- R106 to R111, R129, R134, R171 to R176. -/
def Obligations.MemoryRowsLoadAndStore : Prop :=
  ∀ (s : State) (io : Issue) (r : EngRun) (d q : BitVec 5) (k : BitVec 2) (am : AddrMode),
    Steady s io.e r → Alone io → io.rdA = .ok → io.rdB = .ok →
    let e := io.e.val
    let x := s.eng e
    let sl := r.slot
    let done (z : Engine) (w : Nat) : Host.Outcome State Fault Refusal :=
      .next (s.setEng e (z.wordDone w))
    let ac := x.viaMode am
    let one := { x with ofs := ac.ofs }
    (ac.a ∉ x.bad → exec (.ld io d am) s = done (x.loads one sl d.toNat ac) 1) ∧
    exec (.st io q am) s = done (one.stores sl ac (x.dreg q.toNat) false) 0 ∧
    (∀ m : BitVec 2, let c := conv m (x.acc2.get k.toNat)
      exec (.stAcc io m k am) s = done (one.stores sl ac c.1 c.2) 0) ∧
    (∀ (p : BitVec 3) (n : BitVec 10), d ≠ 31 →
      let a := x.viaPtr x.ofs p.toNat n.toNat false
      let b := x.viaPtr x.ofs p.toNat (n.toNat + 1) false
      a.a ∉ x.bad → b.a ∉ x.bad →
      exec (.ldPair io d p n) s = done (x.loads (x.loads x sl d.toNat a) sl (d.toNat + 1) b) 0) ∧
    (∀ (p p' : BitVec 3) (i i' : Bool), let a := x.viaPtr x.ofs p.toNat 0 i
      let b := x.viaPtr a.ofs p'.toNat 0 i'
      let y := { x.loads x sl d.toNat a with ofs := a.ofs }
      let z := { y with ofs := b.ofs }
      a.a ∉ x.bad →
      exec (.dualAccess io d p i .none p' i') s = done y 1 ∧
      (q ≠ d → b.a ∉ x.bad →
        exec (.dualAccess io d p i (.ld q) p' i') s = done (x.loads z sl q.toNat b) 0) ∧
      exec (.dualAccess io d p i (.st q) p' i') s = done (z.stores sl b (x.dreg q.toNat) false) 0 ∧
      ∀ m : BitVec 2, let c := conv m (x.acc2.get k.toNat)
        exec (.dualAccess io d p i (.acc m k) p' i') s = done (z.stores sl b c.1 c.2) 0) ∧
    (∀ n : BitVec 4, exec (.mvo io n q) s =
      done { x with ob := tset 0 x.ob n.toNat (x.dreg q.toNat) } 1) ∧
    (ac.a ∉ x.bad → Runs (.ld io d am) s (fun t =>
      (∀ z ∈ (t.eng e).lands, z ∈ x.lands ∨ z.vis = x.n + 2) ∧
      tget 0 (t.eng e).wordDone.d (physD x.rotb d.toNat) =
        if (sl * 1024 ≤ ac.a ∧ ac.a < sl * 1024 + 1024) ∨ 0x3000 ≤ ac.a then x.ldmAt ac.a else 0)) ∧
    (sl < 12 → (x.xfer = none ∨ isScratch ac.a = false) → Runs (.st io q am) s (fun t =>
      (∀ a, a ≠ ac.a → (t.eng e).xfer = x.xfer → (isScratch a = false ∨ x.xfer = none) →
        (t.eng e).ldmAt a = x.ldmAt a) ∧
      ((sl * 1024 ≤ ac.a ∧ ac.a < sl * 1024 + 1023) ∨ isScratch ac.a = true →
        (t.eng e).ldmAt ac.a = x.dreg q.toNat)))

/-- R139, R140, R142, R143, R177, R178. -/
def Obligations.OutboxAndCabinetTransfers : Prop :=
  (∀ (s : State) (io : Issue) (r : EngRun) (q : BitVec 5) (p : BitVec 3) (k : BitVec 4)
      (len : BitVec 6), Steady s io.e r → Alone io →
    let e := io.e.val
    let x := s.eng e
    let ws := (List.range (k.toNat + 1)).map (fun i => tget 0 x.ob i)
    let c := (x.dreg q.toNat).toNat % 0x200000
    let a := x.viaPtr x.ofs p.toNat 0 false
    let l := len.toNat + 1
    let fits := 0x3000 ≤ a.a ∧ a.a + l ≤ 0x3800 ∧ c + l ≤ 0x200000
    let base := s.rf LE_XWIN_BASE 0 20 0
    let inWin := base ≤ c ∧ c + l ≤ base + s.rf LE_XWIN_LEN 0 21 0
    let flag (b : Bool) (f : W24) : W24 := if b then f else 0
    let started (w : Bool) : Host.Outcome State Fault Refusal := .next (s.setEng e
      { x.wordDone with xfer := some ⟨w, c, a.a, l, []⟩, sw := x.wordDone.sw ||| flag a.modv swModv })
    let refused : Host.Outcome State Fault Refusal := .next (s.setEng e
      { x.wordDone with sw := x.wordDone.sw ||| flag a.modv swModv ||| swAccv })
    (r.flowEn = true → exec (.put io k) s = .next ((s.setEng e x.wordDone).putItem r.ctx r.stage
      (ws.flatMap (fun v => [v.extractLsb' 16 8, v.extractLsb' 8 8, v.extractLsb' 0 8])))) ∧
    (∀ st, r.near = true → s.stage? r.ctx r.stage = some st → exec (.putd io k) s =
      .next ((s.setEng e x.wordDone).setStage r.ctx r.stage { st with duty := some ws })) ∧
    (x.xfer = none → exec (.xferR io q p len) s = (if fits then started false else refused) ∧
      exec (.xferW io q p len) s = if fits ∧ inWin then started true else refused)) ∧
  ∀ (s : State) (e : Fin 24),
    ((s.eng e).xfer = none → exec (.xferComplete e) s = .next s) ∧
    ∀ t : Xfer, (s.eng e).xfer = some t → 0 < t.len → (∀ i, i < t.len → s.isOn (bankDom (4 * (t.cab + i))) = true) →
      s.isOn (bankDom (4 * (t.cab + t.len - 1))) = true →
      Runs (.xferComplete e) s (fun u => (u.eng e).xfer = none ∧
        (t.write = true → (u.eng e).scr = (s.eng e).scr ∧
          (∀ i, i < t.len → u.cabWord (4 * (t.cab + i)) = (xferWord (s.eng e) t (t.scr + i)).setWidth 32) ∧
          ∀ b, (b < 4 * t.cab ∨ 4 * (t.cab + t.len) ≤ b) → u.cabByte b = s.cabByte b) ∧
        (t.write = false → SameCab s u ∧
          (∀ i, i < t.len → t.scr + i ∉ t.touched → tget none (u.eng e).scr (t.scr + i) =
            some ((s.cabWord (4 * (t.cab + i))).setWidth 24)) ∧
          ∀ a, (a < t.scr ∨ t.scr + t.len ≤ a) → tget none (u.eng e).scr a = tget none (s.eng e).scr a) ∧
        (∀ e', e' ≠ e.val → u.eng e' = s.eng e') ∧ u.regs = s.regs)

/-- R144, R145, R150, R156, R161, R162, R192. -/
def Obligations.IllegalWordsPerformNothing : Prop :=
  ∀ (s : State) (io : Issue) (r : EngRun) (sl : Slot), Steady s io.e r →
    let e := io.e.val
    let x := s.eng e
    let y := x.landAll
    let taken (y : Engine) (cause : BitVec 6) (v : BitVec 13) : Engine := { y with
      epc := x.pc, ecause := cause, sw := x.sw ||| 0x800, pc := s.excBase + v, n := x.n + 3, tr := none,
      late := none, resumable := false }
    let ends (cause : BitVec 6) : Engine := { y with
      epc := x.pc, ecause := cause, fin := some ⟨r.succ, true⟩, tr := none, late := none }
    let fault (s : State) (cause : BitVec 6) : Host.Outcome State Fault Refusal :=
      .next (s.setEng e (if x.exh then ends cause else taken y cause 0x10))
    (io.im = .ok → ∀ w : W64, decCmac (slotCmac w) = none ∨ decMem (slotMem w) = none ∨
        decAlu (slotAlu w) = none → .next (issueWord io w s) = fault s 0x02) ∧
    (io.im = .ok → ∀ (w : W64) (c : CmacOp) (m : MemOp) (a : AluOp), decCmac (slotCmac w) = some c →
      decMem (slotMem w) = some m → decAlu (slotAlu w) = some a →
      ((∃ k p q, c.pair? = some (k, p, q) ∧ (k.toNat % 2 = 1 ∨ p.toNat % 2 = 1 ∨ q.toNat % 2 = 1)) ∨
       (∃ d ap ai bp bi, m = .dual d ap ai (.ld d) bp bi) ∨
       (∃ k, m = .put k ∧ r.flowEn = false) ∨ (∃ k, m = .putd k ∧ r.near = false) ∨
       (∃ v q p l, m = .xfer v q p l ∧ x.xfer.isSome = true) ∨ (a = .rete ∧ x.exh = false) ∨
       (∃ k part q, a = .mvxTo k part q ∧ k.toNat ∈ c.writes)) →
      .next (issueWord io w s) = fault s 0x02) ∧
    (io.im = .ok → ∀ (z : Transfer) (w : W64) (a : AluOp), decAlu (slotAlu w) = some a →
      a.transfer = true → .next (issueWord io w (s.setEng e { x with tr := some z })) = fault s 0x02) ∧
    (exec (.leNop io .cmac) s = .next (issueWord io (leWord 0 (slotMem io.other) (slotAlu io.other)) s) ∧
      exec (.leNop io .mem) s = .next (issueWord io (leWord (slotCmac io.other) 0 (slotAlu io.other)) s) ∧
      exec (.leNop io .alu) s = .next (issueWord io (leWord (slotCmac io.other) (slotMem io.other) 0) s)) ∧
    (io.im = .uncorrectable → exec (.leNop io sl) s = fault (s.bump LE_ECC_UE e) 0x22) ∧
    (Alone io → exec (.leNop io sl) s = .next (s.setEng e x.wordDone)) ∧
    ∀ d am, let ac := x.viaMode am
      Alone io → x.exh = false → io.rdA = .uncorrectable → x.lands = [] →
      (r.slot * 1024 ≤ ac.a ∧ ac.a < r.slot * 1024 + 1024) ∨ 0x3000 ≤ ac.a →
      Runs (.ld io d am) s (fun t => ∃ z, t = (s.setEng e z).bump LE_ECC_UE e ∧ z.d = x.d ∧ z.acc = x.acc ∧
        z.exa = BitVec.ofNat 14 ac.a ∧ z.ecause = 0x03 ∧ z.epc = x.pc + 1 ∧ z.exh = true ∧
        z.pc = s.excBase + 0x20 ∧ z.lands = [] ∧ z.resumable = false)

/-- R154, R155, R156, R159. -/
def Obligations.LoopEngineUpkeep : Prop :=
  ∀ (s : State) (e : Fin 24) (a : BitVec 14) (w : BitVec 13),
    let x := s.eng e
    (∀ ecc, s.isOn (engDom e) = false → exec (.ldmScrub e a ecc) s = .next s) ∧
    (s.isOn (engDom e) = true → exec (.ldmScrub e a .ok) s = .next s ∧
      exec (.ldmScrub e a .corrected) s = .next (s.bump LE_ECC_CORR e) ∧
      Runs (.ldmScrub e a .uncorrectable) s (fun t => ∃ z, t = (s.bump LE_ECC_UE e).setEng e { x with bad := z } ∧
        a.toNat ∈ z ∧ ∀ b, b ∈ z ↔ b = a.toNat ∨ b ∈ x.bad)) ∧
    (s.cyc.phase = .sill → w.toNat ∈ x.imFix → Runs (.imRewrite e w) s (fun t =>
      let user := 0x1000 ≤ w.toNat ∧ w.toNat ≤ 0x1FBF
      let at_ := e.val * 4096 + (w.toNat - 0x1000)
      (∃ z, t = { s.setEng e { x with imFix := z } with fw := { s.fw with im := t.fw.im } } ∧
        ∀ b, b ∈ z ↔ b ∈ x.imFix ∧ b ≠ w.toNat) ∧
      (user → tget 0 t.fw.im at_ = tget 0 s.fw.lpMram (w.toNat - 0x1000)) ∧
      (∀ j, j ≠ at_ → tget 0 t.fw.im j = tget 0 s.fw.im j) ∧ (¬user → t.fw = s.fw))) ∧
    (s.cyc.phase = .sill → w.toNat ∉ x.imFix → exec (.imRewrite e w) s = .next s) ∧
    (s.isOn 1 = true → Runs .leExcLogRead s (fun t =>
      t.outputs = s.outputs ++ [.bar0 (s.rg LE_EXC_LOG_HI)] ∧ bitOf (t.rg LE_EXC_LOG_HI) 31 = false ∧
      t.rf LE_EXC_LOG_HI 0 30 0 = s.rf LE_EXC_LOG_HI 0 30 0 ∧
      SameRegsBut s t [regKey LE_EXC_LOG_HI 0] ∧ t = { s with outputs := t.outputs, regs := t.regs }))

/-- R252 and R255 as invariants of every step. -/
def Obligations.EdgeLedgersBalance : Prop :=
  ∀ s t : State, EdgeLedgers s → step s = .next t → EdgeLedgers t

/-- R304 and R305 as invariants of every step. -/
def Obligations.VoltSecondLedgersBalance : Prop :=
  ∀ s t : State, VoltLedgers s → step s = .next t → VoltLedgers t

/-- R248 to R253, R258, R260. -/
def Obligations.QuadratureEdgesCountOrWait : Prop :=
  ∀ (s : State) (n : Fin 8) (a b : Bool), s.isOn 21 = true → s.isOn 22 = true →
    let x := s.fb n
    let up := s.edgeUp n (b != x.b) a b
    let others (t : State) : Prop := ∀ m, m ≠ n.val → t.fb m = s.fb m
    let near (t : W64) : Prop := (s.bt - t).toNat < 10 * s.rf FB_EDGE n 9 0
    let counted (y : Fb) : Prop := y.cnt = (if up then x.cnt + 1 else x.cnt - 1) ∧
      y.up = (if up then x.up + 1 else x.up) ∧ y.dn = (if up then x.dn else x.dn + 1) ∧
      y.obs = x.obs + 1 ∧ y.acc = x.acc + 1 ∧ y.disc = x.disc ∧ y.adj = x.adj ∧ y.quar = none ∧
      y.wrapUp = (x.wrapUp || (up && x.cnt == 0xFFFFFFFF)) ∧
      y.wrapDn = (x.wrapDn || (!up && x.cnt == 0))
    ((a != x.a) = !(b != x.b) → x.quar = none → (∀ t, x.lastEdge = some t → ¬ near t) →
      Runs (.quadEdge n a b false) s (fun t => counted (t.fb n) ∧ (t.fb n).a = a ∧ (t.fb n).b = b ∧
        (t.fb n).lastEdge = some s.bt ∧ others t)) ∧
    ((a != x.a) = !(b != x.b) → x.quar = none → ∀ e z, x.lastEdge = some e → near e →
      Runs (.quadEdge n a b z) s (fun t => t = { s with fbs := t.fbs } ∧ others t ∧ t.fb n =
        { x with a := a, b := b, lastEdge := some s.bt, quar := some ⟨b != x.b, s.bt, up, a, b⟩ })) ∧
    ((a != x.a) = !(b != x.b) → ∀ q z, x.quar = some q → q.lineB = (b != x.b) → near q.at_ →
      Runs (.quadEdge n a b z) s (fun t => t = { s with fbs := t.fbs, regs := t.regs } ∧ others t ∧
        t.fb n = { x with
          a := a, b := b, quar := none, lastEdge := some s.bt, obs := x.obs + 2, disc := x.disc + 2 } ∧
        t.rg FB_GLITCH n = satAdd (s.rg FB_GLITCH n) 2 ∧ SameRegsBut s t [regKey FB_GLITCH n])) ∧
    ((a != x.a) = true → (b != x.b) = true → x.quar = none → ∀ z,
      Runs (.quadEdge n a b z) s (fun t => ∃ u : State,
        t = u.fbFault 0x0402 n (s.posSrc n == 1) 0 ∧ u = { s with fbs := u.fbs, regs := u.regs } ∧ others u ∧
        u.fb n = { x with
          a := a, b := b, lastEdge := some s.bt, obs := x.obs + 2, disc := x.disc + 2 } ∧
        u.rg FB_QUAD_ERR n = satAdd (s.rg FB_QUAD_ERR n) 1 ∧
        u.rg FB_STATUS n = s.rg FB_STATUS n ||| 8 ∧
        SameRegsBut s u [regKey FB_QUAD_ERR n, regKey FB_STATUS n])) ∧
    ((∀ z, exec (.quadEdge n x.a x.b z) s = .next s) ∧
     (x.quar = none → ∀ z, exec (.edgeQuarantineExpire n z) s = .next s)) ∧
    (∀ q, x.quar = some q → Runs (.edgeQuarantineExpire n false) s (fun t => ∃ u : State,
      t = u.post 0x0401 .warn (u.ctxOfNear n) ∧ (u.fb n).quar = none ∧ (u.fb n).obs = x.obs + 1 ∧
      (u.fb n).acc = x.acc + 1 ∧ (u.fb n).cnt = (if q.up then x.cnt + 1 else x.cnt - 1) ∧
      u.rg FB_EDGE_FAULT n = satAdd (s.rg FB_EDGE_FAULT n) 1 ∧ bitOf (u.rg FB_STATUS n) 3 = true ∧
      others u)) ∧
    ((a != x.a) = !(b != x.b) → x.quar = none → (∀ t, x.lastEdge = some t → ¬ near t) →
      a = bitOf (s.rg FB_CFG n) 4 → b = bitOf (s.rg FB_CFG n) 5 →
      (s.rf FB_CFG n 3 2 = 0 ∨ s.rf FB_CFG n 3 2 = 2) → Runs (.quadEdge n a b true) s (fun t =>
        let c := if up then x.cnt + 1 else x.cnt - 1
        let y := t.fb n
        y.idxLatch = c ∧ y.idx = true ∧
        if s.rf FB_CFG n 3 2 = 2 ∧ x.armed = true then
          y.cnt = s.rg FB_IDX_VAL n ∧ y.armed = false ∧ y.adj = x.adj + (c - s.rg FB_IDX_VAL n)
        else y.cnt = c ∧ y.armed = x.armed ∧ y.adj = x.adj))

/-- R256, R257, R260, R263. -/
def Obligations.FeedbackRegistersTakeTheirWrites : Prop :=
  ∀ (s : State) (v : W32), s.isOn 1 = true →
    let n := s.rf FB_AXIS_SEL 0 2 0
    let x := s.fb n
    let c := s.ctxOfNear n
    let others (t : State) : Prop := ∀ m, m ≠ n → t.fb m = s.fb m
    Runs (.fbIdxArm v) s (fun t => t.fb n = { x with armed := x.armed || bitOf v 0 } ∧ others t ∧
      t = { s with fbs := t.fbs }) ∧
    (s.ctxEn c = true → Runs (.fbCntSet v) s (fun t => t.rg FB_STATUS n = s.rg FB_STATUS n ||| 0x4000 ∧
      SameRegsBut s t [regKey FB_STATUS n] ∧ t = { s with regs := t.regs })) ∧
    (s.ctxEn c = false → Runs (.fbCntSet v) s (fun t => t.fb n = { x with cntSet := some v } ∧ others t ∧
      (c ≠ 0 → t.ax c = { s.ax c with homed := false }) ∧ (∀ d, d ≠ c → t.ax d = s.ax d) ∧
      ∃ u : State, u = { s with fbs := t.fbs } ∧ t = if c = 0 then u else u.setHomed c false)) ∧
    (bitOf v 0 = true → Runs (.fbLatch v) s (fun t =>
      t.rg FB_CNT_L n = x.cnt ∧ t.rg FB_UP_ACC n = x.up ∧ t.rg FB_DN_ACC n = x.dn ∧
      t.rg FB_CNT_ADJ n = x.adj ∧ t.rg FB_OBS n = x.obs ∧ t.rg FB_ACC n = x.acc ∧
      t.rg FB_DISC n = x.disc ∧ SameRegsBut s t [regKey FB_CNT_L n, regKey FB_UP_ACC n,
        regKey FB_DN_ACC n, regKey FB_CNT_ADJ n, regKey FB_OBS n, regKey FB_ACC n, regKey FB_DISC n] ∧
      t = { s with regs := t.regs })) ∧
    (bitOf v 0 = false → exec (.fbLatch v) s = .next s) ∧
    Runs (.fbStatusClear v) s (fun t => t.rg FB_STATUS n = s.rg FB_STATUS n &&& ~~~v ∧
      SameRegsBut s t [regKey FB_STATUS n] ∧ t = { s with regs := t.regs })

/-- R265 to R284. -/
def Obligations.FeedbackReceiversReport : Prop :=
  ∀ (s : State) (n : Fin 8), s.isOn 21 = true → s.isOn 22 = true →
    let x := s.fb n
    let cfg := s.rg FB_CFG n
    let c := s.ctxOfNear n
    let only (t : State) : Prop := ∀ m, m ≠ n.val → t.fb m = s.fb m
    let keeps (u : State) (l : List Nat) : Prop :=
      u = { s with fbs := u.fbs, regs := u.regs } ∧ only u ∧ SameRegsBut s u l
    (∀ code : BitVec 3, bitOf cfg 6 = true → code ≠ x.hall →
      let old := hallSector x.hall
      let new := hallSector code
      Runs (.hallAccept n code) s (fun t => ∃ u : State,
        u.fb n = { x with
          hall := code, hallAt := some (BitVec.ofNat 64 (s.bt.toNat - 10 * s.rf FB_HALL n 9 0)), hallBad := new == 0, hallSkip := (u.fb n).hallSkip } ∧
        if new = 0 then t = u.fbFault 0x0405 n true 0 ∧
          u.rg FB_HALL_INV n = satAdd (s.rg FB_HALL_INV n) 1 ∧ u.rg FB_STATUS n = s.rg FB_STATUS n ||| 0x20 ∧
          keeps u [regKey FB_HALL_INV n, regKey FB_STATUS n]
        else if old ≠ 0 ∧ old ≠ new ∧ old % 6 + 1 ≠ new ∧ new % 6 + 1 ≠ old then
          t = u.post 0x0406 .warn c ∧ (u.fb n).hallSkip = true ∧
          u.rg FB_STATUS n = s.rg FB_STATUS n ||| 0x40 ∧ keeps u [regKey FB_STATUS n]
        else t = u ∧ keeps u [])) ∧
    ((hallSector 1, hallSector 3, hallSector 2, hallSector 6, hallSector 4, hallSector 5, hallSector 0,
      hallSector 7) = (1, 2, 3, 4, 5, 6, 0, 0)) ∧
    (∀ low, s.rf FB_CFG n 1 0 = 2 → s.cyc.running = true →
      let first (t0 : W64) : W64 :=
        BitVec.ofNat 64 (t0.toNat + s.rf DISP_CYC_SAMPLE 0 19 0 - s.rf FB_SSI_LEAD n 19 0)
      Runs (.ssiFrameStart n low) s (fun t =>
        (t.fb n).ssiRun = some (t.bt, low) ∧ only t ∧ t.outputs = s.outputs ++ [.ball (.ssiClk n) .low] ∧
        (s.cyc.phase ≠ .idle → s.bt ≤ first s.cyc.t0 → t.bt = first s.cyc.t0) ∧
        (s.cyc.phase = .idle ∨ first s.cyc.t0 < s.bt → s.bt ≤ first s.cyc.nextT0 →
          t.bt = first s.cyc.nextT0))) ∧
    (∀ (w : BitVec 40) (stop : Bool) (t0 : W64) (low : Bool), x.ssiRun = some (t0, low) →
      let nb := s.rf FB_SSI_CFG n 5 0
      let bad : Bool := low || (bitOf cfg 14 && stop)
      Runs (.ssiFrameEnd n w stop) s (fun t => ∃ u : State, only u ∧ (u.fb n).ssiRun = none ∧
        u.outputs = s.outputs ++ (List.replicate nb [Output.ball (.ssiClk n) .high, .ball (.ssiClk n) .low]).flatten ++
          [.ball (.ssiClk n) .high] ∧
        (u.fb n).ssiBad = bad ∧ if bad then (u.fb n).ssi = x.ssi ∧
          u.rg FB_SSI_ERR n = satAdd (s.rg FB_SSI_ERR n) 1 ∧
          t = u.fbFault 0x0407 n (s.rf FB_CFG n 1 0 == 2) 0
        else t = u ∧ (u.fb n).ssi = (if bitOf cfg 15 then grayToBin 6 (w &&& BitVec.ofNat 40 (2 ^ nb - 1))
          else w &&& BitVec.ofNat 40 (2 ^ nb - 1)))) ∧
    (∀ k : Fin 3, bitOf cfg (7 + k) = true →
      (∀ y : Int,
        let out := ((s.rg (FB_SD_CMPH k) n).setWidth 24).toInt < y * 2 ^ 15 ∨
          y * 2 ^ 15 < ((s.rg (FB_SD_CMPL k) n).setWidth 24).toInt
        (out → Runs (.sdCompTrip n ⟨k, y⟩) s (fun t => ∃ u : State,
          t = (u.post 0x040C .warn c (payOf [k])).tripAll ∧ u.fb n = { x with sdcUntil := s.bt + 1000 } ∧
          u.rg FB_STATUS n = s.rg FB_STATUS n ||| BitVec.ofNat 32 (2 ^ (11 + k.val)) ∧
          keeps u [regKey FB_STATUS n])) ∧
        (¬out → exec (.sdCompTrip n ⟨k, y⟩) s = .next s)) ∧
      Runs (.modStuck n k false) s (fun t => (t.fb n).stuck.getLsbD k = false ∧ keeps t []) ∧
      (x.stuck.getLsbD k = true → exec (.modStuck n k true) s = .next s) ∧
      (x.stuck.getLsbD k = false → Runs (.modStuck n k true) s (fun t => ∃ u : State,
        t = u.fbFault 0x040B n true (payOf [k]) ∧ (u.fb n).stuck.getLsbD k = true ∧
        (∀ raw, u.sdResult n k raw = 0) ∧ keeps u [regKey FB_STATUS n]))) ∧
    (∀ (l : Fin 4) (short : Bool), let bits (y : Fb) := if short then y.lineShort else y.lineOpen
      Runs (.lineFault n l short false) s (fun t => (bits (t.fb n)).getLsbD l = false ∧ keeps t []) ∧
      Runs (.lineFault n l short true) s (fun t => ∃ u : State, keeps u [] ∧
        (bits (u.fb n)).getLsbD l = true ∧ t = if (bits x).getLsbD l then u
          else u.fbFault (if short then 0x0409 else 0x0408) n
            (if l.val = 3 then s.rf FB_CFG n 1 0 == 2 else s.rf FB_CFG n 1 0 == 1) (payOf [l]))) ∧
    (∀ ssd : Bool, (ssd = true ∨ s.rf FB_CFG n 18 17 ≠ 0) → let l := if ssd then 3 else 2
      Runs (.diffPolarity n ssd false) s (fun t => (t.fb n).linePol.getLsbD l = false ∧ keeps t []) ∧
      Runs (.diffPolarity n ssd true) s (fun t => ∃ u : State, keeps u [] ∧
        (u.fb n).linePol.getLsbD l = true ∧
        t = if x.linePol.getLsbD l then u else u.post 0x040A .warn c)) ∧
    (∀ dir, Runs (.stepEdge n dir) s (fun t => keeps t [] ∧ t.fb n =
      let up : Bool := (dir == Config.stepUpLevel) != bitOf cfg 13
      { x with stepCnt := if up then x.stepCnt + 1 else x.stepCnt - 1 })) ∧
    (∀ r0 r1 r2 edge : Int, s.sdAny n = true → s.cyc.running = true → s.isOn 7 = true → c ≠ 0 →
      let w := s.sdWindow n edge
      let end_ : Int := max ((w.1 + w.2).ceil + 60) (s.sampleInstant.toNat + 40)
      Runs (.sdFrameReady n r0 r1 r2 edge) s (fun t => ∃ u : State,
        t = (if hdrRuns (u.hdr c) u.cyc.count.toNat then u.extArrive c 2 else u) ∧
        u.drawer c 0x3EA = s.sdResult n 0 r0 ∧ u.drawer c 0x3EB = s.sdResult n 1 r1 ∧
        u.drawer c 0x3EC = (if bitOf cfg 10 ∧ bitOf cfg 9 = false then
          sdDerive (s.sdResult n 0 r0) (s.sdResult n 1 r1) else s.sdResult n 2 r2) ∧
        u.drawer c 0x3EE =
          BitVec.ofInt 24 (w.1 + w.2 / 2 - (s.sampleInstant.toNat : Rat)).floor ∧
        (u.fb n).sdRestart = none ∧ (end_ < 2 ^ 64 → end_ ≤ u.bt.toNat))) ∧
    ∀ (u : State) (code : BitVec 16) (used : Bool) (pay : Payload),
      let k := u.ctxOfNear n
      u.fbFault code n used pay = if used = true ∧ (u.ax k).enabled = true then
        let v := u.post code .severe k pay
        let w := if (v.ax k).mode = .homing then v.homingEnd k 6 else v
        (w.setHomed k false).torqueOff k
      else u.post code .warn k pay

/-- R296, R300, R302, R303, R306, R308. -/
def Obligations.PwmModulesDecideAtZeroAndCentre : Prop :=
  ∀ (s : State) (m : Fin 8), s.isOn 21 = true →
    let x := s.pwm m
    let per := 8 * s.rf PWM_PER m 19 0
    let minp := 8 * s.rf PWM_MINP m 11 0
    let minH := 8 * s.rf PWM_DT m 11 0 + minp
    let minL := 8 * s.rf PWM_DT m 27 16 + minp
    let lim : Nat := max 64 (per / 2500)
    let d := max (-(lim : Int)) (min (lim : Int) x.rem)
    let others (t : State) : Prop := ∀ k, k ≠ m.val → t.pwm k = s.pwm k
    let bound (v : Int) : Int := max (-((2 * minp : Nat) : Int)) (min ((2 * minp : Nat) : Int) v)
    let req (k : Nat) : Nat := if x.landed then (x.phase k).shadow else (x.phase k).req
    Runs (.pwmZero m) s (fun t => others t ∧ (t.pwm m).zero = s.pwmInstant m ((x.len : Int) + d).toNat ∧
      (t.pwm m).rem = x.rem - d ∧ (t.pwm m).len = per ∧ (t.pwm m).st = x.st ∧
      t.rg PWM_SYNC_SLEW m = (if lim < x.rem.natAbs then satAdd (s.rg PWM_SYNC_SLEW m) 1
        else s.rg PWM_SYNC_SLEW m) ∧
      (x.st = .run → ∀ k, k < 3 →
        let p := x.phase k
        let r : Int := req k + p.carry
        let on : Nat := if r < minH then 0 else if (per : Int) - r < minL then per else r.toNat
        let q := (t.pwm m).phase k
        q.req = req k ∧ q.on = on ∧ q.lead = on / 2 ∧ q.carry = bound (r - on) ∧
        q.diff = p.diff + BitVec.ofInt 32 (req k - on) ∧
        q.sat = p.sat + BitVec.ofInt 32 (r - on - bound (r - on)))) ∧
    (x.st = .run → s.rf PWM_CTL m 1 0 = 3 → x.landed = true → x.defer = none →
      Runs (.pwmCentre m) s (fun t => others t ∧ (t.pwm m).landed = false ∧ ∀ k, k < 3 →
        let p := x.phase k
        let q := (t.pwm m).phase k
        q.req = p.shadow ∧ q.lead = p.lead ∧
        if p.on = 0 ∨ p.on = per then q.on = p.on ∧ q.carry = p.carry ∧ q.diff = p.diff ∧ q.sat = p.sat
        else
          let h : Int := p.shadow - p.shadow / 2
          let trail := max ((minH : Int) - p.lead) (min ((per : Int) - minL - p.lead) h)
          let arg := ((p.rlead : Int) - p.lead) + (h - trail)
          q.on = (p.lead + trail).toNat ∧ q.carry = bound arg ∧
          q.diff = p.diff + BitVec.ofInt 32 (arg - p.carry) ∧
          q.sat = p.sat + BitVec.ofInt 32 (arg - bound arg))) ∧
    ((x.st ≠ .run ∨ s.rf PWM_CTL m 1 0 ≠ 3 ∨ x.landed = false) → Runs (.pwmCentre m) s (fun t =>
      others t ∧ ∀ k, k < 3 → (x.defer = none → (t.pwm m).phase k = x.phase k) ∧
        ((t.pwm m).phase k).on = (x.phase k).on ∧ ((t.pwm m).phase k).carry = (x.phase k).carry)) ∧
    ∀ j : Fin 7, m.val = j.val + 1 → bitOf (s.rg PWM_CTL m) 5 = true → Runs (.pwmSyncIn j) s (fun t =>
      others t ∧ (x.st ≠ .run → (t.pwm m).rem = 0 ∧ (t.pwm m).len = per) ∧
      (x.st = .run → 0 < per → (t.pwm m).zero = x.zero ∧ (t.pwm m).len = x.len ∧
        -(per : Int) < 2 * (t.pwm m).rem ∧ 2 * (t.pwm m).rem ≤ per ∧
        ∀ k, (t.pwm m).phase k = x.phase k))

/-- R305, R311, R313, R317, R318, R319. -/
def Obligations.PwmStateMachine : Prop :=
  ∀ s : State,
    let m := s.rf PWM_MOD_SEL 0 2 0
    let x := s.pwm m
    let clear (s : State) (m : Nat) : Prop := s.mapped m = 0 ∧ s.rg PWM_FLT_LATCH m = 0
    let others (t : State) : Prop := ∀ k, k ≠ m → t.pwm k = s.pwm k
    let lost (p q : PwmPhase) : Prop :=
      q.carry = 0 ∧ q.sat = p.sat + BitVec.ofInt 32 p.carry ∧ q.diff = p.diff
    (s.isOn 1 = true →
      (x.st = .disabled → x.enable = false → clear s m → Runs .pwmEnable s (fun t =>
        t.pwm m = { x with enable := true } ∧ others t ∧ t = { s with pwms := t.pwms })) ∧
      (x.st ≠ .run → x.enable = false → ¬ (x.st = .disabled ∧ clear s m) → Runs .pwmEnable s (fun t =>
        ∃ u p, t = u.post 0x0D06 .warn (s.ctxOfNear m) p ∧ u.pwm m = { x with enable := false } ∧ others u ∧
          u = { s with pwms := u.pwms })) ∧
      (x.st = .run → Runs .pwmDisable s (fun t => (t.pwm m).st = .disabled ∧ (t.pwm m).enable = false ∧
        (∀ k, lost (x.phase k) ((t.pwm m).phase k)) ∧ others t ∧ t = { s with pwms := t.pwms })) ∧
      (x.st ≠ .run → Runs .pwmDisable s (fun t => t.pwm m = { x with enable := false } ∧ others t ∧
        t = { s with pwms := t.pwms })) ∧
      (∀ v : W32, Runs (.pwmFltLatchClear v) s (fun t =>
        let old := s.rg PWM_FLT_LATCH m
        let l := (old &&& ~~~v) ||| (if x.st = .fault then old &&& v &&& BitVec.ofNat 32 (s.mapped m) else 0)
        t.rg PWM_FLT_LATCH m = l ∧ SameRegsBut s t [regKey PWM_FLT_LATCH m] ∧ others t ∧
        t.pwm m = (if x.st = .fault ∧ l = 0 ∧ s.mapped m = 0 then { x with st := .disabled } else x) ∧
        t = { s with pwms := t.pwms, regs := t.regs })) ∧
      (∀ v : W32, bitOf v 0 = true → Runs (.pwmLatch v) s (fun t => t = { s with regs := t.regs } ∧
        ∀ k, k < 3 → t.rg (PWM_DIFF k) m = (x.phase k).diff ∧ t.rg (PWM_SATSUM k) m = (x.phase k).sat ∧
          t.rg (PWM_CARRY_L k) m = (BitVec.ofInt 18 (x.phase k).carry).setWidth 32))) ∧
    (s.isOn 21 = true → ∀ flt, Runs (.pwmFaultTrip flt) s (fun t => t.pwmFlt = flt ∧ ∀ k, k < 8 →
      let a := ({ s with pwmFlt := flt } : State).mapped k
      if (s.pwm k).st = .run ∧ a ≠ 0 then (t.pwm k).st = .fault ∧ (t.pwm k).enable = false ∧
        t.rg PWM_FLT_LATCH k = BitVec.ofNat 32 ((s.rg PWM_FLT_LATCH k).toNat ||| a) ∧
        t.rg PWM_FAULTS k = satAdd (s.rg PWM_FAULTS k) 1 ∧ ∀ j, lost ((s.pwm k).phase j) ((t.pwm k).phase j)
      else t.pwm k = s.pwm k ∧ t.rg PWM_FLT_LATCH k = s.rg PWM_FLT_LATCH k)) ∧
    (∀ k, k < 8 → (s.pwm k).st ≠ .run → (s.pwm k).enable = true → clear s k →
      (s.pwmEnters.pwm k).st = .run ∧ ∀ j, j < 3 →
        ((s.pwmEnters.pwm k).phase j).req = 8 * s.rf PWM_PER k 19 0 / 2 ∧
        ((s.pwmEnters.pwm k).phase j).shadow = 8 * s.rf PWM_PER k 19 0 / 2) ∧
    ∀ k : Fin 8, s.isOn 21 = true → s.cyc.running = false ∨ s.cyc.phase = .sill →
      let y := s.pwm k
      let rest (t : State) : Prop := ∀ j, j ≠ k.val → t.pwm j = s.pwm j
      Runs (.dlCalibration k true) s (fun t => t.pwm k = { y with calNew := some true } ∧ rest t ∧
        t = { s with pwms := t.pwms }) ∧
      Runs (.dlCalibration k false) s (fun t => ∃ u : State, rest u ∧ u = { s with pwms := u.pwms } ∧
        u.pwm k = { y with calOk := false, calNew := none, calFail := true } ∧
        t = if y.calFail then u else u.post 0x0D04 .warn (s.ctxOfNear k))

/-- R622; the gates are those of R552, R599 and R745. -/
def Obligations.DescriptorsAreCheckedThenGated : Prop :=
  ∀ (s : State) (c : Instr) (op : BitVec 8) (d : Desc), c.desc? = some (op, d) →
    let k := some (cmdOf s op d)
    let f := (s.fetchCmd op d).2
    let u := taken s op d
    (s.isOn 1 = false → exec c s = .next s) ∧
    (s.isOn 1 = true → ∀ st, fetchCheck op d = some st → exec c s = .next (f.complete k st)) ∧
    (s.isOn 1 = true → fetchCheck op d = none → ∀ st, u.gate op d = some st →
      exec c s = .next ((if st = 0x0821 then u.bump (if op.toNat / 16 = 8 then GUARD_A_DESC_CRC
        else GUARD_B_DESC_CRC) else u).complete k st)) ∧
    (∃ row, opRow op = some row ∧
      (bitsOf d.flags 1 0 = 3 ∨ (bitsOf d.flags 1 0 = 0 ∧ d.execAt ≠ 0) ∨ d.aux &&& ~~~row.aux ≠ 0 ∨
        (∃ i, i < 48 ∧ (payUsed op d row).getLsbD i = false ∧ bitsOf d.payload (8 * i + 7) (8 * i) ≠ 0) →
        fetchCheck op d = some 0x0102) ∧
      (fetchCheck op d = none → match row.tgt with
        | .zero => d.target = 0
        | .ctx => 1 ≤ d.target.toNat ∧ d.target.toNat ≤ 255
        | .axis => 1 ≤ d.target.toNat ∧ d.target.toNat ≤ 128
        | .group => 129 ≤ d.target.toNat ∧ d.target.toNat ≤ 160
        | .acq => 161 ≤ d.target.toNat ∧ d.target.toNat ≤ 168
        | .signal => d.target.toNat < 2 ^ 25
        | .param => True)) ∧
    (∀ op' d', opRow op' = none → fetchCheck op' d' = some 0x0101) ∧
    f.host.ledger.fetched = s.host.ledger.fetched + 1 ∧
    (f.cq (s.ringBind 0 d.sq.toNat)).reserved = (s.cq (s.ringBind 0 d.sq.toNat)).reserved + 1 ∧
    (f.sq d.sq.toNat).opened = (s.sq d.sq.toNat).opened + 1 ∧
    f = { s with host := f.host } ∧ u = { s with host := u.host, grps := u.grps } ∧
    ∀ g, (u.grp g).members = (s.grp g).members ∧ (u.grp g).queue = (s.grp g).queue

/-- R325 to R353, R372. -/
def Obligations.MovesBeginTheirMode : Prop :=
  ∀ (s : State) (d : Desc),
    let c := bitsOf d.target 7 0
    let Q (i : Nat) : Rat := (d.les i 8 : Rat) / 2 ^ 16
    let pick (v m : Rat) : Rat := if v = 0 then m else min v m
    let lims (u : State) (v a b j : Rat) : Lims :=
      let m : Lims := ⟨u.dw48 c 0x200, u.dw48 c 0x203, u.dw48 c 0x206, u.dw48 c 0x209⟩
      ⟨u.capV c (pick v m.v), pick a m.a, pick b m.d, pick j m.j⟩
    let fresh (u : State) : Axis := { u.ax c with pvt := [], pvtK := 0, pushing := false, rev := none }
    let plan (u : State) (g : Goal) (m : Lims) : Plan :=
      { start := (u.ax c).kin, goal := g, lims := m, t0 := u.cyc.t0.toNat }
    let free (u : State) : Prop := u.notReady c = none
    (∀ row ∈ [Instr.axMove d, .axVel d, .axStop d, .axPvt d, .axStep d, .axGear d, .axCam d, .hmStart d,
        .hmSet d, .limClear d], Takes row s (fun u k t => ∀ st, u.notReady c = some st →
          t = u.answer c k st)) ∧
    (∀ u : State, let x := u.ax c
      (x.enabled = false ∨ x.stop ≠ .none → u.notReady c = some 0x0322) ∧
      (x.enabled = true → x.stop = .none → u.notReady c = if x.group.isSome then some 0x0323 else none)) ∧
    Takes (.axMove d) s (fun u k t => free u → bitOf d.aux 1 = false →
      let x := u.ax c
      let base : Rat := if bitOf d.aux 0 = false then 0 else match x.mode, x.cmd, x.plan with
        | .ptp, some _, some ⟨_, .pos q, _, _, _, _⟩ => q
        | _, _, _ => x.kin.p
      let goal := base + Q 16
      let far := u.swlOn c = true ∧ u.outsideSwl c goal = true
      (Q 24 < 0 ∨ Q 32 < 0 ∨ Q 40 < 0 ∨ Q 48 < 0 → t = u.answer c k 0x0324) ∧
      (0 ≤ Q 24 → 0 ≤ Q 32 → 0 ≤ Q 40 → 0 ≤ Q 48 →
        (u.limActive c (goal - x.kin.p) = true → t = u.answer c k 0x0343) ∧
        (u.limActive c (goal - x.kin.p) = false → far → t = u.answer c k 0x0346) ∧
        (u.limActive c (goal - x.kin.p) = false → ¬ far → OtherAxes c u t ∧ t.ax c = { fresh u with
          mode := .ptp, plan := some (plan u (.pos goal) (lims u (Q 24) (Q 32) (Q 40) (Q 48))), cmd := k }))) ∧
    Takes (.axVel d) s (fun u k t => free u → bitOf d.aux 1 = false →
      0 ≤ Q 24 → 0 ≤ Q 32 → 0 ≤ Q 40 → u.limActive c (Q 16) = false →
      let m := lims u (absR (Q 16)) (Q 24) (Q 32) (Q 40)
      let v := if Q 16 = 0 then 0 else if 0 < Q 16 then m.v else -m.v
      0 < m.v → OtherAxes c u t ∧ t.ax c =
        { fresh u with mode := .vel, plan := some (plan u (.vel v) m), cmd := k }) ∧
    (∀ (op : BitVec 8) (row : Instr), (op, row) ∈ [(0x11, Instr.axMove d), (0x12, .axVel d), (0x16, .axCam d)] →
      Takes row s (fun u k t => free u → bitOf d.aux 1 = true →
        let ok := (op = 0x11 → 0 ≤ Q 24 ∧ 0 ≤ Q 32 ∧ 0 ≤ Q 40 ∧ 0 ≤ Q 48) ∧
          (op = 0x12 → 0 ≤ Q 24 ∧ 0 ≤ Q 32 ∧ 0 ≤ Q 40) ∧ (op = 0x16 → d.le 16 1 < 64 ∧ d.le 17 1 < 16)
        (¬ ok → t = u.answer c k 0x0324) ∧ (ok → OtherAxes c u t ∧
          t.ax c = { u.ax c with held := some ⟨op, d, k, bitsOf d.aux 15 8⟩ }))) ∧
    Takes (.axStop d) s (fun u k t => free u → bitOf d.aux 0 = false → 0 ≤ Q 24 → 0 ≤ Q 32 →
      let m := lims u 0 0 (Q 24) (Q 32)
      OtherAxes c u t ∧ t.ax c = { fresh u with
        mode := .stop, plan := some (plan u (.vel 0) ⟨0, m.d, m.d, m.j⟩), cmd := k }) ∧
    Takes (.axStop d) s (fun u k t => free u → bitOf d.aux 0 = true →
      let q := u.dw48 c 0x20C
      OtherAxes c u t ∧ (t.ax c).mode = .stop ∧ (t.ax c).stop = .decel u.bt ∧ (t.ax c).cmd = k ∧
        (t.ax c).plan = some { plan u (.vel 0) ⟨0, q, q, u.dw48 c 0x209⟩ with t0 := (u.ax c).kinT }) ∧
    Takes (.axPvt d) s (fun u k t => free u → u.anyLimit c = false →
      let n := bitsOf d.aux 1 0
      let seg (i : Nat) : PvtSeg := ⟨Q (16 + 20 * i), Q (24 + 20 * i), d.le (32 + 20 * i) 4,
        if i + 1 = n then k else none⟩
      (n = 1 ∨ n = 2) → (∀ i, i < n → 0 < (seg i).n ∧ (seg i).n ≤ 65535 ∧
        absR (seg i).v ≤ u.dw48 c 0x200) →
      let l := (List.range n).map seg
      OtherAxes c u t ∧ ((u.ax c).mode ≠ .pvt → t.ax c = { fresh u with
          mode := .pvt, plan := none, cmd := none, pvt := l, pvtFrom := (u.ax c).kin }) ∧
        ((u.ax c).mode = .pvt → (u.ax c).pvt.length + n ≤ 16 → (t.ax c).mode = .pvt ∧
          (t.ax c).pvt = (u.ax c).pvt ++ l ∧ (t.ax c).kin = (u.ax c).kin)) ∧
    Takes (.axPvt d) s (fun u k t => free u → u.anyLimit c = false → (u.ax c).mode = .pvt →
      16 < (u.ax c).pvt.length + bitsOf d.aux 1 0 → ∃ st, t = u.answer c k st) ∧
    Takes (.axStep d) s (fun u k t => free u → u.anyLimit c = false →
      ((u.ax c).kin.v ≠ 0 → t = u.answer c k 0x0325) ∧
      ((u.ax c).kin.v = 0 → OtherAxes c u t ∧ ∃ v : State, t = v.answer c k 0 ∧ v.ax c = { fresh u with
        mode := .step, plan := none, cmd := none, stepSrc := bitsOf d.aux 2 0, stepP := (u.ax c).kin.p,
        stepQ := (u.ax c).kin.p, stepS := 0, stepLast := u.stepCount (bitsOf d.aux 2 0) })) ∧
    Takes (.axGear d) s (fun u k t => free u → u.anyLimit c = false →
      let ms := d.le 24 1
      let gv := (d.les 16 4 : Rat) / d.le 20 4 * ((u.ms ms).froz.vel.toInt / 2 ^ 32)
      ms < 16 → 0 < d.le 20 4 → u.msKind ms ≠ 0 → 0 ≤ Q 32 → 0 ≤ Q 40 → 0 ≤ Q 48 →
      OtherAxes c u t ∧ (t.ax c).mode = .gear ∧ (t.ax c).msHeld = 0 ∧ (t.ax c).follow.ms = ms ∧
      (t.ax c).follow.num = d.les 16 4 ∧ (t.ax c).follow.den = d.le 20 4 ∧
      if bitOf d.aux 0 then (t.ax c).cmd = k ∧ (t.ax c).kin = (u.ax c).kin ∧ (t.ax c).follow.locked = false ∧
        (t.ax c).plan = some (plan u (.vel gv) (lims u 0 (Q 32) (Q 40) (Q 48)))
      else (t.ax c).cmd = none ∧ (t.ax c).plan = none ∧ (t.ax c).kin = ⟨(u.ax c).kin.p, gv, 0⟩ ∧
        (t.ax c).follow.locked = true ∧ (t.ax c).follow.pEng = (u.ax c).kin.p) ∧
    Takes (.axCam d) s (fun u k t => free u → bitOf d.aux 1 = false →
      let ct := d.le 16 1
      let ms := d.le 17 1
      let m : Rat := ((u.ms ms).froz.pos.toInt : Rat) / 2 ^ 32 + (u.ms ms).froz.travel u.cyc.t0.toNat
      let y := ((u.cam ct).value (Q 32) (m - (d.les 24 8 : Rat) / 2 ^ 32)).1
      ct < 64 → ms < 16 → u.msKind ms ≠ 0 → u.anyLimit c = false →
      ((u.cam ct).ready = false → t = u.answer c k 0x032B) ∧
      ((u.cam ct).ready = true → 1 < absR ((u.ax c).kin.p - y.p) → t = u.answer c k 0x032C) ∧
      ((u.cam ct).ready = true → absR ((u.ax c).kin.p - y.p) ≤ 1 → OtherAxes c u t ∧
        (t.ax c).mode = .cam ∧ (t.ax c).cmd = k ∧ (t.ax c).plan = none ∧ (t.ax c).kin = (u.ax c).kin ∧
        (t.ax c).follow.ct = ct ∧ (t.ax c).follow.ms = ms))

/-- R331, R332, R379 to R383, R386, R387, R395, R396. -/
def Obligations.EnableHomingAndLimits : Prop :=
  ∀ (s : State) (d : Desc),
    let c := bitsOf d.target 7 0
    Takes (.axEnable d) s (fun u k t => bitOf d.aux 0 = true →
      let x := u.ax c
      let pair := (u.mirrorOn = true ∨ u.twin.st = .standby) ∧ u.isNear c = false ∧ u.drawer c 0x099 = 0
      let bad := u.ctxEn c = false ∨ (x.faulted = true ∧ bitOf d.aux 1 = false) ∨ u.faultActive c = true
      (pair → t = u.answer c k 0x0712) ∧ (¬ pair → bad → t = u.answer c k 0x0322) ∧
      (¬ pair → ¬ bad → OtherAxes c u t ∧ ∃ v : State, t = v.answer c k 0 ∧ (v.ctx c).lostRuns = 0 ∧
        (u.isOn 7 = true → ∀ n ∈ notchesOf (u.prof c), ∀ j, j < 4 → v.drawer c (0x100 + 16 * n + 9 + j) = 0) ∧
        v.ax c = { x with
          enabled := true, faulted := false, stop := .none, engage := false, od := false, mode := .idle,
          plan := none, next := none, nextNew := none, cmd := none, msHeld := 0, kin := { p := x.meas },
          kinT := u.cyc.t0.toNat, group := none,
          pvt := [], pvtK := 0, pushing := false, rev := none,
          law := { pMeas := x.meas, pPrev := x.meas, pFb := x.meas, pHat := x.meas } })) ∧
    Takes (.axEnable d) s (fun u k t => bitOf d.aux 0 = false →
      ((u.ax c).enabled = false → t = u.answer c k 0) ∧
      ((u.ax c).enabled = true → OtherAxes c u t ∧ ∃ v : State, t = v.answer c k 0 ∧
        (v.ax c).enabled = false ∧ (v.ax c).od = true ∧ (v.ax c).engage = true ∧ (v.ax c).mode = .idle ∧
        (v.ax c).cmd = none ∧ (v.ax c).pvt = [] ∧ (v.ax c).held = none ∧ (v.ax c).group = none ∧
        (v.ax c).plan = none ∧ (v.ax c).homed = (u.ax c).homed)) ∧
    Takes (.hmStart d) s (fun u k t => u.notReady c = none →
      let w := u.drawer c 0x300
      let m := bitsOf w 2 0
      let dir : Rat := if bitOf w 3 then -1 else 1
      let home := u.inLevel c (if m = 3 then (if bitOf w 3 then 1 else 0) else 2)
      let st : HmSt := if m = 4 then .indexSeek else if m = 5 then .push else if home then .clear else .search
      let v : Rat := if st = .search then dir * u.dw48 c 0x301
        else if st = .clear then -dir * u.dw48 c 0x304 else dir * u.dw48 c 0x304
      (u.homingBad c = true → t = u.answer c k 0x0341) ∧
      (u.homingBad c = false → OtherAxes c u t ∧ (m = 6 → (t.ax c).homed = true ∧ (t.ax c).cmd = none ∧
          (t.ax c).meas = u.dw48 c 0x30A ∧
          (t.ax c).mode = if (u.ax c).kin.v = 0 then .idle else .stop) ∧
        (m ≠ 6 → (t.ax c).mode = .homing ∧ (t.ax c).homed = false ∧ (t.ax c).cmd = k ∧
          (t.ax c).hm.method = m ∧ (t.ax c).hm.st = st ∧ (t.ax c).pushing = decide (m = 5) ∧
          (t.ax c).kin = (u.ax c).kin ∧ ∃ p, (t.ax c).plan = some p ∧ p.goal = .vel v ∧
            p.start = (u.ax c).kin))) ∧
    Takes (.hmSet d) s (fun u k t => u.notReady c = none →
      ((u.ax c).kin.v ≠ 0 → t = u.answer c k 0x0325) ∧
      ((u.ax c).kin.v = 0 → OtherAxes c u t ∧ ∃ v : State, t = v.answer c k 0 ∧ (v.ax c).homed = true ∧
        (v.ax c).meas = (d.les 16 8 : Rat) / 2 ^ 16 ∧ (v.ax c).pos = (u.ax c).pos ∧
        (v.ax c).kin.p - (u.ax c).kin.p = (v.ax c).meas - (u.ax c).meas ∧
        (v.ax c).kin.v = 0 ∧ (v.ax c).mode = (u.ax c).mode)) ∧
    Takes (.limClear d) s (fun u k t => u.notReady c = none →
      let named (i : Nat) : Prop := i < 3 ∧ bitOf d.aux i = true
      ((∃ i, named i ∧ u.stillChatters c i = true) → t = u.answer c k 0x0349) ∧
      ((∀ i, named i → u.stillChatters c i = false) → OtherAxes c u t ∧ ∃ v : State, t = v.answer c k 0 ∧
        (∀ i, i < 3 → (v.ax c).inp i = if bitOf d.aux i then { (u.ax c).inp i with chat := false }
          else (u.ax c).inp i) ∧
        v.ax c = { u.ax c with inP := (v.ax c).inP, inN := (v.ax c).inN, inH := (v.ax c).inH })) ∧
    (∀ (n : Fin 8) (lp ln h : Bool), let c := s.ctxOfNear n
      s.isOn 22 = true → c ≠ 0 → Runs (.axisInputSample n lp ln h) s (fun t => OtherAxes c s t ∧
        ∀ i, i < 3 →
          let raw := if i = 0 then lp else if i = 1 then ln else h
          let o := (s.ax c).inp i
          let z := (t.ax c).inp i
          let n := if raw = o.raw then o.stable + 1 else 1
          z.raw = raw ∧ z.filt = (if 10 * s.rf PRF_LIM_CFG c 7 0 + 1 ≤ n then raw else o.filt) ∧
          z.wb = o.wb ∧ z.chat = (o.chat || decide (s.rf PRF_LIM_CFG c 15 8 < z.trans.length)) ∧
          (∀ x ∈ z.trans, (s.bt - x).toNat < 100000000))) ∧
    ∀ (n : Fin 8) (i : Fin 3) (b : Bool), let c := s.ctxOfNear n
      s.isOn 22 = true → c ≠ 0 → bitOf (s.rg PRF_LIM_CFG c) (19 + i) = true →
      Runs (.wireBreak n i b) s (fun t => ∃ u : State, OtherAxes c s u ∧ u = { s with axes := u.axes } ∧
        (u.ax c).inp i = { (s.ax c).inp i with wb := b } ∧ (b = true → u.inLevel c i = decide (i.val ≠ 2)) ∧
        t = if b = true ∧ ((s.ax c).inp i).wb = false then
          u.post 0x034A (if u.homingUses c i then .severe else .warn) c (payOf [i]) else u)

/-- R354 to R362. -/
def Obligations.GroupsTakeTheirSegments : Prop :=
  ∀ (s : State) (d : Desc),
    let g := bitsOf d.target 7 0 - 129
    let Q (i : Nat) : Rat := (d.les i 8 : Rat) / 2 ^ 16
    let list := ((List.range 16).map (fun i => d.le (16 + i) 1)).takeWhile (· ≠ 0)
    let others (u t : State) : Prop := ∀ h, h ≠ g → t.grp h = u.grp h
    let opens (q : Option Cmd → Seg) (mask : BitVec 16) (u : State) (k : Option Cmd) (t : State) : Prop :=
      let x := u.grp g
      let ids := (List.range 16).filter (fun i => mask.getLsbD i)
      let bad := mask = 0 ∨ ∃ i ∈ ids, x.members.length ≤ i
      (bad → t = u.reply (129 + g) k 0x0324) ∧ (¬ bad → 64 ≤ x.queue.length → t = u.reply (129 + g) k 0x032F) ∧
      (¬ bad → x.queue.length < 64 → others u t ∧
        t.grp g = { x with open_ := some { seg := q k, sq := d.sq, need := ids } })
    let stop (u : State) (p : Plan) : Plan := u.stopPlan g (p.at u.cyc.t0.toNat) p.lims
    (∀ u p, (stop u p).goal = .vel 0 ∧ (stop u p).start = p.at u.cyc.t0.toNat ∧
      (stop u p).t0 = u.cyc.t0.toNat ∧ (stop u p).pre = [] ∧ (stop u p).legs = []) ∧
    Takes (.grpDefine d) s (fun u k t =>
      let ok := (∀ c ∈ list, u.memberOk g c = true) ∧ list.eraseDups.length = list.length
      (¬ ok → t = u.reply (129 + g) k 0x032D) ∧
      (ok → (∃ c ∈ list, u.anyLimit c = true) → t = u.reply (129 + g) k 0x0343) ∧
      (ok → (∀ c ∈ list, u.anyLimit c = false) → ∃ v : State, t = v.reply (129 + g) k 0 ∧ others u v ∧
        (v.grp g).members = list ∧ (v.grp g).queue = [] ∧ (v.grp g).path = none ∧
        (∀ c ∈ list, c ∉ (u.grp g).members → (v.ax c).group = some g ∧ (v.ax c).mode = .group) ∧
        (∀ c ∈ (u.grp g).members, c ∉ list → (v.ax c).group = none) ∧
        ∀ c, c ∉ list → c ∉ (u.grp g).members → v.ax c = u.ax c)) ∧
    Takes (.grpLine d) s (fun u k t =>
      (Q 16 < 0 ∨ Q 24 < 0 ∨ Q 32 < 0 → t = u.reply (129 + g) k 0x0324) ∧
      (0 ≤ Q 16 → 0 ≤ Q 24 → 0 ≤ Q 32 → opens (fun k =>
        { arc := false, lims := ⟨Q 16, Q 24, Q 24, Q 32⟩, blend := d.le 40 4,
          mask := BitVec.ofNat 16 (d.le 44 2), cmd := k }) (BitVec.ofNat 16 (d.le 44 2)) u k t)) ∧
    Takes (.grpArc d) s (fun u k t =>
      let x := d.le 60 1
      let y := d.le 61 1
      let h := d.le 62 1
      let ok := 0 ≤ Q 16 ∧ 0 ≤ Q 24 ∧ 0 ≤ Q 32 ∧ x < 16 ∧ y < 16 ∧ x ≠ y ∧
        (h = 255 ∨ (h < 16 ∧ h ≠ x ∧ h ≠ y)) ∧ d.le 63 1 ≤ 1
      let mask := BitVec.ofNat 16 (2 ^ x + 2 ^ y + if h = 255 then 0 else 2 ^ h)
      (¬ ok → t = u.reply (129 + g) k 0x0324) ∧
      (ok → opens (fun k =>
        { arc := true, lims := ⟨Q 16, Q 24, Q 24, Q 32⟩, blend := d.le 56 4, mask := mask, cx := Q 40,
          cy := Q 48, x := x, y := y, h := if h = 255 then none else some h, cw := d.le 63 1 = 1,
          cmd := k }) mask u k t)) ∧
    Takes (.grpPos d) s (fun u k t =>
      ((∀ o, (u.grp g).open_ = some o → o.sq ≠ d.sq) → t = u.reply (129 + g) k 0x0330) ∧
      ∀ o, (u.grp g).open_ = some o → o.sq = d.sq → others u t ∧
        let ends := (o.need.take 6).zipIdx.foldl (fun m p => tset 0 m p.1 (Q (16 + 8 * p.2))) o.seg.ends
        let q : Seg := { o.seg with ends := ends }
        (6 < o.need.length → t.grp g = { u.grp g with
          open_ := some { o with seg := q, need := o.need.drop 6, cmds := o.cmds ++ [k] } }) ∧
        (o.need.length ≤ 6 → (q.arc = false ∨ arcBad q (u.segFrom g) = false) →
          (t.grp g).open_ = none ∧ (t.grp g).queue = (u.grp g).queue ++ [q])) ∧
    Takes (.grpHold d) s (fun u k t => ∃ v : State, t = v.reply (129 + g) k 0 ∧ others u v ∧
      v = { u with grps := v.grps } ∧
      let x := u.grp g
      if x.st = .run ∨ x.st = .idle then v.grp g = { x with
        st := .hold, path := x.path.map (stop u) }
      else v = u) ∧
    Takes (.grpResume d) s (fun u k t => ∃ v : State, t = v.reply (129 + g) k 0 ∧ others u v ∧
      v = { u with grps := v.grps } ∧
      let x := u.grp g
      if x.st = .hold then (v.grp g).queue = x.queue ∧
        (v.grp g).path = x.path.bind (fun p => u.pathFrom g (p.at u.cyc.t0.toNat) u.cyc.t0.toNat) ∧
        (v.grp g).st = if (v.grp g).path.isSome then .run else .idle
      else v = u) ∧
    Takes (.grpFlush d) s (fun u k t => ∃ v : State, t = v.reply (129 + g) k 0 ∧ others u v ∧
      let x := u.grp g
      ((x.path.isSome = true) → v.grp g = { x with
        st := .stopping, path := x.path.map (stop u) }) ∧
      (x.path = none → v.grp g = { x with queue := [], gone := 0, back := none, st := .idle }))

/-- R344, R350, R351, R363 to R373. -/
def Obligations.SlotsCamsAndMasters : Prop :=
  ∀ (s : State) (d : Desc),
    let n := bitsOf d.aux 7 0
    let c := bitsOf d.target 7 0
    let others (u t : State) : Prop := ∀ k, k ≠ n → t.ev k = u.ev k
    let tables (u t : State) : Prop := ∀ k, k ≠ n → t.cam k = u.cam k
    Takes (.evArm d) s (fun u k t =>
      let e := slotOfDesc d k
      (e.inRange = false → t = u.answer c k 0x0324) ∧
      (e.inRange = true → u.ownerOk n e = false → t = u.answer c k 0x0332) ∧
      (e.inRange = true → u.ownerOk n e = true → t.ev n = e ∧ others u t ∧ e.armed = true ∧
        e.first = true ∧ e.owner = c ∧ e.x = BitVec.ofNat 64 (d.le 16 8) ∧ e.sched = [] ∧
        t = { u with evs := t.evs, host := t.host })) ∧
    Takes (.evDisarm d) s (fun u k t =>
      ((u.ev n).armed = true → (u.ev n).owner ≠ c → t = u.answer c k 0x0332) ∧
      ((u.ev n).armed = false → t = u.answer c k 0) ∧
      ((u.ev n).owner = c → (t.ev n).armed = false ∧ others u t ∧ t = { u with evs := t.evs, host := t.host })) ∧
    Takes (.ctLoad d) s (fun u k t =>
      let f := bitsOf d.aux 17 8
      (64 ≤ n ∨ 1024 < f + 5 → t = u.reply 0 k 0x0324) ∧
      (n < 64 → f + 5 ≤ 1024 → u.camUsed n = true → t = u.reply 0 k 0x032A) ∧
      (n < 64 → f + 5 ≤ 1024 → u.camUsed n = false → ∃ v : State, t = v.reply 0 k 0 ∧ tables u v ∧
        v = { u with cams := v.cams } ∧ v.cam n = { u.cam n with load := (v.cam n).load } ∧
        (∀ i, i < 5 → tget 0 (v.cam n).load (f + i) = BitVec.ofNat 64 (d.le (16 + 8 * i) 8)) ∧
        ∀ j, (j < f ∨ f + 5 ≤ j) → tget 0 (v.cam n).load j = tget 0 (u.cam n).load j)) ∧
    Takes (.ctCommit d) s (fun u k t =>
      let ok := n < 64 ∧ 4 ≤ d.le 16 2 ∧ d.le 16 2 ≤ 1024 ∧ d.le 24 8 ≠ 0 ∧ d.le 32 1 ≤ 1
      (¬ ok → t = u.reply 0 k 0x0324) ∧ (ok → u.camUsed n = true → t = u.reply 0 k 0x032A) ∧
      (ok → u.camUsed n = false → tables u t ∧ t.cam n = { u.cam n with
        n := d.le 16 2, xlen := BitVec.ofNat 64 (d.le 24 8), cyclic := d.le 32 1 == 1,
        pts := (u.cam n).load, ready := false, computing := true, cmd := k })) ∧
    (∀ k : Fin 64, let x := s.cam k
      (x.computing = false → exec (.camTableReady k) s = .next s) ∧
      (x.computing = true → Runs (.camTableReady k) s (fun t => ∃ v : State, t = v.reply 0 x.cmd 0 ∧
        v = { s with cams := v.cams } ∧ (∀ j, j ≠ k.val → v.cam j = s.cam j) ∧
        v.cam k = { x with computing := false, ready := true, cmd := none }))) ∧
    Takes (.vmSet d) s (fun u k t =>
      let m := bitsOf d.aux 3 0
      let x := u.ms m
      (u.msKind m ≠ 4 → t = u.reply 0 k 0x0324) ∧
      (u.msKind m = 4 → (∀ j, j ≠ m → t.ms j = u.ms j) ∧ (t.ms m).vmV = BitVec.ofNat 64 (d.le 16 8) ∧
        (t.ms m).vmA = BitVec.ofNat 64 (d.le 24 8) ∧ (t.ms m).cmd = k ∧ (t.ms m).live.valid = true ∧
        (t.ms m).vmT = 0 ∧ (t.ms m).vmStart.v = (x.motion ((x.vmT : Rat) / 1000000000)).v ∧
        (bitOf d.aux 4 = false → (t.ms m).vmStart.p = (x.motion ((x.vmT : Rat) / 1000000000)).p) ∧
        (t.ms m).live.vel = x.live.vel ∧ (t.ms m).live.tref = u.cyc.t0.setWidth 32 ∧
        (t.ms m).froz = (t.ms m).live ∧
        (t.ms m).live.pos = if bitOf d.aux 4 then BitVec.ofNat 64 (d.le 32 8) else x.live.pos)) ∧
    (∀ k : BitVec 8, let n := k.toNat
      let e := s.ev n
      let drives (u t : State) (g : GoEdge) : Prop := bitOf (s.rg EVT_GO_OWN) g.ball = true → ∃ v : State,
        v = { u with go := v.go } ∧ t = v.out (.ball (.go g.ball) (if v.goLevel g.ball then .high else .low)) ∧
        match g.width with
        | some w => v.go.level = u.go.level ∧ ∀ q, q ∈ v.go.pulses ↔ q ∈ u.go.pulses ∨
            q = ⟨g.ball, n, BitVec.ofNat 64 (max u.bt.toNat g.at_.toNat + w)⟩
        | none => v.go.level = u.go.level ^^^ BitVec.ofNat 16 (2 ^ g.ball) ∧ v.go.pulses = u.go.pulses
      let noEdge := ∀ g ∈ s.go.edges, g.slot ≠ n
      (noEdge → e.sched = [] → exec (.eventFire k) s = .next s) ∧
      (∀ g, s.go.edges.find? (fun g => g.slot == n) = some g → (∀ f ∈ e.sched, g.at_ ≤ f.at_) →
        Runs (.eventFire k) s (fun t => ∃ u : State, u = { (s.upTo g.at_) with go := u.go } ∧
          g ∉ u.go.edges ∧ drives u t g)) ∧
      ∀ f rest, noEdge → e.sched = f :: rest →
        let edge : GoEdge := ⟨n, f.edge, e.arg, if e.action = 1 then some e.width.toNat else none⟩
        let early := (e.action = 1 ∨ e.action = 2) ∧ f.driven = false ∧ f.edge < f.at_
        (early → Runs (.eventFire k) s (fun t => ∃ u : State, u = { (s.upTo f.edge) with evs := u.evs } ∧
          u.ev n = { e with sched := { f with driven := true } :: rest } ∧ drives u t edge)) ∧
        (¬ early → Runs (.eventFire k) s (fun t => ∃ u : State,
          let w := if f.late then ((s.upTo f.at_).bump EVT_LATE n).post 0x0334 .warn e.owner (payOf [n])
            else s.upTo f.at_
          u = { w with evs := u.evs, regs := u.regs } ∧
          u.rg EVT_FIRED n = satAdd (s.rg EVT_FIRED n) 1 ∧ SameRegsBut w u [regKey EVT_FIRED n] ∧
          (∀ j, j ≠ n → u.ev j = s.ev j) ∧
          (e.repeat_ = true → (u.ev n).armed = e.armed ∧ (u.ev n).x = e.x + e.step ∧ (u.ev n).sched = rest) ∧
          (e.repeat_ = false → (u.ev n).armed = false ∧ (u.ev n).sched = []) ∧
          (e.action = 0 ∨ e.action = 3 → ∃ v : State, v = (if e.tokCtx = 0 then u else u.extArrive e.tokCtx 3) ∧
            t = if e.notify then v.post 0x0335 .info e.owner (payOf ([n, 0, 0, 0] ++ leBytes 4 f.at_.toNat))
              else v) ∧
          ((e.action = 1 ∨ e.action = 2) → f.driven = false → e.tokCtx = 0 → e.notify = false →
            if f.edge ≤ u.bt then drives u t edge else t = { u with go := { u.go with edges := u.go.edges ++ [edge] } })))) ∧
    ∀ k : BitVec 8,
      ((∀ p ∈ s.go.pulses, p.slot ≠ k.toNat) → exec (.goPulseEnd k) s = .next s) ∧
      ∀ p, s.go.pulses.find? (fun p => p.slot == k.toNat) = some p → Runs (.goPulseEnd k) s (fun t =>
        ∃ u : State, u = { (s.upTo p.until_) with go := u.go } ∧ p ∉ u.go.pulses ∧
        u.go.level = s.go.level ∧ (∀ q ∈ s.go.pulses, q ≠ p → q ∈ u.go.pulses) ∧
        t = u.out (.ball (.go p.ball) (if u.goLevel p.ball then .high else .low)))

/-- R410, R414, R419, R422, R423, R434, R440, R479, R493, R808. -/
def Obligations.OwnCellsComeBackCountedAndKnown : Prop :=
  ∀ (s : State),
    (∀ (p : Fin 4) (rx : RxCell),
      let c := rx.cell
      let r := p.val / 2
      let cnt := if knownType c.typ = false then LNK_RX_FRAMING else if rx.hOk = false then LNK_RX_HCRC
        else if rx.ok = false then LNK_RX_CRC else LNK_RX_CELLS
      let chk := s.bump cnt p (if knownType c.typ = true then 1 else if c.typ = 0xAE then 4 else 5)
      let own := knownType c.typ = true ∧ rx.hOk = true ∧ c.claim = s.twin.claim
      let backOnItsPort := (s.ring r).st = .closed ∧ (s.ring r).locate = none ∧ s.leftOn r c = some p.val
      let rows := [Instr.ownCellReturn p rx, .carrierReturn p rx, .ioUpReturn p rx]
      (s.portOn p = false → ∀ row ∈ .cellForward p rx :: .adminResponse p rx :: .tunnelSegment p rx ::
        .joinReceive p rx :: .echoResponse p rx :: .locateReturn p rx :: rows, exec row s = .next s) ∧
      (s.portOn p = true → ¬ own → ∀ row ∈ rows, exec row s = .next chk) ∧
      (s.portOn p = true → own → ¬ backOnItsPort →
        (c.typ = 0xA1 ∨ c.typ = 0xA5 → Runs (.ownCellReturn p rx) s (fun t => ∃ u : State,
          t = u.post 0x0502 .warn 0 (payOf ([r, c.node.toNat, c.typ.toNat, 0] ++ leBytes 2 c.seq.toNat)) ∧
          u = { s with regs := u.regs } ∧ u.rg LNK_STRIP_MISS p = satAdd (s.rg LNK_STRIP_MISS p) 1 ∧
          u.rg cnt p = satAdd (s.rg cnt p) 1 ∧ SameRegsBut s u [regKey cnt p, regKey LNK_STRIP_MISS p])) ∧
        (c.typ = 0xA7 → c.seq = s.cyc16 → Runs (.ownCellReturn p rx) s (fun t =>
          t = chk.setRing r { s.ring r with markSeen := true })) ∧
        (c.typ = 0xA2 → Runs (.carrierReturn p rx) s (fun t => ∃ (u : State) (src : Nat),
          t = u.post 0x0503 .warn src (payOf ([r, c.node.toNat] ++ leBytes 2 c.seq.toNat)) ∧
          u = { s with regs := u.regs } ∧ u.rg LNK_CARRIER_RET p = satAdd (s.rg LNK_CARRIER_RET p) 1 ∧
          SameRegsBut s u [regKey cnt p, regKey LNK_CARRIER_RET p] ∧
          ((∃ k, s.farOf k = some (r, c.node.toNat, c.axs.toNat)) →
            s.farOf src = some (r, c.node.toNat, c.axs.toNat)))) ∧
        (c.typ = 0xA6 → rx.ok = true → c.empty = false → Runs (.ioUpReturn p rx) s (fun t =>
          t = { chk with lnk := t.lnk } ∧ t.lnk = { s.lnk with ioIn := t.lnk.ioIn } ∧
          (∀ j, j < 5 → tget 0 t.lnk.ioIn (ioKey r c.node.toNat (c.axs.toNat % 4) j) =
            BitVec.ofNat 32 (c.be (4 * j) 4)) ∧
          ∀ k, (∀ j, j < 5 → k ≠ ioKey r c.node.toNat (c.axs.toNat % 4) j) →
            tget 0 t.lnk.ioIn k = tget 0 s.lnk.ioIn k))) ∧
      (s.portOn p = true → own → backOnItsPort → c.typ = 0xA4 →
        exec (.ownCellReturn p rx) s = .next (chk.breakRing r none none)) ∧
      (s.portOn p = true → knownType c.typ = false → exec (.cellForward p rx) s = .next chk) ∧
      (s.portOn p = true → knownType c.typ = true → ¬ own →
        let f := if s.portOn (p.val ^^^ 1) = true ∧ s.silent = false then
          chk.out (.forward (p.val ^^^ 1) rx) else chk
        (rx.hOk = false ∨ s.twin.st = .off → exec (.cellForward p rx) s = .next f) ∧
        (rx.hOk = true → s.twin.st ≠ .off → ¬ (s.twin.st = .active ∧ s.twin.claim < c.claim) →
          exec (.cellForward p rx) s = .next { f with twin :=
            { s.twin with otherSeen := true, cellSeen := s.twin.cellSeen || c.claim == s.twin.partner } }) ∧
        (rx.hOk = true → s.twin.st = .active → s.twin.claim < c.claim →
          Runs (.cellForward p rx) s (fun t => ∃ u : State, t = u.post 0x0706 .warn 0 ∧
            u = { f with twin := u.twin, tm := u.tm } ∧ u.twin = { s.twin with
              st := .refused, cause := 3, otherSeen := true,
              cellSeen := s.twin.cellSeen || c.claim == s.twin.partner })))) ∧
    ∀ (p : Fin 5),
      let x := s.port p
      let others (t : State) : Prop := t = { s with lnk := t.lnk } ∧
        t.lnk = { s.lnk with ports := t.lnk.ports } ∧ ∀ q, q ≠ p.val → t.port q = s.port q
      let lines (y : Port) (t : State) : Prop := ∃ u : State, others u ∧ u.port p = y ∧
        let lost := s.isOn 1 = true ∧ s.portOn p = true ∧ p.val < 4 ∧ (x.lock = true ∧ y.lock = false ∨
          x.losSeen = false ∧ y.losSeen = true)
        let r := p.val / 2
        let z := s.ring r
        let lone := y.lock = true ∨ (s.port (p.val ^^^ 1)).lock = true
        (¬ lost ∨ (lone ∧ z.st ≠ .closed ∧ z.st ≠ .twoEnded) ∨ (¬ lone ∧ z.st = .off) → t = u) ∧
        (lost → lone → z.st = .closed → t = u.breakRing r none none) ∧
        (lost → lone → z.st = .twoEnded → t = if p.val % 2 = 0 then
          u.breakRing r none (some z.min) else u.breakRing r (some z.max) none) ∧
        (lost → ¬ lone → z.st ≠ .off → ∃ v : State, t = v.post 0x0537 .severe 0 ∧
          v = { u with rings := v.rings } ∧ (v.ring r).st = .off ∧ (v.ring r).locate = none ∧
          (∀ k, 1 ≤ k → k ≤ z.nodes → ((v.ring r).node k).lost = true) ∧
          ∀ q, q ≠ r → v.ring q = s.ring q)
      (∀ bs, exec (.cellDiscard ⟨p, bs⟩) s =
        .next (if s.portOn p then s.bump LNK_RX_FRAMING p (framing 0 bs) else s)) ∧
      Runs (.linkUp p) s (fun t => if s.portOn p = true then others t ∧
        t.port p = { x with lock := true, hiBer := false, up := true } ∧ t.linkUp p = true else t = s) ∧
      (∀ a, Runs (.moduleAbsent p a) s (fun t => ∃ u : State, lines { x with modabs := a } u ∧
        t = if s.isOn 1 = true ∧ a = true ∧ x.modabs = false then u.post 0x0501 .warn 0 else u)) ∧
      (∀ lock los hiBer, Runs (.portLockLoss p ⟨lock, los, hiBer⟩) s (lines { x with
        los := los, lock := s.portOn p && lock, hiBer := s.portOn p && lock && hiBer,
        up := x.up && s.portOn p && lock && !hiBer })) ∧
      (∀ v : W32, s.isOn 1 = true →
        let go (rd : Bool) (w : W32) (t : State) : Prop :=
          let k := s.setRg LNK_I2C_CTL p (w &&& LNK_I2C_CTL.mask)
          let dev := bitsOf v 7 1
          if bitOf v 31 = true ∧ x.i2c = none ∧ (dev = 0x50 ∨ dev = 0x51) then
            t.outputs = s.outputs ++ [.i2c p rd dev (bitsOf v 15 8) (bitsOf v 23 16)] ∧ t.regs = k.regs ∧
            (∃ q : I2c, t.port p = { x with i2c := some q } ∧ q.read = rd ∧ q.dev.toNat = dev ∧
              q.reg.toNat = bitsOf v 15 8 ∧ q.data.toNat = bitsOf v 23 16) ∧
            ∀ q, q ≠ p.val → t.port q = s.port q
          else t = k
        (s.rf LNK_PORT_SEL 0 2 0 = p.val →
          Runs (.sfpI2CRead v) s (go true (v ||| 0x40000000)) ∧
          Runs (.sfpI2CWrite v) s (go false (v &&& 0xBFFFFFFF))) ∧
        (5 ≤ s.rf LNK_PORT_SEL 0 2 0 → exec (.sfpI2CRead v) s = .next s ∧
          exec (.sfpI2CWrite v) s = .next s)) ∧
      (∀ nack data, (x.i2c = none → exec (.sfpI2CDone p nack data) s = .next s) ∧
        ∀ q, x.i2c = some q → Runs (.sfpI2CDone p nack data) s (fun t => others t ∧ t.port p = { x with
          i2c := none, nack := nack, data := if q.read = true ∧ nack = false then data else x.data }))

/-- R441 to R445, R448 to R450, R642. -/
def Obligations.AdminAndTunnelCellsAreServed : Prop :=
  ∀ (s : State),
    let noWait (u t : State) (q : BitVec 16) : Prop := t = { u with lnk := t.lnk } ∧
      t.lnk.adm = u.lnk.adm.filter (fun b => b.seq ≠ q) ∧
      ∀ d, d < 4 → (t.dir d).wait = (u.dir d).wait.filter (fun b => ¬ (b.cls = 1 ∧ b.cell.seq = q)) ∧
        (t.dir d).credits = (u.dir d).credits
    let asks (u t : State) (r n pt k : Nat) (wr : Bool) (vals : Nat → W32) (cmd : Option Cmd) :
        Prop :=
      let q := u.lnk.seq
      let ends (e : Nat) : Bool := if n = 255 then e == 2 * r + b2n u.tail ||
        (e == 2 * r + 1 && (u.ring r).st == .twoEnded && u.twin.st == .off) else e == u.dirOf r n
      t = { u with lnk := t.lnk } ∧ t.lnk.seq = q + 1 ∧
      t.lnk.adm = u.lnk.adm ++ (if n = 255 then [] else [⟨r, n, q, wr, k, 0, .host cmd⟩]) ∧
      ∃ c : Cell, c.typ = 0xA8 ∧ c.node.toNat = n ∧ c.seq = q ∧ c.sub = (if wr then 2 else 1) ∧
        c.be 0 4 = r * 2 ^ 24 + n * 2 ^ 16 + pt ∧ c.oct 4 = k ∧
        (wr = true → ∀ i, i < k → BitVec.ofNat 32 (c.be (8 + 4 * i) 4) = vals i) ∧
        ∀ e, t.dir e = if ends e then { u.dir e with
          wait := (u.dir e).wait ++ ({ cls := 0, cell := c } : Acyc) :: if n = 255 then [] else
            [{ cls := 1, cell := { typ := 0xA8, node := c.node, flags := 1, seq := q, sub := 0x80 } }] }
          else u.dir e
    (∀ d : Desc,
      let r := bitsOf d.target 24 24
      let n := bitsOf d.target 23 16
      let pt := bitsOf d.target 15 0
      let k := bitsOf d.aux 2 0
      let val (i : Nat) : W32 := BitVec.ofNat 32 (d.le (16 + 4 * i) 4)
      (∀ row ∈ [Instr.sigRead d, .sigWrite d], Takes row s (fun u cmd t =>
        (k = 0 ∨ 4 < k → t = u.complete cmd 0x0513) ∧
        (1 ≤ k → k ≤ 4 → n = 0 → ioPoints r pt k = none → t = u.complete cmd 0x0511))) ∧
      Takes (.sigRead d) s (fun u cmd t => 1 ≤ k → k ≤ 4 →
        (n = 255 → t = u.complete cmd 0x0515) ∧
        (1 ≤ n → n ≤ 254 → asks u t r n pt k false val cmd) ∧
        (n = 0 → ∀ ps, ioPoints r pt k = some ps → t = u.complete cmd 0 (payOf (ps.flatMap (fun p =>
          leBytes 4 (tget 0 (if p.1 then u.lnk.ioOut else u.lnk.ioIn) p.2).toNat))))) ∧
      Takes (.sigWrite d) s (fun u cmd t => 1 ≤ k → k ≤ 4 →
        (n = 255 → ∃ v : State, asks u v r n pt k true val cmd ∧ t = v.complete cmd 0) ∧
        (1 ≤ n → n ≤ 254 → asks u t r n pt k true val cmd) ∧
        (n = 0 → ∀ ps, ioPoints r pt k = some ps →
          ((∃ p ∈ ps, p.1 = false) → t = u.complete cmd 0x0512) ∧
          ((∀ p ∈ ps, p.1 = true) → ∃ v : State, t = v.complete cmd 0 ∧ v = { u with lnk := v.lnk } ∧
            v.lnk = { u.lnk with ioOut := v.lnk.ioOut } ∧
            (∀ i, i < k → ∀ p, ps[i]? = some p → tget 0 v.lnk.ioOut p.2 = val i) ∧
            ∀ q, (∀ p ∈ ps, p.2 ≠ q) → tget 0 v.lnk.ioOut q = tget 0 u.lnk.ioOut q)))) ∧
    (∀ (p : Fin 4) (rx : RxCell) (a : Adm) (cmd : Option Cmd),
      let c := rx.cell
      let chk := s.bump LNK_RX_CELLS p
      s.portOn p = true → rx.hOk = true → rx.ok = true → c.claim = s.twin.claim →
      ¬ ((s.ring (p.val / 2)).st = .closed ∧ (s.ring (p.val / 2)).locate = none ∧
        s.leftOn (p.val / 2) c = some p.val) → c.typ = 0xA8 → c.empty = false → a ∈ s.lnk.adm →
      (∀ b ∈ s.lnk.adm, b.seq = a.seq → b = a) → c.seq = a.seq → a.ring = p.val / 2 →
      c.node.toNat = a.node → c.sub = (if a.write then 0x82 else 0x81) → a.what = .host cmd →
      Runs (.adminResponse p rx) s (fun t => ∃ u : State, noWait chk u a.seq ∧
        t = if c.oct 5 ≠ 0 then u.complete cmd (BitVec.ofNat 16 (0x0510 + c.oct 5))
          else if a.write then u.complete cmd 0
          else u.complete cmd 0 (payOf ((List.range a.count).flatMap (fun i =>
            leBytes 4 (c.be (8 + 4 * i) 4)))))) ∧
    ((∀ a ∈ s.lnk.adm, a.age < s.rf LNK_ADM 0 7 0) → exec .adminTimeout s = .next s) ∧
    (∀ l a m cmd, s.lnk.adm = l ++ a :: m → (∀ b ∈ l, b.age < s.rf LNK_ADM 0 7 0) →
      s.rf LNK_ADM 0 7 0 ≤ a.age → a.what = .host cmd →
      Runs .adminTimeout s (fun t => ∃ u : State, noWait (s.bump LNK_ADM_TIMEOUT) u a.seq ∧
        t = u.complete cmd 0x0510)) ∧
    (∀ (p : Fin 4) (rx : RxCell),
      let c := rx.cell
      let r := p.val / 2
      let key := nodeKey r c.node.toNat
      let chk := s.bump LNK_RX_CELLS p
      let o := tget {} s.lnk.tuns key
      let x : Tun := if c.sub = 0 ∧ (c.seq ≠ o.frame ∨ o.next = 0 ∧ o.bad = false) then
        { frame := c.seq } else o
      let bs := (List.range (min 22 (c.be 0 2 % 32))).map (fun i => BitVec.ofNat 8 (c.oct (2 + i)))
      s.portOn p = true → rx.hOk = true → rx.ok = true → c.claim = s.twin.claim →
      ¬ ((s.ring r).st = .closed ∧ (s.ring r).locate = none ∧ s.leftOn r c = some p.val) → c.typ = 0xA9 → c.empty = false →
      Runs (.tunnelSegment p rx) s (fun t => ∃ u : State, u = { chk with lnk := u.lnk } ∧
        (∀ q, q ≠ key → tget {} u.lnk.tuns q = tget {} s.lnk.tuns q) ∧
        u.lnk = { s.lnk with tuns := u.lnk.tuns } ∧
        if c.sub.toNat = x.next ∧ c.seq = x.frame ∧ x.bad = false then
          if c.be 0 2 / 2 ^ 15 % 2 = 1 then
            tget {} u.lnk.tuns key = {} ∧ t = u.out (.frame r c.node.toNat (x.bytes ++ bs))
          else t = u ∧ tget {} u.lnk.tuns key = { x with next := x.next + 1, bytes := x.bytes ++ bs }
        else tget {} u.lnk.tuns key = { (if c.seq = x.frame then x else { frame := c.seq }) with bad := true } ∧
          t = if c.seq = x.frame ∧ x.bad = true then u
            else (u.bump LNK_TUN_DROP).post 0x0506 .info 0)) ∧
    ∀ (d : Fin 4),
      let v := s.startCells d
      let x := v.dir d
      let idle := x.wait = [] ∨ v.acycBlocked d = true ∨ v.portOn d = false ∨ v.now10 < x.txFree
      (idle → exec (.acyclicCellStart d) s = .next v) ∧
      (¬ idle → (∀ b ∈ x.wait, b.cls < 4) →
        ∃ a ∈ x.wait, (a.ahead = true ∨ ∀ b ∈ x.wait, b.ahead = false ∧ a.cls ≤ b.cls) ∧
          Runs (.acyclicCellStart d) s (fun t =>
            if v.cyc.running = true ∧ x.credits = 0 then
              if a.deferred then t = v
              else ∃ u : State, u = { v with lnk := u.lnk } ∧ (∀ e, e ≠ d.val → u.dir e = v.dir e) ∧
                u.dir d = { x with
                  wait := x.wait.map (fun b => if b = a then { b with deferred := true } else b) } ∧
                t = u.bump LNK_ACYC_DEFER d
            else ∃ u : State, u = { v with lnk := u.lnk } ∧ (∀ e, e ≠ d.val → u.dir e = v.dir e) ∧
              u.dir d = { x with
                wait := x.wait.erase a, credits := x.credits - 1, sent := x.sent + 1, rr := (u.dir d).rr } ∧
              t = u.sendCell d a.cell))

/-- R506, R510 to R514, R516 to R520, R530, R531, R533. -/
def Obligations.BackboneTimeIsServoedSlewedAndStepped : Prop :=
  ∀ (s : State),
    let x := s.tm
    let lim : Int := s.rf TIME_FLIM 0 17 0 * 256
    let held (v : Int) : Int := max (-lim) (min lim v)
    let jumped (u t : State) (a : Int) : Prop := ∃ v : State,
      t = v.post 0x0604 .info 0 (payOf (leBytes 8 v.bt.toNat)) ∧ v.bt = u.bt + BitVec.ofInt 64 a ∧
      v = { u with bt := v.bt, tm := v.tm, pwms := v.pwms, cyc := v.cyc, regs := v.regs } ∧
      v.tm.servo = .acquire ∧ v.tm.i = 0 ∧ v.tm.step = none ∧ v.tm.stepFlag = true ∧
      v.tm.out = u.tm.out ∧ v.tm.slewLeft = u.tm.slewLeft ∧
      v.rg TIME_STEPS = satAdd (u.rg TIME_STEPS) 1 ∧ SameRegsBut u v [regKey TIME_STEPS 0] ∧
      v.cyc = { u.cyc with nextT0 := v.cyc.nextT0 } ∧
      (u.cyc.running = false → v.cyc.nextT0 = u.cyc.nextT0) ∧
      (u.cyc.running = true → v.bt.toNat + 200000 + u.rf DISP_CYC_PERIOD 0 19 0 < 2 ^ 64 →
        0 < u.rf DISP_CYC_PERIOD 0 19 0 →
        v.cyc.nextT0.toNat % u.rf DISP_CYC_PERIOD 0 19 0 = 0 ∧ v.bt.toNat + 100000 ≤ v.cyc.nextT0.toNat ∧
        v.cyc.nextT0.toNat < v.bt.toNat + 100000 + u.rf DISP_CYC_PERIOD 0 19 0)
    let steps (u t : State) (a : Int) : Prop :=
      (u.cyc.running = false → jumped u t a) ∧
      (u.cyc.running = true → t = { u with tm := { u.tm with step := some a } })
    let calm (u t : State) : Prop := t = { u with tm := t.tm, pwms := t.pwms } ∧ ∀ m, m < 8 →
      ((t.bt.toNat : Rat) - (t.pwm m).zero) * (1 + u.rateY) =
        ((u.bt.toNat : Rat) - (u.pwm m).zero) * (1 + t.rateY)
    let ended (u v : State) : Prop :=
      (u.tm.slewing = false → v = u) ∧
      (u.tm.slewing = true → ∃ w : State, w = u.complete u.tm.slewCmd 0x0612 ∧ calm w v ∧
        v.tm = { u.tm with slewing := false, slewLeft := 0, slewRate := 0, slewCmd := none })
    let stamp (u : State) (v : Int) : Prop :=
      (v - (u.bt.toNat * 65536 + u.frac.toNat / 65536 : Nat)).natAbs ≤ 8 * 65536
    let asks (u t : State) : Prop :=
      let due := ∀ z, u.tm.ptpReqAt = some z → u.askInterval ≤ (u.bt - z).toNat
      let q := u.tm.ptpSeq + 1
      (¬ due → t = u) ∧ (due → ∃ v, stamp u v ∧ t = { u with
        free := u.free + 1, outputs := u.outputs ++ [.ptp (if u.ptpProfile = 0 then 1 else 2) q 0]
        tm := { u.tm with ptpSeq := q, ptpReq := some (q, v), ptpReqAt := some u.bt } })
    let measured (u t : State) (th : Int) : Prop :=
      let y := u.tm
      let eff : Int := th + y.slewLeft.floor
      let jl := u.rf TIME_JUMP 0 23 0
      (eff.natAbs ≤ jl → ∃ w : State, calm u w ∧ w.tm.theta = some eff ∧ w.tm.mpd = y.mpd ∧
        w.tm.out = held (-(s.rf TIME_SERVO 0 15 0 * eff + y.i)) ∧
        w.tm.i = held (y.i + s.rf TIME_SERVO 0 31 16 * eff) ∧ w.tm.lastAcc = u.bt ∧
        let n := if eff.natAbs < s.rf TIME_LOCK 0 15 0 then y.run + 1 else 0
        (y.servo = .acquire → s.rf TIME_LOCK 0 23 16 ≤ n → w.tm.servo = .locked ∧
          t = w.post 0x0602 .info 0) ∧
        (y.servo = .acquire → n < s.rf TIME_LOCK 0 23 16 → t = w ∧ w.tm.servo = .acquire ∧ w.tm.run = n) ∧
        (y.servo ≠ .acquire → t = w ∧ w.tm.servo =
          if y.servo = .holdover ∨ (y.servo = .refused ∧ y.changed = true) then .acquire else y.servo)) ∧
      (jl < eff.natAbs →
        let again := bitOf (s.rg TIME_CTL) 6 = true ∧ (∀ c, 1 ≤ c → c ≤ 128 → (s.ax c).enabled = false) ∧
          ∃ p, y.refusedTheta = some p ∧ (eff - p).natAbs ≤ jl
        (again → ∃ v : State, steps v t (-eff) ∧ v = { u.bump TIME_REFUSED with tm :=
          { y with theta := some eff, i := 0, refusedTheta := none } }) ∧
        (¬ again → ∃ v : State, t = v.post 0x0601 .warn 0 (payOf (leBytes 8 (BitVec.ofInt 64 eff).toNat)) ∧
          v = { u.bump TIME_REFUSED with tm :=
            { y with theta := some eff, servo := .refused, refusedTheta := some eff, changed := false } }))
    let timed (u t : State) (took : Int) : Prop :=
      let v : State := { u with tm := { u.tm with ptpMs := took, ptpSync := none } }
      if s.timeSrc = 1 ∧ s.twinServo = false then
        measured v t ((took - (s.rg TIME_ASYM).toInt * 256 - x.mpd.toInt * 256) / 65536) else t = v
    let delay (u : State) (twice : Int) : State := { u with tm :=
      { u.tm with mpd := BitVec.ofInt 32 (twice / 512), ptpReq := none, ptpResp := none } }
    (∀ ok m, s.isOn 18 = true →
      (bitOf (s.rg TIME_CTL) 0 = false → exec (.ptpMessage ok m) s = .next (s.bump TIME_PTP_EARLY)) ∧
      (bitOf (s.rg TIME_CTL) 0 = true → exec (.ptpMessage false m) s = .next (s.bump TIME_PTP_BAD)) ∧
      (bitOf (s.rg TIME_CTL) 0 = true →
        let r := s.bump TIME_PTP_RX
        let dr : State := { r with free := s.free + 1 }
        let does (m : PtpMsg) (P : State → Prop) : Prop :=
          Runs (.ptpMessage true m) s (fun t => ∃ u, P u ∧ asks u t)
        does .other (fun u => u = r) ∧
        (∀ gm k c l, does (.announce gm k c l false) (fun u => u = r)) ∧
        (∀ gm k c l, does (.announce gm k c l true) (fun u => u.tm.info = ⟨c, l, k⟩ ∧
          u.tm.gm = gm ∧ (gm = x.gm → u = { r with tm := u.tm } ∧ u.tm.servo = x.servo) ∧
          (gm ≠ x.gm → u.tm.servo = (if x.servo = .free then .free else .acquire) ∧ u.tm.changed = true ∧
            u.tm.out = x.out ∧ u.tm.mpd = x.mpd ∧ ∃ v : State, v = { r with tm := u.tm } ∧
              { u with tm := v.tm } = { v.post 0x0606 .info 0 (payOf (leBytes 8 gm.toNat)) with tm := v.tm }))) ∧
        (∀ q org corr, does (.sync q org corr false) (fun u => ∃ v, stamp s v ∧
          timed dr u (v - corr.toInt - ptpNs org))) ∧
        (∀ q org corr, does (.sync q org corr true) (fun u => ∃ v, stamp s v ∧
          u = { dr with tm := { x with ptpSync := some (q, v - corr.toInt) } })) ∧
        (∀ q org corr, does (.followUp q org corr) (fun u =>
          (∀ a, x.ptpSync = some (q, a) → timed r u (a - corr.toInt - ptpNs org)) ∧
          ((∀ a, x.ptpSync ≠ some (q, a)) → u = r))) ∧
        (∀ q rec corr, does (.delayResp q rec corr) (fun u =>
          (∀ a, x.ptpReq = some (q, a) → s.ptpProfile = 0 →
            u = delay r (x.ptpMs + (ptpNs rec - a - corr.toInt))) ∧
          ((∀ a, x.ptpReq ≠ some (q, a)) ∨ s.ptpProfile ≠ 0 → u = r))) ∧
        (∀ q, does (.pdelayReq q) (fun u => (s.ptpProfile = 0 → u = r) ∧ (s.ptpProfile ≠ 0 →
          ∃ a b, stamp s a ∧ stamp s b ∧ u = { r with free := s.free + 2, outputs := s.outputs ++
            [.ptp 3 q (ptpTime a), .ptp 10 q (ptpTime b)] }))) ∧
        (∀ q rec corr two, does (.pdelayResp q rec corr two) (fun u => ∃ v, stamp s v ∧
          (∀ a, x.ptpReq = some (q, a) → s.ptpProfile ≠ 0 →
            u = if two then { dr with tm := { x with ptpResp := some (q, v - a - corr.toInt, ptpNs rec) } }
              else delay dr (v - a - corr.toInt)) ∧
          ((∀ a, x.ptpReq ≠ some (q, a)) ∨ s.ptpProfile = 0 → u = dr))) ∧
        (∀ q org corr, does (.pdelayFollow q org corr) (fun u =>
          (∀ a b, x.ptpResp = some (q, a, b) → u = delay r (a - corr.toInt - (ptpNs org - b))) ∧
          ((∀ a b, x.ptpResp ≠ some (q, a, b)) → u = r))))) ∧
    (x.servo = .locked → Runs .holdoverTimeout s (fun t => ∃ u : State, t = u.post 0x0603 .warn 0 ∧
      u = { s with bt := u.bt, frac := u.frac, tm := u.tm } ∧ u.tm.servo = .holdover ∧
      u.tm.out = x.out ∧ u.tm.i = x.i ∧ s.bt ≤ u.bt)) ∧
    (∀ d : Desc, let a := d.les 16 8
      Takes (.timeSlew d) s (fun u k t =>
        (d.le 24 1 < 1 ∨ 100 < d.le 24 1 → t = u.complete k 0x0611) ∧
        (1 ≤ d.le 24 1 → d.le 24 1 ≤ 100 → ∃ v : State, ended u v ∧
          (a = 0 → t = { v with tm := { v.tm with changed := true } }.complete k 0) ∧
          (a ≠ 0 → calm v t ∧ t.tm = { v.tm with
            slewing := true, slewLeft := a, changed := true, slewCmd := k,
            slewRate := if 0 < a then d.le 24 1 else -(d.le 24 1 : Int) }))) ∧
      Takes (.timeStep d) s (fun u k t =>
        let b := if bitOf d.aux 0 then u.tm.theta.map (fun e => -e) else some a
        (b = none ∨ (∃ c, 1 ≤ c ∧ c ≤ 128 ∧ (u.ax c).enabled = true) → t = u.complete k 0x0610) ∧
        (∀ z, b = some z → (∀ c, 1 ≤ c → c ≤ 128 → (u.ax c).enabled = false) →
          ∃ v : State, ended u v ∧ steps (v.complete k 0) t z))) ∧
    (x.slewing = true → Runs .slewComplete s (fun t => ∃ v u : State, t = u.complete x.slewCmd 0 ∧
      v = { s with bt := v.bt, frac := v.frac, tm := { x with slewLeft := v.tm.slewLeft } } ∧ s.bt ≤ v.bt ∧
      calm v u ∧ u.tm = { x with slewing := false, slewLeft := 0, slewRate := 0, slewCmd := none })) ∧
    (∀ a, x.step = some a → s.cyc.running = false ∨ s.cyc.phase = .sill →
      Runs .timeStepApply s (fun t => jumped s t a)) ∧
    (s.isOn 1 = true → Runs .btWrap s (fun t => ∃ u : State,
      let hi : W32 := (u.bt >>> 32).setWidth 32
      t = u.post 0x0605 .info 0 (payOf (leBytes 4 hi.toNat)) ∧ u.tm.wrapHi = hi ∧
      u = { s with bt := u.bt, frac := u.frac, tm := u.tm } ∧
      (x.wrapHi ≠ (s.bt >>> 32).setWidth 32 → u.bt = s.bt) ∧
      (x.wrapHi = (s.bt >>> 32).setWidth 32 → s.bt.toNat / 2 ^ 32 + 1 < 2 ^ 32 →
        u.bt.toNat = (s.bt.toNat / 2 ^ 32 + 1) * 2 ^ 32))) ∧
    (s.isOn 1 = true → exec .timeBtLoRead s = .next { s with
      tm := { x with btHi := (s.bt >>> 32).setWidth 32 }, outputs := s.outputs ++ [.bar0 (s.bt.setWidth 32)] }) ∧
    (s.isOn 1 = true → Runs .timeInfoBroadcast s (fun t =>
      t = { s with bt := t.bt, frac := t.frac, tm := t.tm, lnk := t.lnk } ∧ t.lnk.seq = s.lnk.seq + 1 ∧
      t.tm.infoAt = t.bt ∧ (x.infoSent ≠ some s.timeInfo → t.bt = s.bt) ∧
      let c : Cell := ⟨0xA8, 255, 0, 0, s.lnk.seq, 0, 0x18, s.timeInfo, 0, 0⟩
      ∀ d, d < 4 → t.dir d = if s.dirActive d then
          { s.dir d with wait := (s.dir d).wait ++ [{ cls := 0, cell := c }] } else s.dir d))

/-- R539, R543 to R560, R564. -/
def Obligations.TwinUnitsJoinMirrorAndSwitch : Prop :=
  ∀ (s : State),
    let x := s.twin
    let chk := s.bump LNK_RX_CELLS 4
    let sound (rx : RxCell) (ty : BitVec 8) : Prop := s.portOn 4 = true ∧ rx.hOk = true ∧ rx.ok = true ∧
      rx.cell.typ = ty
    (∀ (rx : RxCell) (b : Bool) (tbs : List NodeTable), s.portOn 4 = false →
      ∀ row ∈ [Instr.twHeartReceive ⟨rx, tbs⟩, .twDescReceive rx, .twDigestReceive rx, .twCopyReceive rx b,
        .twSwitchReceive rx], exec row s = .next s) ∧
    (∀ (rx : RxCell) (tb : NodeTable), sound rx 0xB0 → x.st ≠ .off → bitOf (s.rg TWIN_CTL) 1 = true →
      let r := tb.ring.val
      let n := tb.nodes.length
      Runs (.twHeartReceive ⟨rx, [tb]⟩) s (fun t =>
        (t.ring r).st = (if tb.closed then .closed else .twoEnded) ∧ (t.ring r).nodes = n ∧
        (t.ring r).max = tb.max.toNat ∧ (t.ring r).min = tb.min.toNat ∧ t.ring (1 - r) = s.ring (1 - r) ∧
        (∀ k i, tb.nodes[k]? = some i → (t.ring r).node (k + 1) =
          { id := i.id, caps := i.caps, prep := i.prep, fwd := i.fwd, second := true }) ∧
        (n = 0 → (t.ring r).echo = none) ∧
        (0 < n → ∃ at_, (t.ring r).echo = some ⟨1, at_, true, .tail⟩ ∧
          (t.ring r).echoLeft = (List.range (n - 1)).map (fun k => (k + 2, true))))) ∧
    (∀ (rx : RxCell) (tbs : List NodeTable), sound rx 0xB0 → x.st ≠ .off →
      tbs = [] ∨ bitOf (s.rg TWIN_CTL) 1 = false →
      let c := rx.cell
      let came := s.bt.setWidth 32 - BitVec.ofNat 32 (c.be 0 4)
      let rep := BitVec.ofNat 32 (c.be 4 4)
      let left := if 0 ≤ (came + (rep - x.lastTx)).toInt then x.lastTx else x.prevTx
      let th : Int := (came.toInt - (rep - left).toInt) / 2
      Runs (.twHeartReceive ⟨rx, tbs⟩) s (fun t => ∃ w : State,
        w.twin.partner = c.claim ∧ w.twin.partnerOk = true ∧ w.twin.hbSeen = true ∧ w.twin.misses = 0 ∧
        w.twin.cellSeen = false ∧
        w.twin.theta = th ∧ w.twin.pcfg.toNat = c.be 8 4 ∧ w.twin.partnerSt.toNat = c.oct 14 % 8 ∧
        w.twin.st = x.st ∧ w.twin.claim = x.claim ∧ w.twin.lastRx = s.bt.setWidth 32 ∧
        (if x.st = .joining ∨ x.st = .standby ∨ s.timeSrc = 2 then
          w = ({ chk with twin := w.twin }).measure th else w = { chk with twin := w.twin }) ∧
        (x.st ≠ .joining ∨ w.tm.servo ≠ .locked → t =
          if x.st = .active ∧ c.oct 14 % 8 = 2 ∧ x.partnerSt ≠ 2 then w.sendCopies else w) ∧
        (x.st = .joining → w.tm.servo = .locked →
          (c.claim < x.claim → t.twin.st = .active ∧ t.twin.cause = 0) ∧
          (c.claim = x.claim → bitOf (s.rg TWIN_CTL) 1 = false → t.twin.st = .active ∧ t.twin.cause = 0) ∧
          (c.claim = x.claim → bitOf (s.rg TWIN_CTL) 1 = true → ∃ v : State, t = v.post 0x0704 .warn 0 (payOf [1]) ∧
            v = { w with twin := v.twin, tm := v.tm } ∧ v.twin = { w.twin with st := .refused, cause := 1 }) ∧
          (x.claim < c.claim → c.be 8 4 ≠ w.cfgDigest.toNat → ∃ v : State,
            t = v.post 0x0704 .warn 0 (payOf [2]) ∧
            v = { w with twin := v.twin, tm := v.tm } ∧ v.twin = { w.twin with st := .refused, cause := 2 }) ∧
          (x.claim < c.claim → c.be 8 4 = w.cfgDigest.toNat → c.oct 14 % 8 = 3 ∨ c.oct 14 % 8 = 1 →
            ∃ v : State, t = v.post 0x0709 .info 0 ∧ v = { w with twin := v.twin, tm := v.tm } ∧
              v.twin = { w.twin with st := .standby, cause := 0, mseq := BitVec.ofNat 16 (c.be 12 2) }) ∧
          (x.claim < c.claim → c.be 8 4 = w.cfgDigest.toNat → c.oct 14 % 8 ≠ 3 → c.oct 14 % 8 ≠ 1 → t = w)))) ∧
    (x.hbSeen = false → x.missDone = false → x.partnerOk = true → s.cyc.running = true →
      x.st = .standby ∨ x.st = .active → Runs .heartbeatMiss s (fun t => ∃ u : State,
        u = { s with bt := u.bt, frac := u.frac, tm := u.tm, regs := u.regs, twin :=
          { x with misses := x.misses + 1, missDone := true } } ∧
        u.rg TWIN_HB_MISS = satAdd (s.rg TWIN_HB_MISS) 1 ∧ SameRegsBut s u [regKey TWIN_HB_MISS 0] ∧
        if x.misses + 1 < s.rf TWIN_CTL 0 7 4 then t = u
        else if x.st = .active then ∃ v : State, t = v.post 0x0702 .warn 0 ∧
          v = { u with twin := { u.twin with partnerOk := false } }
        else if x.cellSeen = true then ∃ v : State, t = v.post 0x0705 .severe 0 ∧
          v = { u with twin := { u.twin with partnerOk := false, st := .detached, cause := 7 }, tm := v.tm }
        else if bitOf (s.rg TWIN_CTL) 12 = true then t = { u with twin := { u.twin with
          partnerOk := false, switch := some (s.cyc16 + 1, true, BitVec.ofNat 8 (min 255 (x.partner.toNat + 1)), none) } }
        else t = u)) ∧
    (x.st = .joining → x.otherSeen = false → Runs .twinJoinTimeout s (fun t =>
      t = { s with bt := t.bt, frac := t.frac, tm := t.tm, twin :=
        { x with partnerOk := false, st := .active, cause := 0 } } ∧ s.bt ≤ t.bt)) ∧
    (∀ (op : BitVec 8) (d : Desc) (m seq : BitVec 16) (cell : Nat → RxCell),
      x.st = .standby → (∀ k, k < 3 → sound (cell k) 0xB1 ∧ (cell k).cell.seq = m ∧
        (cell k).cell.sub.toNat = k ∧ (cell k).cell.payload = octets (twDescPart k d op seq)) →
      let ahead := (seq - s.cyc16).toNat
      let late := ahead = 0 ∨ 2 ^ 15 ≤ ahead ∨ (ahead = 1 ∧ s.cyc.running = true ∧
        s.cyc.nextT0 < s.bt + BitVec.ofNat 64 (s.rf DISP_CYC_HINGE 0 13 0))
      Runs (.twDescReceive (cell 0)) s (fun s1 => Runs (.twDescReceive (cell 1)) s1 (fun s2 =>
        s2.twin = { x with part := s2.twin.part } ∧ Runs (.twDescReceive (cell 2)) s2 (fun t =>
          (m = x.mseq + 1 → ¬ late → t.twin = { x with
            part := none, mseq := m, queue := x.queue ++ [⟨m, seq, op, d⟩] } ∧ t.pending = s.pending) ∧
          (m ≠ x.mseq + 1 → t.twin.st = .diverged ∧ t.twin.cause = 6 ∧ t.twin.queue = []) ∧
          (m = x.mseq + 1 → late → t.twin.st = .diverged ∧ t.twin.cause = 5 ∧ t.twin.queue = []))))) ∧
    (∀ rx : RxCell, sound rx 0xB3 → rx.cell.seq = s.cyc16 → x.st = .active ∨ x.st = .standby →
      rx.cell.oct 1 % 32 = 1 →
      let c := rx.cell.oct 0
      let theirs := BitVec.ofNat 32 (rx.cell.be 4 4)
      let n := tget 0 x.mism c + 1
      Runs (.twDigestReceive rx) s (fun t => match tget none x.own c with
        | none => t = if c ∈ x.synced then chk.bump TWIN_DIG_SKIP else chk
        | some mine => ∃ u : State, u = { s with twin := u.twin, regs := u.regs } ∧
          tget none u.twin.own c = none ∧ u.twin.st = x.st ∧ u.twin.synced = x.synced ∧
          (mine = theirs → t = u ∧ tget 0 u.twin.mism c = 0 ∧ u.regs = chk.regs) ∧
          (mine ≠ theirs → u.rg TWIN_DIG_MISM = satAdd (s.rg TWIN_DIG_MISM) 1 ∧ tget 0 u.twin.mism c = n ∧
            if n ≤ s.rf TWIN_CTL 0 11 8 then t = u
            else ∃ v : State, t = v.post 0x0703 .severe c (payOf [4]) ∧
              v = { u with twin := v.twin, tm := v.tm } ∧
              if x.st = .standby then v.twin.st = .diverged ∧ v.twin.cause = 4
              else v.twin.st = .active ∧ tget 0 v.twin.mism c = 0))) ∧
    (∀ (rx : RxCell) (en : Bool), sound rx 0xB4 → x.st = .standby →
      let c := rx.cell
      let n := c.oct 0
      let w := c.be 2 2
      let v (i : Nat) : W24 := BitVec.ofNat 24 (c.be (6 + 3 * i) 3)
      Runs (.twCopyReceive rx en) s (fun t => t.twin = { x with copied := t.twin.copied } ∧
        (c.sub = 0 → s.isOn 7 = true → ∀ i, i < 6 → hostWord (s.prof n) (w + i) = true →
          n * 1024 + w + i ∉ x.written → t.drawer n (w + i) = v i) ∧
        (c.sub = 1 → t = { chk with cams := t.cams } ∧ (∀ k, k ≠ n → t.cam k = s.cam k) ∧
          (∀ i, i < 6 → w + i < 3072 → (w + i) % 3 ≠ 2 → (t.cam n).copyWord (w + i) = v i) ∧
          ∀ i, i < 6 → w + i = 3072 → (t.cam n).n = (v i).toNat) ∧
        (c.sub = 2 → t = { chk with mss := t.mss } ∧ (∀ k, k ≠ n → t.ms k = s.ms k) ∧
          ∀ i, i < 6 → w + i < 12 → (w + i) % 3 ≠ 2 → (t.ms n).copyWord (w + i) = v i) ∧
        (c.sub = 2 → w = 12 → (t.ms n).startBt = (v 1).extractLsb' 0 8 ++ v 0 ∧
          (t.ms n).live.valid = true))) ∧
    (∀ rx : RxCell, sound rx 0xB5 → x.st = .standby → exec (.twSwitchReceive rx) s = .next { chk with twin :=
      { x with switch := some (BitVec.ofNat 16 (rx.cell.be 0 2), true, BitVec.ofNat 8 (rx.cell.oct 2), none) } }) ∧
    (∀ d : Desc,
      Takes (.twinSwitch d) s (fun u k t =>
        let ok := u.twin.st = .active ∧ u.twin.partnerOk = true ∧ u.twin.partnerSt = 2 ∧
          u.twin.pSynced = (allCtxs.filter u.twinned).length ∧ u.twin.switch = none
        (¬ ok → t = u.complete k 0x0711) ∧ (ok → t.twin = { u.twin with switch := t.twin.switch } ∧
          ∃ seq, t.twin.switch = some (seq, false, BitVec.ofNat 8 (min 255 (u.twin.claim.toNat + 1)), k) ∧
            (u.portOn 4 = true → u.silent = false → ∃ c : Cell, t.outputs = u.outputs ++ [.twin c.sealed] ∧
              c.typ = 0xB5 ∧ c.be 0 2 = seq.toNat ∧ c.oct 2 = min 255 (u.twin.claim.toNat + 1) ∧
              c.claim = u.twin.claim))) ∧
      Takes (.twinClaim d) s (fun u k t =>
        let v := bitsOf d.aux 7 0
        let ok := 1 ≤ v ∧ v ≤ 254 ∧ (u.twin.st = .off ∨ u.twin.st = .joining ∨ u.twin.st = .refused)
        (¬ ok → t = u.complete k 0x0711) ∧
        (ok → ∃ w : State, t = w.complete k 0 ∧ w = { u with twin := w.twin } ∧
          w.twin = { u.twin with claim := BitVec.ofNat 8 v })) ∧
      Takes (.twinRejoin d) s (fun u k t =>
        let ok := u.twin.st = .refused ∨ u.twin.st = .diverged ∨ u.twin.st = .detached
        (¬ ok → t = u.complete k 0x0711) ∧ (ok → ∃ w : State, t = w.complete k 0 ∧
          w = { u with twin := w.twin, tm := w.tm } ∧ w.twin.st = .joining ∧ w.twin.cause = 0 ∧
          w.twin.joinAt = u.bt ∧ w.twin.synced = [] ∧ w.twin.queue = [] ∧ w.twin.otherSeen = false ∧
          w.twin.claim = u.twin.claim))) ∧
    (x.st = .active ∨ x.st = .standby → (∀ r, r < 2 → (s.ring r).nodes ≤ 254) → Runs .mixPoll s (fun t => t.twin = { x with mixAt := t.bt } ∧
      t = { s with bt := t.bt, frac := t.frac, tm := t.tm, twin := t.twin, lnk := t.lnk } ∧
      ∃ l, t.lnk.adm = s.lnk.adm ++ l ∧ l.length = ((List.range 4).flatMap s.served).length ∧
        ∀ a ∈ l, a.what = .mixCount ∧ a.write = false ∧ a.count = 1 ∧ a.age = 0 ∧
          ∃ d, d < 4 ∧ a.ring = d / 2 ∧ a.node ∈ s.served d))

/-- R480 to R488, R499. -/
def Obligations.RingsTakeInAndEnumerate : Prop :=
  ∀ (s : State),
    let other (r : Nat) (u t : State) : Prop := ∀ q, q ≠ r → t.ring q = u.ring q
    let intake (r : Nat) (u t : State) : Prop := t = { u with rings := t.rings } ∧ other r u t ∧
      (t.ring r).st = .intake ∧ (t.ring r).nodes = 0 ∧ (t.ring r).joins = [] ∧ (t.ring r).tbl = [] ∧
      (t.ring r).joinAt = u.bt ∧ (t.ring r).locate = none ∧ (t.ring r).enumSeq = (u.ring r).enumSeq
    let probes (r dir : Nat) (u t : State) : Prop :=
      t = { u with rings := t.rings, outputs := t.outputs, regs := t.regs, lnk := t.lnk } ∧ other r u t ∧
      (t.ring r).probeAt = u.nextSlotBt (2 * r + dir) ∧ (t.ring r).probeDir = dir ∧ (t.ring r).st = .enum ∧
      if u.portOn (2 * r + dir) = true ∧ u.silent = false then ∃ c : Cell,
        t.outputs = u.outputs ++ [.cell (2 * r + dir) c.sealed] ∧ c.typ = 0xA8 ∧ c.node = 255 ∧ c.sub = 0x12 ∧
        c.oct 0 = 0 ∧ c.oct 1 = dir ∧ c.oct 2 = (t.ring r).nodes % 256 ∧ c.seq = (t.ring r).enumSeq ∧
        c.claim = u.twin.claim ∧ t.lnk = { u.lnk with dirs := t.lnk.dirs } ∧
        (∀ e, t.dir e = { u.dir e with txFree := (t.dir e).txFree }) ∧ t.rg LNK_TX_CELLS (2 * r + dir) = satAdd (u.rg LNK_TX_CELLS (2 * r + dir)) 1
      else t.outputs = u.outputs ∧ t.regs = u.regs ∧ t.lnk = u.lnk
    let enum (r : Nat) (u t : State) : Prop := probes r 0 u t ∧ (t.ring r).nodes = (u.ring r).joins.length ∧
      (t.ring r).enumSeq = (u.ring r).enumSeq + 1 ∧ (t.ring r).hop0 = none ∧ (t.ring r).hop1 = none ∧
      (t.ring r).joins = (u.ring r).joins
    let judged (r : Nat) (u t : State) : Prop :=
      let y := u.ring r
      let closed := ∃ h, y.hop0 = some (h, true)
      let h0 := match y.hop0 with
        | some (h, false) => h
        | _ => 0
      let h1 := match y.hop1 with
        | some (h, true) => h
        | _ => 0
      let ok := y.hop0 = some (y.nodes, true) ∨ (¬ closed ∧ h0 + h1 = y.nodes)
      (¬ ok → ∃ v : State, t = v.post 0x0534 .warn 0 ∧ intake r u v) ∧
      (ok → 0 < y.nodes → y.nodes ≤ 254 → other r u t ∧ (t.ring r).st = .enum ∧
        ((t.ring r).foundClosed = true ↔ closed) ∧ (t.ring r).enumLeft = y.order ∧
        (t.ring r).max = (if (t.ring r).foundClosed then y.nodes else h0) ∧
        (t.ring r).min = (if (t.ring r).foundClosed then 1 else y.nodes + 1 - h1) ∧
        t = { u with rings := t.rings, lnk := t.lnk } ∧
        ∃ l, t.lnk.adm = u.lnk.adm ++ l ∧ l.map Adm.node = y.order ∧
          ∀ a ∈ l, a.ring = r ∧ a.write = false ∧ a.count = 1 ∧ a.what = .enumState)
    (s.isOn 1 = true → let r := s.rf RING_SEL 0 0 0
      let y := s.ring r
      (s.manages = false → exec .ringCmdIntake s = .next s) ∧
      (s.manages = true → y.st = .off → s.linkUp (2 * r) = true ∨ s.linkUp (2 * r + 1) = true →
        Runs .ringCmdIntake s (intake r s)) ∧
      (y.st = .off → s.linkUp (2 * r) = false → s.linkUp (2 * r + 1) = false →
        exec .ringCmdIntake s = .next s) ∧
      (s.manages = true → y.st = .closed ∨ y.st = .twoEnded → Runs .ringCmdIntake s (fun t =>
        let inUse := ∃ c, s.ctxEn c = true ∧ ∃ n k, s.farOf c = some (r, n, k)
        (inUse → t = s.post 0x0538 .warn 0) ∧ (¬ inUse → intake r s t))) ∧
      (y.st = .intake ∨ y.st = .enum ∨ y.st = .measure → exec .ringCmdIntake s = .next s) ∧
      (y.st ≠ .intake → exec .ringCmdClose s = .next s) ∧
      (y.st = .intake → Runs .ringCmdClose s (enum r s)) ∧
      (y.st ≠ .twoEnded → exec .ringCmdRestore s = .next s) ∧
      (y.st = .twoEnded → Runs .ringCmdRestore s (fun t => t = { s with rings := t.rings } ∧ other r s t ∧
        t.ring r = { y with restoreReq := true }))) ∧
    (∀ r : Fin 2, let y := s.ring r
      (y.st = .off → y.begun = false → bitOf (s.rg RING_CTL r) 0 = true → s.manages = true →
        s.linkUp (2 * r.val) = true ∨ s.linkUp (2 * r.val + 1) = true →
        Runs (.autoIntake r) s (fun t => intake r { s with bt := t.bt, frac := t.frac, tm := t.tm } t ∧
          s.bt ≤ t.bt ∧ s.boot.releaseAt + 30000000 ≤ t.bt)) ∧
      (y.st ≠ .off ∨ y.begun = true ∨ bitOf (s.rg RING_CTL r) 0 = false → exec (.autoIntake r) s = .next s) ∧
      (y.st = .intake → Runs (.intakeQuietExpire r) s (fun t =>
        enum r { s with bt := t.bt, frac := t.frac, tm := t.tm } t ∧ s.bt ≤ t.bt)) ∧
      (y.st ≠ .intake → exec (.intakeQuietExpire r) s = .next s) ∧
      (∀ assoc, y.st ≠ .enum → exec (.enumProbeTimeout r assoc) s = .next s) ∧
      ∀ assoc, y.st = .enum → y.enumLeft = [] → Runs (.enumProbeTimeout r assoc) s (fun t =>
        ∃ u : State, u = { s with bt := u.bt, frac := u.frac, tm := u.tm } ∧
          y.probeAt + BitVec.ofNat 64 (2 * y.loopMax + 10000) ≤ u.bt ∧
          (y.probeDir = 0 → probes r 1 u t) ∧ (y.probeDir ≠ 0 → judged r u t))) ∧
    (∀ (p : Fin 4) (rx : RxCell), s.portOn p = true → knownType rx.cell.typ = true → rx.hOk = true →
      rx.ok = true →
      let c := rx.cell
      let r := p.val / 2
      let y := s.ring r
      let chk := s.bump LNK_RX_CELLS p
      let q := BitVec.ofNat 16 (c.be 14 2)
      let last := if p.val % 2 = 0 then y.admAt0 else y.admAt1
      let known := ∃ j ∈ y.joins, j.nonce = q
      let soon := ∃ a, last = some a ∧ (s.bt - a).toNat < 50000
      let heard (t : State) : Prop := other r s t ∧ (t.ring r).joinAt = s.bt ∧ (t.ring r).st = .intake
      (c.typ = 0xA8 → c.sub = 0x10 → y.st = .intake → Runs (.joinReceive p rx) s (fun t => heard t ∧
        (known → t = { chk with rings := t.rings } ∧ (t.ring r).joins = y.joins) ∧
        (¬ known → soon → (t.ring r).joins = y.joins ∧ t.rg (RING_INTAKE_DEFERRED (p.val % 2)) r =
          satAdd (s.rg (RING_INTAKE_DEFERRED (p.val % 2)) r) 1 ∧ t.outputs = s.outputs) ∧
        (¬ known → ¬ soon → c.oct 13 ≠ 2 ∨ 254 ≤ y.joins.length → ∃ u : State,
          t = u.post 0x0533 .warn 0 (payOf (leBytes 4 (c.be 0 4))) ∧ (u.ring r).joins = y.joins ∧
          u.rg RING_REFUSED r = satAdd (s.rg RING_REFUSED r) 1 ∧
          u = { s with rings := u.rings, regs := u.regs }) ∧
        (¬ known → ¬ soon → c.oct 13 = 2 → y.joins.length < 254 → (t.ring r).joins = y.joins ++
            [⟨BitVec.ofNat 32 (c.be 0 4), BitVec.ofNat 32 (c.be 4 4), BitVec.ofNat 32 (c.be 8 4),
              BitVec.ofNat 8 (c.oct 12), q⟩] ∧
          (if p.val % 2 = 0 then (t.ring r).admAt0 else (t.ring r).admAt1) = some s.bt ∧
          t.rg RING_JOINS r = satAdd (s.rg RING_JOINS r) 1 ∧
          (s.silent = false → ∃ a : Cell, t.outputs = s.outputs ++ [.cell p a.sealed] ∧ a.typ = 0xA8 ∧
            a.node = 255 ∧ a.sub = 0x11 ∧ a.be 0 4 = c.be 0 4 ∧ a.be 14 2 = q.toNat)))) ∧
      (c.typ ≠ 0xA8 ∨ c.sub ≠ 0x10 ∨ y.st ≠ .intake → exec (.joinReceive p rx) s = .next chk) ∧
      let mine := c.typ = 0xA8 ∧ c.claim = s.twin.claim
      ∀ assoc, (¬ mine ∨ c.sub ≠ 0x12 ∨ y.st ≠ .enum ∨ c.seq ≠ y.enumSeq ∨ c.oct 1 ≠ y.probeDir →
          exec (.enumProbeReturn p rx assoc) s = .next chk) ∧
        (mine → c.sub = 0x12 → y.st = .enum → c.seq = y.enumSeq → c.oct 1 = y.probeDir →
          Runs (.enumProbeReturn p rx assoc) s (fun t => ∃ u : State, u = { chk with rings := u.rings } ∧
            other r s u ∧ let second := decide (p.val % 2 = 1)
            let lap := BitVec.ofNat 32 ((s.bt - y.probeAt).toNat * 256)
            (y.probeDir = 0 → u.ring r = { y with hop0 := some (c.oct 0, second), loopCw :=
              if second then lap else y.loopCw } ∧ probes r 1 u t) ∧
            (y.probeDir ≠ 0 → u.ring r = { y with hop1 := some (c.oct 0, second), loopCcw :=
              if second then y.loopCcw else lap } ∧ judged r u t))))

/-- R489 to R501, R561. -/
def Obligations.RingsMeasureBreakAndHeal : Prop :=
  ∀ (s : State),
    let other (r : Nat) (u t : State) : Prop := ∀ q, q ≠ r → t.ring q = u.ring q
    let broken (r : Nat) (k0 k1 : Option Nat) (u t : State) : Prop := other r u t ∧
      t.ring r = { u.ring r with
        locate := some ⟨u.bt, k0, k1⟩, unfold := none, unfolded := false, gapSince := none } ∧
      t.rg RING_BREAKS r = satAdd (u.rg RING_BREAKS r) 1 ∧
      ∃ v : State, v = { u with regs := v.regs } ∧ SameRegsBut u v [regKey RING_BREAKS r] ∧
        t.host = (v.post 0x0530 .warn 0 (payOf [r])).host ∧ t.cyc = u.cyc ∧ t.twin = u.twin
    let found (r : Nat) (second : Bool) (val : Nat) (u t : State) : Prop := ∀ l, (u.ring r).locate = some l →
      let y := u.ring r
      let m : Locate := if second then { l with min := some val } else { l with max := some val }
      other r u t ∧ match m.max, m.min with
        | some a, some b => (t.ring r).st = .twoEnded ∧ (t.ring r).max = a ∧ (t.ring r).min = b ∧
            (t.ring r).locate = none ∧ (t.ring r).nodes = y.nodes ∧ ∀ k, 1 ≤ k → k ≤ y.nodes →
              ((t.ring r).node k).lost = ((y.node k).lost ||
                decide (a < k ∧ k < b) && !u.partnerReaches r k)
        | _, _ => t = { u with rings := t.rings } ∧ t.ring r = { y with locate := some m }
    let polled (r : Nat) (u t : State) : Prop := ∃ l, t.lnk.adm = u.lnk.adm ++ l ∧
      l.map Adm.node = [(u.ring r).max, (u.ring r).min].filter (fun n => 1 ≤ n ∧ n ≤ (u.ring r).nodes) ∧
      ∀ a ∈ l, a.ring = r ∧ a.write = false ∧ a.what = .gap
    (∀ (p : Fin 4) (rx : RxCell), s.portOn p = true → knownType rx.cell.typ = true → rx.hOk = true →
      rx.ok = true →
      let c := rx.cell
      let r := p.val / 2
      let y := s.ring r
      let chk := s.bump LNK_RX_CELLS p
      let mine := c.typ = 0xA8 ∧ c.claim = s.twin.claim
      (y.echo = none → exec (.echoResponse p rx) s = .next chk) ∧
      (∀ e, y.echo = some e → (¬ mine ∨ c.sub ≠ 0x93 ∨ c.node.toNat ≠ e.node →
          exec (.echoResponse p rx) s = .next chk) ∧
        (mine → c.sub = 0x93 → c.node.toNat = e.node → Runs (.echoResponse p rx) s (fun t => other r s t ∧
          let rt : W32 := BitVec.ofNat 32 ((s.bt - e.at_).toNat * 256) -
            (BitVec.ofNat 32 (c.be 4 4) - BitVec.ofNat 32 (c.be 0 4))
          let pc (k : Nat) : W32 := if k = 0 then 0 else tget 0 (t.ring r).pdCw k
          (e.second = false → tget 0 (t.ring r).pdCw e.node = rt >>> 1) ∧
          (e.second = true → y.foundClosed = false → tget 0 (t.ring r).pdCcw e.node = rt >>> 1) ∧
          (∀ n b l, y.echoLeft = (n, b) :: l → (t.ring r).st = y.st ∧ (t.ring r).echoLeft = l ∧
            (t.ring r).echo = some ⟨n, s.nextSlotBt (2 * r + b2n b), b, e.what⟩) ∧
          (e.what = .tail → 0 < e.node → e.node < 255 → ((t.ring r).node e.node).pd = rt >>> 1 ∧
            ((t.ring r).node e.node).second = (y.node e.node).second ∧
            (∃ a, t.lnk.adm = s.lnk.adm ++ [a] ∧ a.ring = r ∧ a.node = e.node ∧ a.write = true ∧
              a.what = .plain) ∧
            ∃ b ∈ (t.dir (s.dirOf r e.node)).wait, b.cell.sub = 2 ∧ b.cell.be 8 4 = (rt >>> 1).toNat ∧
              b.cell.be 0 4 = r * 2 ^ 24 + e.node * 2 ^ 16 + 0x0015) ∧
          (y.echoLeft = [] → (t.ring r).echo = none ∧
            (e.what = .tail → (t.ring r).st = y.st) ∧
            (e.what = .measure → (t.ring r).st = (if y.foundClosed then .closed else .twoEnded) ∧
              (y.foundClosed = true → ∀ k, k ≤ y.nodes → tget 0xFFFFFFFF (t.ring r).seg (k + 1) =
                (if k = y.nodes then y.loopCw else pc (k + 1)) - pc k)) ∧
            (e.what = .heal → (t.ring r).st = .closed ∧ (t.ring r).unfold = none ∧ ∃ u : State,
              t = u.post 0x0532 .info 0 ∧
              u.rg RING_RESTORES r = satAdd (s.rg RING_RESTORES r) 1 ∧
              u = { s with rings := u.rings, regs := u.regs }))))) ∧
      (¬ mine ∨ c.sub ≠ 0x14 ∨ y.locate = none → exec (.locateReturn p rx) s = .next chk) ∧
      (mine → c.sub = 0x14 → Runs (.locateReturn p rx) s (fun t =>
        if p.val % 2 = 0 then found r false (c.oct 0) chk t else found r true (c.oct 1) chk t))) ∧
    ∀ r : Fin 2, let y := s.ring r
      (y.st = .closed → y.markSeen = false → s.cyc.running = true → s.dirActive (2 * r.val) = true →
        y.unfold ≠ some s.cyc16 → Runs (.cycleMarkTimeout r) s (fun t => ∃ u : State,
          u = { s with bt := u.bt, frac := u.frac, tm := u.tm } ∧ s.bt ≤ u.bt ∧
          s.cyc.t0 + BitVec.ofNat 64 (y.loopCw.toNat / 256 + 1000) ≤ u.bt ∧
          (y.locate ≠ none ∨ s.manages = false → t = u) ∧
          (y.locate = none → s.manages = true → broken r none none u t))) ∧
      (y.st ≠ .closed ∨ y.markSeen = true → exec (.cycleMarkTimeout r) s = .next s) ∧
      (∀ second l, y.locate = some l → (if second then l.min else l.max) = none →
        Runs (.locateTimeout r second) s (fun t => ∃ u : State,
          u = { s with bt := u.bt, frac := u.frac, tm := u.tm } ∧
          l.at_ + BitVec.ofNat 64 (2 * y.loopMax + 10000) ≤ u.bt ∧
          found r second (if second then y.nodes + 1 else 0) u t)) ∧
      (∀ second, y.locate = none → exec (.locateTimeout r second) s = .next s) ∧
      (y.st = .twoEnded → y.locate = none → y.unfold = none → s.manages = true → y.nodes ≤ 254 →
        Runs (.restorePoll r) s (fun t => other r s t ∧ polled r s t ∧ (t.ring r).pollAt = t.bt ∧
          y.pollAt + 100000000 ≤ t.bt ∧
          let asked := ∃ a, y.gapSince = some a ∧
            s.rf RING_TIME r 23 16 * 100000000 ≤ (t.bt - a).toNat ∧
            (bitOf (s.rg RING_CTL r) 2 = true ∨ y.restoreReq = true)
          (asked → (t.ring r).unfold ≠ none) ∧ (¬ asked → (t.ring r).unfold = none) ∧
          t = { s with bt := t.bt, frac := t.frac, tm := t.tm, rings := t.rings, lnk := t.lnk })) ∧
      (y.st ≠ .twoEnded ∨ y.locate ≠ none ∨ y.unfold ≠ none ∨ s.manages = false → exec (.restorePoll r) s = .next s)

/-- R571 to R577, R591, R593. -/
def Obligations.BrakesReleaseOnlyOnBothGrants : Prop :=
  ∀ (s : State) (b : Bool), s.isOn 2 = true →
    let g := s.guard b
    let zone (z : BitVec 8) : Prop := z &&& (s.gA.demand ||| s.gB.demand ||| g.discrep) ≠ 0
    let near (n c : Nat) : Prop := n < 8 ∧ c ≠ 0 ∧ c = s.ctxOfNear n ∧ bitOf (g.par (0x10 + n)) 0 = true
    let far (c : Nat) : Prop := 1 ≤ c ∧ c ≤ 128 ∧ s.isNear c = false ∧ bitOf (g.par (0x100 + c)) 0 = true
    let gone (c : Nat) : Prop := (∃ n, near n c ∧ (zone ((g.par (0x10 + n)).extractLsb' 8 8) ∨
        c ∈ g.sbtFault ∨ (g.swOf n).latch ≠ 0)) ∨
      (far c ∧ (zone ((g.par (0x100 + c)).extractLsb' 8 8) ∨ c ∈ g.sbtFault))
    let mine (c : Nat) : Prop := (∃ n, near n c) ∨ far c
    let may : Prop := (g.st = .run ∨ g.st = .sealed) ∧ bitOf (g.par 1) 0 = true ∧ s.pwr.failed = false
    (g.writes = [] → (b = false → ∀ t, s.seals.sbt = some t → (s.ax t.ctx).enabled = true ∧
        (s.ax t.ctx).mode = .idle ∧
        (2 ≤ t.step → ((s.guardPos t.ctx - t.p0).toInt).natAbs ≤ (s.gA.par 0x22).toNat)) →
      Runs (.guardDecision b) s (fun t =>
        (∀ c, c ∈ (t.guard b).grants ↔ mine c ∧ ¬ gone c ∧ may ∧ (far c → tget 0 g.mapBad c = 0) ∧
          (s.ax c).enabled = true ∧ (s.ax c).engage = false ∧ c ∉ g.blocked ∧
          (b = false → ∀ x, s.seals.sbt = some x → x.ctx ≠ c)) ∧
        (∀ c, c ∈ (t.guard b).blocked ↔ mine c ∧ (gone c ∨
          ((s.ax c).enabled = true ∧ (s.ax c).engage = false ∧ c ∈ g.blocked))) ∧
        (t.guard (!b)).grants = (s.guard (!b)).grants ∧ (t.guard b).st = g.st ∧
        (t.guard b).params = g.params ∧ (t.guard b).log = g.log ∧
        let both (c : Nat) : Prop := c ∈ t.gA.grants ∧ c ∈ t.gB.grants
        (∀ n z, n < 8 → let o := (s.guard z).swOf n
          let x := (t.guard z).swOf n
          x.latch = o.latch ∧ x.cond = o.cond ∧ x.pulse = o.pulse ∧
          (o.pulse = none → (x.on = true ↔ both (s.ctxOfNear n))) ∧
          (o.pulse ≠ none → ¬ both (s.ctxOfNear n) → x.on = false ∧ x.wins = true) ∧
          (o.pulse ≠ none → both (s.ctxOfNear n) → x = o)) ∧
        (∀ n, n < 8 → let p := g.par (0x10 + n)
          (t.bgTo.getLsbD (n + if b then 8 else 0) = true ↔ bitOf p 1 = true ∧
            (¬ (g.st = .run ∨ g.st = .sealed) ∨ zone (p.extractLsb' 8 8) ∨
              s.ctxOfNear n ∈ g.sbtFault ∨ (g.swOf n).latch ≠ 0))) ∧
        (∀ c, s.isNear c = true → c ∈ s.gA.grants → c ∈ s.gB.grants → ¬ both c →
          (s.gA.en = true ∨ s.gB.en = true) → (s.ax c).engage = false → s.sbtOn c = false →
          (t.ax c).enabled = false ∧ ((s.ax c).enabled = true → (t.ax c).engage = true)) ∧
        t.cyc = s.cyc ∧ t.rings = s.rings ∧ t.tm = s.tm ∧ t.pending = s.pending)) ∧
    (∀ w, g.writes = [w] → b = true ∨ s.seals.sbt = none → Runs (.guardDecision b) s (fun t =>
      (t.guard b).writes = [] ∧ (t.guard b).par w.id = w.val ∧
      (∀ k, k ≠ w.id → (t.guard b).par k = g.par k) ∧ (t.guard b).log.length = g.log.length + 1 ∧
      (w.sealed_ = true → w.id ∈ (t.guard b).unconf)))

/-- R570, R578 to R590, R595, R596. -/
def Obligations.GuardInputsSwitchesAndModes : Prop :=
  ∀ (s : State), s.isOn 2 = true →
    let setG (b : Bool) (g : Guard) : State := s.setGuard b g
    (∀ b, let g := s.guard b
      exec (.xmonHeartbeat b) s = .next (s.setGuard (!b) { s.guard (!b) with xmonLost := false }) ∧
      (g.locked = false ∨ g.fails = [] → exec (.guardLockoutExpire b) s = .next s) ∧
      (∀ l a, g.locked = true → g.fails = l ++ [a] → Runs (.guardLockoutExpire b) s (fun t =>
        ∃ u : State, u = { s with bt := u.bt, frac := u.frac, tm := u.tm } ∧ s.bt ≤ u.bt ∧
          a + 600000000000 ≤ u.bt ∧ t = u.setGuard b { g with locked := false, fails := [] })) ∧
      (∀ (k : Fin 8) d, let l (v : BitVec 8) : Bool := v.getLsbD k
        (l g.demand = d → exec (.safeInputFilter b k d) s = .next s) ∧
        (l g.demand ≠ d → Runs (.safeInputFilter b k d) s (fun t => ∃ u : State,
          u = { s with gA := u.gA, gB := u.gB, regs := u.regs } ∧
          (∀ j, (u.guard b).demand.getLsbD j = if j = k.val then d else g.demand.getLsbD j) ∧
          (u.guard (!b)).demand = (s.guard (!b)).demand ∧
          (∀ z j, (u.guard z).discrep.getLsbD j = ((s.guard z).discrep.getLsbD j &&
            !(j == k.val && !d && !l (s.guard (!b)).demand && l (s.guard z).together))) ∧
          (u.guard b).sw = g.sw ∧ (u.guard b).grants = g.grants ∧
          (d = false → t = u ∧ u.regs = s.regs) ∧
          (d = true → t = u.post 0x0801 .warn 0 (payOf [k, if b then 1 else 0]) ∧
            let q := if b then GUARD_B_DEMANDS else GUARD_A_DEMANDS
            u.rg q = satAdd (s.rg q) 1 ∧ SameRegsBut s u [regKey q 0])))) ∧
      (∀ (n : Fin 8) (on : Bool), let x := g.swOf n
        let both := (s.gA.swOf n).conducts = true ∧ (s.gB.swOf n).conducts = true
        let faults (bit : Nat) (code : BitVec 16) (can : Prop) (t : State) : Prop :=
          let m : BitVec 5 := BitVec.ofNat 5 (2 ^ bit)
          (on = true → ¬ can → t = s) ∧
          (on = false → t = setG b (g.setSw n { x with cond := x.cond &&& ~~~ m })) ∧
          (on = true → can → ∃ u : State,
            u = setG b (g.setSw n { x with cond := x.cond ||| m, latch := x.latch ||| m }) ∧
            t = if x.latch.getLsbD bit then u else u.post code .severe (s.ctxOfNear n))
        Runs (.switchShort b n on) s (faults 0 0x0804 (x.on = true)) ∧
        Runs (.switchStuck b n on) s (faults 1 0x0805 (x.conducts = false)) ∧
        Runs (.switchOpen b n on) s (faults 2 0x0806 (x.conducts = true)) ∧
        Runs (.brakeOpenLoad b n on) s (faults 3 0x0807 both) ∧
        let pass := if b then GUARD_B_TESTS else GUARD_A_TESTS
        let fail := if b then GUARD_B_TEST_FAIL else GUARD_A_TEST_FAIL
        (x.pulse ≠ none → exec (.testPulseStart b n on) s = .next s) ∧
        (x.pulse = none → x.on = true → Runs (.testPulseStart b n on) s (fun t =>
          t = { setG b (g.setSw n { x with pulse := some s.bt, wins := false }) with
            outputs := s.outputs ++ [.ball (.brake n (!b)) .hiz] })) ∧
        (x.pulse = none → x.on = false →
          (on = true → exec (.testPulseStart b n on) s = .next (s.bump pass)) ∧
          (on = false → Runs (.testPulseStart b n on) s (fun t => t.rg fail = satAdd (s.rg fail) 1 ∧
            (t.guard b).swOf n = { x with cond := x.cond ||| 2, latch := x.latch ||| 2 } ∧
            SameRegsBut s t [regKey fail 0, regKey HOST_SUMMARY 0]))) ∧
        (x.pulse = none → ∀ back, exec (.testPulseEnd b n on back) s = .next s) ∧
        (∀ at_ back, x.pulse = some at_ → Runs (.testPulseEnd b n on back) s (fun t =>
          at_ + BitVec.ofNat 64 ((g.par 4).toNat * 1000) ≤ t.bt ∧
          ((t.guard b).swOf n).pulse = none ∧ ((t.guard b).swOf n).on = x.on ∧
          let good := on = true ∧ (x.wins = true ∨ back = true)
          (good → t.rg pass = satAdd (s.rg pass) 1 ∧ SameRegsBut s t [regKey pass 0] ∧
            ((t.guard b).swOf n).latch = x.latch) ∧
          (¬ good → t.rg fail = satAdd (s.rg fail) 1 ∧ SameRegsBut s t [regKey fail 0, regKey HOST_SUMMARY 0] ∧
            ((t.guard b).swOf n).latch = x.latch ||| if on then 4 else 2)))) ∧
      (∀ ok crc, (g.st ≠ .selftest → exec (.selftestComplete b ok crc) s = .next s) ∧
        (g.st = .selftest → ok = true → crc = true → Runs (.selftestComplete b ok crc) s (fun t =>
          let r := (setG b { g with st := .run, cause := 0 }).regrant b
          t = if s.sealed_ = true then ((r.setGuard b { r.guard b with st := .sealed }).post 0x080F .info 0
            (payOf [if b then 1 else 0, 2])).regrant b else r)) ∧
        (g.st = .selftest → ok = false ∨ crc = false → exec (.selftestComplete b ok crc) s =
          .next ((setG b { g with st := .safe, cause := if ok then 2 else 1 }).regrant b))) ∧
      (let falls (cause : Nat) (h : Guard) (t : State) : Prop :=
        (g.st = .run ∨ g.st = .sealed ∨ g.st = .unconfirmed → t =
          ((setG b { h with st := .safe, cause := cause }).post 0x080C .stop 0
            (payOf [if b then 1 else 0, cause])).regrant b) ∧
        (g.st = .safe ∨ g.st = .selftest → t = setG b h)
      Runs (.xmonTimeout b) s (falls 3 { g with xmonLost := true }) ∧
      Runs (.uncorrectableSramError b) s (falls 4 g) ∧
      Runs (.ownOscillatorCheckFailure b) s (falls 5 g) ∧
      Runs (.parameterCrcError b) s (falls 2 g))) ∧
    (∀ k : Fin 8, let l (v : BitVec 8) : Bool := v.getLsbD k
      (l s.gA.demand = l s.gB.demand ∨ l s.gA.discrep = true → exec (.siDiscrepancy k) s = .next s) ∧
      (l s.gA.demand ≠ l s.gB.demand → l s.gA.discrep = false → Runs (.siDiscrepancy k) s (fun t =>
        ∃ u : State, t = u.post 0x0802 .severe 0 ∧ u = { s with gA := u.gA, gB := u.gB } ∧
          ∀ z j, (u.guard z).discrep.getLsbD j = ((s.guard z).discrep.getLsbD j || j == k.val) ∧
            (u.guard z).together.getLsbD j = ((s.guard z).together.getLsbD j && j != k.val) ∧
            (u.guard z).demand = (s.guard z).demand))) ∧
    (∀ on, Runs (.brakeOverload on) s (fun t => ∃ u : State, u = { s with gA := u.gA, gB := u.gB } ∧
      t = (if on = true ∧ (s.gA.swOf 0).latch.getLsbD 4 = false then u.post 0x0808 .severe 0 else u) ∧
      ∀ z n, n < 8 → let x := (s.guard z).swOf n
        (u.guard z).swOf n = if on then { x with cond := x.cond ||| 16, latch := x.latch ||| 16 }
          else { x with cond := x.cond &&& 15 })) ∧
    (∀ a b, Runs (.sealChange a b) s (fun t => t.seals = { s.seals with
        a := a, b := b, mism := a != b || (s.seals.mism && (a || b)) } ∧
      ∀ z, (t.guard z).st = match (s.guard z).st with
        | .run => if t.sealed_ then .sealed else .run
        | .sealed => if t.sealed_ then .sealed
            else if (s.guard z).unconf = [] then .run else .unconfirmed
        | st => st)) ∧
    (s.seals.sbt = none → exec .sbtStep s = .next s) ∧
    (∀ x, s.seals.sbt = some x →
      let q : Rat := ((s.gA.par 0x20).toNat : Rat) / 2 ^ 23
      let due (k : Nat) : W64 := x.at_ + BitVec.ofNat 64 (((s.gA.par 0x23).toNat +
        k * (s.gA.par 0x21).toNat) * 1000000)
      (x.step = 1 → Runs .sbtStep s (fun t => due 0 ≤ t.bt ∧ (t.ax x.ctx).sbt = some q ∧
        t.seals = { s.seals with sbt := some { x with step := 2, p0 := s.guardPos x.ctx } })) ∧
      (x.step = 2 → Runs .sbtStep s (fun t => due 1 ≤ t.bt ∧ (t.ax x.ctx).sbt = some (-q) ∧
        t.seals = { s.seals with sbt := some { x with step := 3 } })) ∧
      (x.step = 3 → Runs .sbtStep s (fun t => ∃ u : State, t = u.complete x.cmd 0 ∧ due 2 ≤ u.bt ∧
        u.ax x.ctx = { s.ax x.ctx with sbt := none } ∧ u.seals = { s.seals with
          sbt := none, sbtLast := 1, sbtPass := tset 0 s.seals.sbtPass x.ctx s.boot.opMinutes } ∧
        u = { s with bt := u.bt, frac := u.frac, tm := u.tm, axes := u.axes, seals := u.seals }))) ∧
    ((s.gA.par 0x24).toNat = 0 → exec .sbtDue s = .next s) ∧
    ((s.gA.par 0x24).toNat ≠ 0 → Runs .sbtDue s (fun t =>
      let late (a : GAx) : Bool :=
        60 * (s.gA.par 0x24).toNat ≤ (s.boot.opMinutes - tget 0 s.seals.sbtPass a.ctx).toNat
      t.host = (((s.guardAxes s.gA).filter late).foldl (fun v a => v.post 0x080A .warn a.ctx) s).host ∧
      ((∀ a ∈ s.guardAxes s.gA, late a = false) → t = s)))

/-- R586, R587, R594 to R601. -/
def Obligations.GuardDescriptorsAreProtected : Prop :=
  ∀ (s : State) (d : Desc),
    let id := d.target.toNat
    let v : W32 := BitVec.ofNat 32 (d.le 32 4)
    let pw : BitVec 128 := d.payload.extractLsb' 0 128
    let pw2 : BitVec 128 := d.payload.extractLsb' 128 128
    let crc (x : W32) : W32 := crc32c (beBytes 2 id ++ beBytes 4 x.toNat)
    let full (g : Guard) : Prop := 256 ≤ g.log.length + g.writes.length
    let open_ (b : Bool) (u : State) : Prop := ¬ full (u.guard b) ∧ (u.sealed_ = true ∨
      ((u.guard b).locked = false ∧ (u.guard b).password ≠ 0 ∧ (u.guard b).password = pw))
    let logs (b : Bool) (op p : Nat) (x : W32) (u w : State) : Prop :=
      ∃ e : Payload, (w.guard b).log = (u.guard b).log ++ [e] ∧
        e.toNat % 2 ^ 16 = (u.guard b).log.length % 2 ^ 16 ∧
        e.toNat / 2 ^ 16 % 2 ^ 8 = ((if b then 1 else 0) + (if u.sealed_ then 2 else 0) + op * 16) % 256 ∧
        e.toNat / 2 ^ 32 % 2 ^ 32 = u.boot.opMinutes.toNat ∧ e.toNat / 2 ^ 64 % 2 ^ 16 = p ∧
        e.toNat / 2 ^ 80 % 2 ^ 32 = x.toNat
    let shut (b : Bool) (u : State) (k : Option Cmd) (t : State) : Prop :=
      let g := u.guard b
      (full g → t = u.complete k 0x0826) ∧
      (¬ full g → u.sealed_ = false → g.locked = true → t = u.complete k 0x0823) ∧
      (¬ full g → u.sealed_ = false → g.locked = false → g.password = 0 → t = u.complete k 0x0822) ∧
      (¬ full g → u.sealed_ = false → g.locked = false → g.password ≠ 0 → g.password ≠ pw →
        ∃ w : State, t = w.complete k 0x0822 ∧
          let q := if b then GUARD_B_PW_FAIL else GUARD_A_PW_FAIL
          let old := g.fails.filter (fun x => (u.bt - x).toNat < 600000000000)
          w.rg q = satAdd (u.rg q) 1 ∧ SameRegsBut u w [regKey q 0, regKey HOST_SUMMARY 0] ∧
          w.guard b = { g with fails := old ++ [u.bt], locked := decide (4 ≤ old.length) } ∧
          (old.length < 4 → w = { u with gA := w.gA, gB := w.gB, regs := w.regs }) ∧
          w.guard (!b) = u.guard (!b))
    let writes (b : Bool) (u : State) (k : Option Cmd) (t : State) : Prop := shut b u k t ∧
      (open_ b u → let g := u.guard b
        (holdsPar b id = false → t = u.complete k 0x0825) ∧
        (holdsPar b id = true → parRange id v = false ∨ 4000 < g.inomSum id v → t = u.complete k 0x0824) ∧
        (holdsPar b id = true → parRange id v = true → g.inomSum id v ≤ 4000 →
          t = u.setGuard b { g with writes := g.writes ++ [⟨id, v, u.sealed_, k⟩] }))
    let reads (b : Bool) (u : State) (k : Option Cmd) (t : State) : Prop :=
      let x := (u.guard b).par id
      t = if holdsPar b id then u.complete k 0 (payOf (leBytes 4 x.toNat ++ leBytes 4 (crc x).toNat))
        else u.complete k 0x0825
    let confirms (b : Bool) (u : State) (k : Option Cmd) (t : State) : Prop :=
      let g := u.guard b
      let left := g.unconf.filter (· ≠ id)
      (holdsPar b id = false → t = u.complete k 0x0825) ∧
      (holdsPar b id = true → g.st ≠ .unconfirmed → t = u.complete k 0x082A) ∧
      (holdsPar b id = true → g.st = .unconfirmed → d.aux ≠ crc (g.par id) → t = u.complete k 0x0827) ∧
      (holdsPar b id = true → g.st = .unconfirmed → d.aux = crc (g.par id) →
        (t.guard b).unconf = left ∧ (t.guard b).params = g.params ∧
        (t.guard b).st = (if left ≠ [] then .unconfirmed else if u.sealed_ then .sealed else .run) ∧
        (left ≠ [] → t = (u.setGuard b { g with unconf := left }).complete k 0))
    let setsPw (b : Bool) (u : State) (k : Option Cmd) (t : State) : Prop := shut b u k t ∧
      (open_ b u →
        (goodPassword pw2 = false → t = u.complete k 0x0824) ∧
        (goodPassword pw2 = true → ∃ w : State, t = w.complete k 0 ∧ logs b 3 0 0 u w ∧
          (w.guard b).password = pw2 ∧ (w.guard b).params = (u.guard b).params ∧
          w.guard (!b) = u.guard (!b) ∧ SameRegsBut u w [regKey HOST_SUMMARY 0]))
    let clears (b : Bool) (u : State) (k : Option Cmd) (t : State) : Prop :=
      let g := u.guard b
      (full g → t = u.complete k 0x0826) ∧
      (¬ full g → ∃ w : State, t = w.complete k 0 ∧ logs b 4 0 d.target u w ∧
        id ∉ (w.guard b).sbtFault ∧ (∀ c, c ≠ id → (c ∈ (w.guard b).sbtFault ↔ c ∈ g.sbtFault)) ∧
        (∀ n, ((w.guard b).swOf n) = if u.nearOf id = some n then
          { g.swOf n with latch := (g.swOf n).latch &&& (g.swOf n).cond } else g.swOf n) ∧
        (w.guard b).params = g.params ∧ w.guard (!b) = u.guard (!b))
    let logReads (b : Bool) (u : State) (k : Option Cmd) (t : State) : Prop :=
      t = match (u.guard b).log[d.aux.toNat]? with
        | some e => u.complete k 0 e
        | none => u.complete k 0x0824
    let resets (b : Bool) (u : State) (k : Option Cmd) (t : State) : Prop := shut b u k t ∧
      (open_ b u → let g := u.guard b
        let ok := g.st = .safe ∧ ¬ (g.cause = 3 ∧ g.xmonLost = true)
        (¬ ok → t = u.complete k 0x082A) ∧
        (ok → (t.guard b).st = .selftest ∧ (t.guard b).cause = 0 ∧ (t.guard b).grants = [] ∧
          logs b 7 0 0 u t))
    Takes (.gaWrite d) s (writes false) ∧ Takes (.gbWrite d) s (writes true) ∧
    Takes (.gaRead d) s (reads false) ∧ Takes (.gbRead d) s (reads true) ∧
    Takes (.gaConfirm d) s (confirms false) ∧ Takes (.gbConfirm d) s (confirms true) ∧
    Takes (.gaPassword d) s (setsPw false) ∧ Takes (.gbPassword d) s (setsPw true) ∧
    Takes (.gaFaultClear d) s (clears false) ∧ Takes (.gbFaultClear d) s (clears true) ∧
    Takes (.gaLogRead d) s (logReads false) ∧ Takes (.gbLogRead d) s (logReads true) ∧
    Takes (.gaReset d) s (resets false) ∧ Takes (.gbReset d) s (resets true) ∧
    Takes (.gaSbt d) s (fun u k t =>
      let ok := u.sbtOk id = true
      (¬ ok → t = u.complete k 0x0828) ∧
      (ok → t.seals = { u.seals with sbt := some ⟨id, 1, u.bt, u.guardPos id, k⟩ } ∧
        t.gA.grants = u.gA.grants.filter (· ≠ id) ∧ t.gB.grants = u.gB.grants ∧
        u.seals.sbt = none ∧ u.gA.st = .run ∧ (u.ax id).enabled = true ∧ (u.ax id).mode = .idle))

/-- R629, R631, R633, R635 to R637. -/
def Obligations.EventsMergeAndCompletionsEnter : Prop :=
  ∀ (s : State),
    (∀ (n : Nat) (e : CqEntry), e.ty = .event ∨ e.ty = .item → e.count = 1 → e.occ = 1 →
      let t := s.postEntry n e
      let o := (s.cq n).buf
      let like (x : CqEntry) : Prop := x.ty = e.ty ∧ x.status = e.status ∧ x.src = e.src
      let full := (o.filter (fun x => x.ty == .event || x.ty == .item)).length
      let more (x y : CqEntry) : Prop := y.count = satAdd x.count 1 ∧ y.bt = e.bt ∧ y.ty = x.ty ∧
        y.status = x.status ∧ y.src = x.src ∧ y.severe = (x.severe || e.severe)
      let summed (y : CqEntry) : Prop := y.ty = .summary ∧ y.status = 0x0E03 ∧ y.src = 0 ∧ y.bt = e.bt ∧
        y.payload.toNat % 2 ^ 16 = e.status.toNat ∧ y.payload.toNat / 2 ^ 16 % 2 ^ 8 = e.src.toNat ∧
        y.payload.toNat / 2 ^ 24 % 2 ^ 8 = (if e.ty = .item then 0 else e.payload.toNat / 2 ^ 120 % 4) ∧
        y.payload.toNat / 2 ^ 32 % 2 ^ 8 = (if e.ty = .item then 2 else 1)
      t.host.ledger.posted = s.host.ledger.posted + 1 ∧ (∀ m, m ≠ n → t.cq m = s.cq m) ∧
      t = { s with host := t.host, regs := t.regs } ∧ SameRegsBut s t [regKey HOST_SUMMARY 0] ∧
      (∀ l x m, o = l ++ x :: m → like x → (∀ z ∈ l, ¬ like z) → ∃ y, (t.cq n).buf = l ++ y :: m ∧ more x y ∧
        y.payload = e.payload ∧ t.regs = s.regs) ∧
      ((∀ z ∈ o, ¬ like z) → full < 31 → (t.cq n).buf = o ++ [e] ∧ t.regs = s.regs) ∧
      ((∀ z ∈ o, ¬ like z) → 31 ≤ full → t.rg HOST_SUMMARY = satAdd (s.rg HOST_SUMMARY) 1 ∧
        ((∀ z ∈ o, z.ty ≠ .summary) → ∃ y, (t.cq n).buf = o ++ [y] ∧ summed y ∧ y.count = 1) ∧
        (∀ l x m, o = l ++ x :: m → x.ty = .summary → x.status = 0x0E03 → x.src = 0 →
          (∀ z ∈ l, z.ty ≠ .summary) → ∃ y, (t.cq n).buf = l ++ y :: m ∧ summed y ∧ more x y))) ∧
    (∀ (code : BitVec 16) (sev : Sev) (src : Nat) (pay : Payload), src < 256 →
      let t := s.post code sev src pay
      ∃ e : CqEntry, e.ty = .event ∧ e.status = code ∧ e.src.toNat = src ∧ e.bt = s.bt.setWidth 32 ∧
        e.payload.toNat = pay.toNat % 2 ^ 120 + sev.code * 2 ^ 120 ∧ e.count = 1 ∧
        e.severe = (sev == .severe || sev == .stop) ∧
        t.host = (s.postEntry (s.rf HOST_EVT_CQ src 5 0) e).host ∧
        t = { s with host := t.host, regs := t.regs, cab := t.cab, recd := t.recd } ∧
        (sev = .severe ∨ sev = .stop → t.recd.held ≠ none) ∧
        (sev = .info ∨ sev = .warn → t.recd.held = s.recd.held)) ∧
    ∀ (c : Cmd) (st : BitVec 16) (pay : Payload),
      let t := s.complete (some c) st pay
      let n := s.ringBind 0 c.sq.toNat
      (c.epoch ≠ s.host.epoch → t = s) ∧
      (c.epoch = s.host.epoch → t = { s with host := t.host } ∧ (∃ e : CqEntry, t.cq n = { s.cq n with
          buf := (s.cq n).buf ++ [e], reserved := (s.cq n).reserved - 1 } ∧
          e.ty = .command ∧ e.status = st ∧ e.tag = c.tag ∧ e.sq = c.sq.setWidth 8 ∧ e.op = c.op ∧
          e.src = c.src ∧ e.payload = pay ∧ e.count = 1 ∧ e.bt = s.bt.setWidth 32 ∧ e.irq = c.irq) ∧
        (∀ m, m ≠ n → t.cq m = s.cq m) ∧
        (t.sq c.sq.toNat).opened = (s.sq c.sq.toNat).opened - 1 ∧
        (t.sq c.sq.toNat).head = (s.sq c.sq.toNat).head ∧ t.host.ledger = s.host.ledger)

/-- R608, R612 to R624, R630, R638, R639, R807. -/
def Obligations.RingsAreSetUpPolledAndWritten : Prop :=
  ∀ (s : State),
    let signalled (v : Nat) (u t : State) : Prop :=
      if u.host.msixEnable = false then t = u
      else if u.host.msixFMask = true ∨ u.host.msixMask.getLsbD v = true then
        t = { u with host := { u.host with msixPend := u.host.msixPend ||| BitVec.ofNat 64 (2 ^ v) } }
      else t = { u with outputs := u.outputs ++ [.msix v] }
    (s.isOn 1 = true → ∀ v : W32,
      let sel := (s.rg HOST_RING_SEL).toNat
      let kind := sel / 256
      let n := sel % 64
      let old := s.rg HOST_RING_CFG sel
      let new := v &&& HOST_RING_CFG.mask
      let drained := if kind = 0 then (s.sq n).head = (s.sq n).tail ∧ (s.sq n).opened = 0
        else if kind = 1 then (s.cq n).buf = [] ∧ (s.cq n).head = (s.cq n).tail
        else (s.strm n).head = (s.strm n).tail
      let bound := ∃ m, m < 64 ∧ s.ringEn 0 m = true ∧ s.ringBind 0 m = n
      let busy := (¬ (bitsOf old 8 4 = bitsOf v 8 4 ∧ bitsOf old 21 16 = bitsOf v 21 16) ∧
          (s.ringEn kind n = true ∨ ¬ drained)) ∨
        (kind = 1 ∧ bitOf old 0 = true ∧ bitOf v 0 = false ∧ bound)
      let bad := bitsOf v 8 4 < 4 ∨ 16 < bitsOf v 8 4 ∨ bitsOf (s.rg HOST_RING_BASE_LO sel) 11 0 ≠ 0
      let rises := bitOf v 0 = true ∧ bitOf old 0 = false
      (kind ≤ 1 ∨ (kind = 2 ∧ n < 9)) → Runs (.ringCfgWrite v) s (fun t =>
        (busy → ∃ u : State, t = u.post 0x0E01 .warn 0 (payOf [kind, n]) ∧ u = { s with regs := u.regs } ∧
          (u.rg HOST_RING_ERR).toNat = 0x0E01 + n * 2 ^ 16 + kind * 2 ^ 24 ∧
          SameRegsBut s u [regKey HOST_RING_ERR 0]) ∧
        (¬ busy → rises → bad → t = { s with regs := t.regs } ∧ bitOf (t.rg HOST_RING_CFG sel) 0 = false ∧
          (t.rg HOST_RING_ERR).toNat = 0x0E02 + n * 2 ^ 16 + kind * 2 ^ 24) ∧
        (¬ busy → ¬ (rises ∧ bad) → t.rg HOST_RING_CFG sel = new ∧
          SameRegsBut s t [regKey HOST_RING_CFG sel] ∧ (¬ rises → t = { s with regs := t.regs }) ∧
          (rises → (kind = 0 → t.sq n = { s.sq n with head := 0, tail := 0, fresh := true }) ∧
            (kind = 1 → t.cq n = { s.cq n with head := 0, tail := 0, phase := true }) ∧
            (kind = 2 → t.strm n = { s.strm n with head := 0, tail := 0 }))))) ∧
    (s.isOn 1 = true → ∀ v : W32,
      Runs (.hostEnable v) s (fun t => bitOf (t.rg HOST_CTL) 0 = true ∧ SameRegsBut s t [regKey HOST_CTL 0] ∧
        (bitOf (s.rg HOST_CTL) 0 = false → t.host.polling = true) ∧
        t = { s with regs := t.regs, host := t.host }) ∧
      Runs (.hostDisable v) s (fun t => bitOf (t.rg HOST_CTL) 0 = false ∧ SameRegsBut s t [regKey HOST_CTL 0] ∧
        (bitOf (s.rg HOST_CTL) 0 = true → t.host.polling = false) ∧
        t = { s with regs := t.regs, host := t.host }) ∧
      (bitOf v 0 = false → exec (.hostLatch v) s = .next s) ∧
      (bitOf v 0 = true → Runs (.hostLatch v) s (fun t => t = { s with regs := t.regs } ∧
        let l := s.host.ledger
        t.rg HOST_DESC_FETCHED = l.fetched ∧ t.rg HOST_CPL_CMD = l.cplCmd ∧
        t.rg HOST_CMD_DISCARD = l.cmdDiscard ∧
        t.rg HOST_DESC_FETCHED = t.rg HOST_CPL_CMD + t.rg HOST_CMD_OPEN + t.rg HOST_CMD_DISCARD ∧
        t.rg HOST_EVT_POSTED = l.posted ∧ t.rg HOST_EVT_WRITTEN = l.written ∧
        t.rg HOST_EVT_DISCARD = l.evtDiscard ∧ t.rg HOST_EVT_HELD = s.evtHeld))) ∧
    (∀ page descs, bitOf (s.rg HOST_CTL) 0 = false ∨ s.pwr.failed = true → exec (.doorbellPoll page descs) s = .next s) ∧
    (s.isOn 1 = true → bitOf (s.rg HOST_CTL) 0 = true → s.pwr.failed = false → ∀ page descs,
      Runs (.doorbellPoll page descs) s (fun t =>
        let idx (off : Nat) : Nat := bitsOf (pageWord page off) 15 0
        let bad (size old new bound : Nat) : Prop := size ≤ new ∨
          (bound + size - old % size) % size < (new + size - old % size) % size
        t.host.alive = pageWord page 0x300 ∧ t.bt = s.bt ∧
        .doorbell 0x700 (w32Bytes (s.bt.setWidth 32)) ∈ t.outputs ∧
        (∀ n, n < 64 → let q := s.sq n
          let size := s.ringSize 0 n
          (s.ringEn 0 n = false → (t.sq n).tail = q.tail ∧ (t.sq n).head = q.head) ∧
          (s.ringEn 0 n = true → bad size q.tail (idx (4 * n)) ((q.head + size - 1) % size) →
            t.ringEn 0 n = false ∧ (t.sq n).tail = q.tail ∧ (t.sq n).head = q.head) ∧
          (s.ringEn 0 n = true → ¬ bad size q.tail (idx (4 * n)) ((q.head + size - 1) % size) →
            t.ringEn 0 n = true ∧ (t.sq n).tail = idx (4 * n))) ∧
        (∀ n, n < 64 → let q := s.cq n
          let size := s.ringSize 1 n
          let w := idx (0x100 + 4 * n)
          (s.ringEn 1 n = false → (t.cq n).head = q.head) ∧
          (s.ringEn 1 n = true → bad size q.head w q.tail → t.ringEn 1 n = false ∧ (t.cq n).head = q.head) ∧
          (s.ringEn 1 n = true → ¬ bad size q.head w q.tail → t.ringEn 1 n = true ∧ (t.cq n).head = w)) ∧
        (∀ n, n < 9 → let q := s.strm n
          let size := s.ringSize 2 n
          let w := idx (0x200 + 4 * n)
          (s.ringEn 2 n = false → t.strm n = q) ∧
          (s.ringEn 2 n = true → bad size q.head w q.tail → t.ringEn 2 n = false ∧ t.strm n = q) ∧
          (s.ringEn 2 n = true → ¬ bad size q.head w q.tail → t.strm n = { q with head := w })) ∧
        ∀ n, n < 64 → s.ringEn 0 n = true → (∀ m, m ≠ n → s.ringEn 0 m = false) →
          let q := s.sq n
          let size := s.ringSize 0 n
          let r := tget ⟨0, {}⟩ descs (n * 65536 + q.head)
          let d : Desc := { r.d with sq := BitVec.ofNat 6 n }
          let b := s.cq (s.ringBind 0 n)
          q.head < size → idx (4 * n) = (q.head + 1) % size → q.tail = q.head →
          s.unapplied n < 8 → b.reserved + (b.buf.filter (fun e => e.ty == .command)).length < 224 →
          s.host.queue.any (fun f => f.d.sq.toNat == n && f.waits) = false →
          (s.mirrorOn = false ∨ s.mirrored r.op d = false) →
          (t.sq n).head = (q.head + 1) % size ∧ t.host.ledger.fetched = s.host.ledger.fetched + 1 ∧
          (fetchCheck r.op d = none → (t.sq n).opened = q.opened + 1 ∧ ∃ f : Fetched,
            t.host.queue = s.host.queue ++ [f] ∧ f.op = r.op ∧ f.d = d ∧ f.bt = s.bt ∧ f.refuse = none ∧
            f.applySeq = none) ∧
          (∀ st, fetchCheck r.op d = some st → t.host.queue = s.host.queue ∧
            ∃ e ∈ (t.cq (s.ringBind 0 n)).buf, e.ty = .command ∧ e.status = st ∧ e.tag = d.tag ∧
              e.sq.toNat = n ∧ e.op = r.op))) ∧
    ∀ n : Fin 64,
      let c := s.cq n
      let size := s.ringSize 1 n
      let e2 := (c.tail + 1) % size
      (c.buf = [] ∨ s.ringEn 1 n = false ∨ e2 = c.head → exec (.cqEntryWrite n) s = .next s) ∧
      (∀ e es, c.buf = e :: es → s.ringEn 1 n = true → e2 ≠ c.head → Runs (.cqEntryWrite n) s (fun t =>
        ∃ u : State, u = { s with outputs := s.outputs ++ [.cq n c.tail (e.bytes c.phase)], host := u.host } ∧
          (∀ m, m ≠ n.val → u.cq m = s.cq m) ∧
          u.host.ledger = (if e.ty = .command then { s.host.ledger with cplCmd := s.host.ledger.cplCmd + 1 }
            else { s.host.ledger with written := s.host.ledger.written + e.occ }) ∧
          (u.cq n).buf = es ∧ (u.cq n).tail = e2 ∧ (u.cq n).head = c.head ∧
          (u.cq n).phase = (if e2 = 0 then !c.phase else c.phase) ∧
          if s.ithr n ≤ c.since + 1 ∨ s.itmr n = 0 ∨ e.irq = true ∨ e.severe = true then
            (u.cq n).since = 0 ∧ signalled (s.ringBind 1 n) u t
          else (u.cq n).since = c.since + 1 ∧ t = u)) ∧
      (c.since = 0 → exec (.itmrExpire n) s = .next s) ∧
      (c.since ≠ 0 → Runs (.itmrExpire n) s (fun t => ∃ u : State,
        u = { s with bt := u.bt, frac := u.frac, tm := u.tm, host := u.host } ∧
        c.firstAt + BitVec.ofNat 64 (s.itmr n * 1000) ≤ u.bt ∧ u.cq n = { c with since := 0 } ∧
        (∀ m, m ≠ n.val → u.cq m = s.cq m) ∧ signalled (s.ringBind 1 n) u t)) ∧
      (s.isOn 1 = true → Runs (.msixUnmask n) s (fun t =>
        (∀ v, t.host.msixMask.getLsbD v = (s.host.msixMask.getLsbD v && v != n.val)) ∧
        (s.host.msixEnable = true → s.host.msixFMask = false → s.host.msixPend.getLsbD n = true →
          t.host.msixPend.getLsbD n = false ∧ .msix n.val ∈ t.outputs) ∧
        (s.host.msixEnable = false ∨ s.host.msixFMask = true → t.outputs = s.outputs ∧
          t.host.msixPend = s.host.msixPend) ∧ t = { s with host := t.host, outputs := t.outputs }))

/-- R607 to R611, R644, R645, R648, R681. -/
def Obligations.HostInterfaceResetsAndAnswers : Prop :=
  ∀ (s : State),
    let lost (cause : Nat) (u t : State) : Prop := t = u.hostLost cause ∧ t.host.lost = true ∧
      ∀ c, 1 ≤ c → c ≤ 128 → let x := u.ax c
        let all := bitOf (u.rg HOST_CTL) 1 = true
        (x.enabled = true → x.stop = .none → (∀ k, (u.ax k).group = none) → (∀ g, (u.grp g).members = []) →
          all ∨ x.mode = .vel ∨ x.mode = .step ∨ x.mode = .gear ∨ x.mode = .cam →
          (t.ax c).mode = .stop ∧ (t.ax c).enabled = true) ∧
        (x.enabled = false → t.ax c = x) ∧
        (¬ all → x.mode = .ptp ∨ x.mode = .pvt ∨ x.mode = .homing ∨ x.mode = .idle → t.ax c = x)
    (∀ k : Fin 3, s.isOn 19 = true → Runs (.hostInterfaceReset k) s (fun t => ∃ u : State,
      lost (k.val + 1) u t ∧
      u = { s with host := u.host, streams := u.streams, regs := u.regs, boot := u.boot } ∧
      u.boot = (if k = 0 then { s.boot with perstN := false, linkUp := false }
        else if k = 1 then { s.boot with linkUp := false } else s.boot) ∧
      bitOf (u.rg HOST_CTL) 0 = false ∧ bitOf (u.rg HOST_CTL) 1 = bitOf (s.rg HOST_CTL) 1 ∧
      (∀ n, n < 64 → u.ringEn 0 n = false ∧ u.ringEn 1 n = false ∧ u.sq n = {} ∧ u.cq n = {} ∧
        u.ringSize 0 n = s.ringSize 0 n ∧ u.ringBind 0 n = s.ringBind 0 n) ∧
      (∀ n, n < 9 → u.ringEn 2 n = false ∧ u.strm n = { s.strm n with head := 0, tail := 0 }) ∧
      (∀ q j, q.addr ≠ HOST_CTL.addr → q.addr ≠ HOST_RING_CFG.addr → j < 0x100000 → u.rg q j = s.rg q j) ∧
      u.host.queue = s.host.queue ∧ u.host.ready = s.host.ready ∧
      u.host.ledger.fetched = s.host.ledger.fetched ∧ u.host.ledger.posted = s.host.ledger.posted ∧
      (s.host.cqs = [] → u.host.ledger = s.host.ledger))) ∧
    (bitOf (s.rg HOST_CTL) 2 = true → s.host.polling = true → s.host.aliveSeen = true →
      s.host.lost = false → Runs .hostWatchdog s (fun t => ∃ u : State, lost 4 u t ∧
        u = { s with bt := u.bt, frac := u.frac, tm := u.tm } ∧
        s.host.aliveAt + BitVec.ofNat 64 (s.rf HOST_WDT 0 15 0 * 1000000) ≤ u.bt)) ∧
    (bitOf (s.rg HOST_CTL) 2 = false ∨ s.host.lost = true → exec .hostWatchdog s = .next s) ∧
    (s.isOn 1 = true → ∀ (kind : Fin 4) (n : Fin 64) (b : Bool), Runs (.dmaError kind n b) s (fun t =>
      ∃ u : State, t = u.post 0x0E05 .severe 0 ∧ u = { s with regs := u.regs, host := u.host } ∧
        u.rg HOST_DMA_ERR = satAdd (s.rg HOST_DMA_ERR) 1 ∧
        SameRegsBut s u [regKey HOST_DMA_ERR 0, regKey HOST_RING_CFG (ringSel kind n)] ∧
        (kind.val < 2 ∨ (kind.val = 2 ∧ n.val < 9) → u.ringEn kind n = false) ∧
        (kind.val = 3 → SameRegsBut s u [regKey HOST_DMA_ERR 0]) ∧
        (kind.val ≠ 1 ∨ b = false → u.host = s.host) ∧
        ∀ e es, kind.val = 1 → b = true → (s.cq n).buf = e :: es → u.cq n = { s.cq n with buf := es } ∧
          u.host.ledger = if e.ty = .command then
              { s.host.ledger with cmdDiscard := s.host.ledger.cmdDiscard + 1 }
            else { s.host.ledger with evtDiscard := s.host.ledger.evtDiscard + e.occ })) ∧
    (s.isOn 1 = true → ∀ (a : BitVec 24) (v : W32), let b := a.toNat / 4 * 4
      let rec_ := 0x300000 ≤ b ∧ b < 0x340000
      (s.gA.st ≠ .sealed ∨ rec_ → exec (.bar2Write a v) s = .next (s.bump HOST_BAR2_DROP)) ∧
      (s.gA.st = .sealed → 0x800000 ≤ b → exec (.bar2Write a v) s = .next s) ∧
      (s.gA.st = .sealed → ¬ rec_ → b < 0x800000 → s.isOn (7 + b / 0x100000) = true →
        Runs (.bar2Write a v) s (fun t => t = { s with cab := t.cab, pwr := t.pwr } ∧ t.cabWord b = v ∧
          (∀ i, i < b ∨ b + 4 ≤ i → t.cabByte i = s.cabByte i) ∧ ∀ e, t.isOn e = s.isOn e)) ∧
      (s.gA.st = .sealed → ¬ rec_ → b < 0x800000 → s.isOn (7 + b / 0x100000) = false →
        Runs (.bar2Write a v) s (fun t => ∀ i, ¬ (0x300000 ≤ i ∧ i < 0x340000) → t.cabByte i = s.cabByte i))) ∧
    (s.isOn 19 = true → ∀ q : CfgReq,
      (s.host.ready = false → exec (.configRequest q) s =
        .next { s with outputs := s.outputs ++ [.config true 0] }) ∧
      (s.host.ready = true → Runs (.configRequest q) s (fun t => match q with
        | .read off => ∃ w : W32, t = { s with outputs := s.outputs ++ [.config false w] } ∧
            (off.toNat / 4 = 0 → w.toNat / 2 ^ 16 = 0x9128) ∧ (off.toNat / 4 = 2 → w = 0x118000B0) ∧
            (off.toNat / 4 = 8 ∨ off.toNat / 4 = 9 → w = 0) ∧
            (off.toNat / 4 = 15 → w.toNat / 2 ^ 8 % 2 ^ 8 = 0)
        | .msix en fm => t.host.msixEnable = en ∧ t.host.msixFMask = fm ∧
            t.host.msixMask = s.host.msixMask ∧ t.outputs.getLast? = some (.config false 0) ∧
            t = { s with host := t.host, outputs := t.outputs } ∧
            (en = false ∨ fm = true → t.outputs = s.outputs ++ [.config false 0] ∧
              t.host.msixPend = s.host.msixPend)
        | .write _ _ => t = { s with outputs := s.outputs ++ [.config false 0] }))) ∧
    (∀ sp w, (s.isOn 19 = true → s.boot.perstN = true → exec (.pcieLinkUp sp w) s = .next { s with
        boot := { s.boot with linkUp := true }, host := { s.host with speed := sp, width := w } }) ∧
      (s.isOn 19 = false ∨ s.boot.perstN = false → exec (.pcieLinkUp sp w) s = .next s))

/-- R196, R199, R200, R222, R223, R554, R640, R641. `hostWord`, `NewDrw.bad` and `wordMask` are the words, ranges and
reserved bits of chapter 5. -/
def Obligations.ParametersReadAndWriteOnlyTheirWords : Prop :=
  ∀ (s : State) (d : Desc),
    let c := bitsOf d.target 7 0
    let w := bitsOf d.aux 9 0
    let n := bitsOf d.aux 14 10
    let names (p : Payload) (x : Nat) : Prop := bitsOf p 15 0 = x ∧ bitsOf p 127 16 = 0
    Takes (.nop d) s (fun u k t => t = u.complete k 0) ∧
    Takes (.paramWrite d) s (fun u k t =>
      let vals := (List.range n).map (fun i => BitVec.ofNat 24 (d.le (16 + 3 * i) 3))
      let legal (x : Nat) : Prop := hostWord (u.prof c) x = true
      (n = 0 ∨ 16 < n → ∃ p, names p w ∧ t = u.complete k 0x0104 p) ∧
      (1 ≤ n → n ≤ 16 →
        (0x400 < w + n → ∃ p, names p 0x400 ∧ t = u.complete k 0x0105 p) ∧
        (w + n ≤ 0x400 →
          (∀ x, w ≤ x → x < w + n → ¬ legal x → (∀ y, w ≤ y → y < x → legal y) →
            ∃ p, names p x ∧ t = u.complete k 0x0105 p) ∧
          ((∀ x, w ≤ x → x < w + n → legal x) →
            (u.prof c ≤ 2 → ∀ x xs, (NewDrw.mk u c w vals).bad = x :: xs →
              ∃ p, names p x ∧ t = u.complete k 0x0104 p) ∧
            (3 ≤ u.prof c ∨ (NewDrw.mk u c w vals).bad = [] → (u.resident c).isSome = true ∨ u.isOn 7 = true →
              ∃ v : State, t = v.complete k 0 ∧ v = { u with engs := v.engs, cab := v.cab, twin := v.twin } ∧
                v.twin = { u.twin with written := v.twin.written } ∧
                (u.twin.st ≠ .standby → v.twin.written = u.twin.written) ∧
                (u.twin.st = .standby → ∀ i, i < n → c * 1024 + (w + i) ∈ v.twin.written) ∧
                ((u.resident c).isSome = true → v.cab = u.cab) ∧
                ((u.resident c).isSome = false → v.engs = u.engs) ∧
                (∀ i, i < n → v.drawer c (w + i) = BitVec.ofNat 24 (d.le (16 + 3 * i) 3) &&&
                  (if u.prof c ≤ 2 then wordMask (w + i) else 0xFFFFFF)) ∧
                (∀ x, x < 0x400 → x < w ∨ w + n ≤ x → x ≠ 0x131 ∨ u.prof c ≠ 2 →
                  v.drawer c x = u.drawer c x) ∧
                (u.prof c = 2 → w + n ≤ 0x131 ∨ 0x131 < w →
                  v.drawer c 0x131 = if w ≤ 0x143 ∧ 0x143 < w + n then v.drawer c 0x143
                    else u.drawer c 0x131) ∧
                ∀ c' x, c' ≠ c → x < 0x400 → v.drawer c' x = u.drawer c' x))))) ∧
    Takes (.paramRead d) s (fun u k t =>
      (n = 0 ∨ 5 < n → ∃ p, names p w ∧ t = u.complete k 0x0104 p) ∧
      (1 ≤ n → n ≤ 5 → 0x400 < w + n → ∃ p, names p 0x400 ∧ t = u.complete k 0x0105 p) ∧
      (1 ≤ n → n ≤ 5 → w + n ≤ 0x400 → ∃ p : Payload, t = u.complete k 0 p ∧
        ∀ i, i < n → bitsOf p (24 * i + 23) (24 * i) = (u.drawerSeen c (w + i)).toNat ∧
          (libStateWord (w + i) = false ∨ u.libDraw c = none → u.drawerSeen c (w + i) = u.drawer c (w + i)))) ∧
    (∀ x, (hostWord 3 x = true ↔ x < 0x3E0) ∧ (hostWord 6 x = true ↔ x < 0x3E0) ∧ hostWord 4 x = false ∧
      hostWord 5 x = false ∧ (∀ p, p ≤ 2 → hostWord p x = true → 0x080 ≤ x ∧ x < 0x31A))

/-- R643, R105, R548, R745. -/
def Obligations.FirmwareAndLoopProgramsAreMaintained : Prop :=
  ∀ (s : State) (d : Desc),
    let kib := 0x1E0000
    let busy (u : State) : Prop := u.fw.verifying.isSome = true
    Takes (.fwWrite d) s (fun u k t =>
      let a := 48 * bitsOf d.aux 15 0
      (busy u → t = u.complete k 0x0109) ∧
      (¬ busy u → kib < a + 48 → t = u.complete k 0x010A) ∧
      (¬ busy u → a + 48 ≤ kib → ∃ m, t = { u with fw := { u.fw with mram := m, verified := false } }.complete k 0 ∧
        let base := if u.fw.active = true ∨ u.boot.st = .recovery then 0 else kib
        (∀ i, i < 48 → (tget 0 m (base + a + i)).toNat = d.le (16 + i) 1) ∧
        ∀ x, x < base + a ∨ base + a + 48 ≤ x → tget 0 m x = tget 0 u.fw.mram x)) ∧
    Takes (.fwVerify d) s (fun u k t =>
      (busy u → t = u.complete k 0x0109) ∧
      (¬ busy u → t = { u with fw := { u.fw with verifying := some k } })) ∧
    (∀ ok : Bool, (s.fw.verifying = none → exec (.fwVerifyDone ok) s = .next s) ∧
      ∀ k, s.fw.verifying = some k → Runs (.fwVerifyDone ok) s (fun t =>
        t = State.complete { s with fw := { s.fw with verifying := none, verified := s.fw.verified || ok } } k
          (if ok then 0 else 0x0107))) ∧
    Takes (.fwActivate d) s (fun u k t =>
      (busy u → t = u.complete k 0x0109) ∧
      (¬ busy u → u.fw.verified = false → t = u.complete k 0x0108) ∧
      (¬ busy u → u.fw.verified = true → ∃ b : Bool,
        (b = true ↔ u.fw.active = false ∧ u.boot.st ≠ .recovery) ∧
        t = State.complete { u with fw := { u.fw with next := b, fallback := false } } k 0)) ∧
    Takes (.fwInfo d) s (fun u k t =>
      (busy u → t = u.complete k 0x0109) ∧
      (¬ busy u → ∃ p : Payload, t = u.complete k 0 p ∧
        (∀ i, i < 4 → bitsOf p (8 * i + 7) (8 * i) = (tget 0 u.fw.mram (4 + i)).toNat ∧
          bitsOf p (8 * i + 39) (8 * i + 32) = (tget 0 u.fw.mram (kib + 4 + i)).toNat) ∧
        (bitsOf p 71 64 = if u.boot.st = .recovery then 0xFF else if u.fw.active then 1 else 0) ∧
        (bitsOf p 79 72 = if u.fw.next then 1 else 0) ∧ bitsOf p 127 80 = 0)) ∧
    Takes (.lpLoad d) s (fun u k t =>
      let w := bitsOf d.aux 11 0
      (0xFBA < w → t = u.complete k 0x010A) ∧
      (w ≤ 0xFBA → ∃ b, t = State.complete { u with fw := { u.fw with buffer := b } } k 0 ∧
        (∀ i, i < 6 → (tget 0 b (w + i)).toNat = d.le (16 + 8 * i) 8) ∧
        ∀ x, x < w ∨ w + 6 ≤ x → tget 0 b x = tget 0 u.fw.buffer x)) ∧
    Takes (.lpCommit d) s (fun u k t =>
      let inUser : Prop := ∃ c i, c < 256 ∧ u.ctxEn c = true ∧ i < u.nst c ∧
        0x1000 ≤ (stwEntry (u.stw c i)).toNat ∧ (stwEntry (u.stw c i)).toNat ≤ 0x1FBF
      (u.twin.st ≠ .off → t = u.complete k 0x0712) ∧
      (u.twin.st = .off → inUser → t = u.complete k 0x010B) ∧
      (u.twin.st = .off → ¬ inUser → ∃ f : Fw, t = State.complete { u with fw := f } k 0 ∧
        f = { u.fw with im := f.im, lpMram := if bitOf d.aux 0 then u.fw.buffer else u.fw.lpMram } ∧
        ((∀ p ∈ u.fw.buffer, p.1 < 4096) → ∀ e x, e < 24 → x < 4096 →
          tget 0 f.im (e * 4096 + x) = tget 0 u.fw.buffer x)))

/-- R95; R91 to R94 for a context that runs. -/
def Obligations.CancelledRunsAreResolved : Prop :=
  ∀ (s : State) (d : Desc), let c := bitsOf d.target 7 0
    Takes (.ctxCancel d) s (fun u k t =>
      (u.run c = none → t = u.complete k 0x0C20) ∧
      ((u.run c).isSome = true → ∃ v : State, t = v.complete k 0 ∧
        v = { u with runs := v.runs, flows := v.flows, disp := v.disp, regs := v.regs, host := v.host
                     streams := v.streams, outputs := v.outputs } ∧
        v.disp.tok.dropped = u.disp.tok.dropped ∧ v.disp.tok.stray = u.disp.tok.stray ∧
        v.host.cqs = u.host.cqs ∧ v.host.ledger = u.host.ledger ∧
        (∀ c' i, c' ≠ c → v.stage? c' i = u.stage? c' i) ∧
        ∀ i x, u.stage? c i = some x →
          let gone := x.st = .complete ∨ x.st = .cancelled ∨ x.st = .killed ∨ x.st = .running
          (gone ∨ 16 ≤ i → v.stage? c i = some x) ∧
          (¬ gone → i < 16 →
            (stwRoc (u.stw c i) = false → (v.stage? c i).map StageRun.st = some .cancelled) ∧
            (stwRoc (u.stw c i) = true → ∃ y, v.stage? c i = some y ∧ y.cancelTok = true ∧ y.cnt ≤ x.cnt ∧
              (x.cnt = 0 ∨ (x.cnt = 1 ∧ stwTok (u.stw c i) ≠ 0 ∧ x.extSeen = false) →
                y.cancelRun = true ∧ (y.st = .ready ∨ y.st = .credit))))))

/-- R654 to R674. -/
def Obligations.AcquisitionStreamsRowsAndFires : Prop :=
  ∀ (s : State),
    let byte (r : Rec) (i : Nat) : Nat := bitsOf r.data (8 * i + 7) (8 * i)
    let word (r : Rec) (i : Nat) : Nat := bitsOf r.data (8 * i + 31) (8 * i)
    let room (u : State) (n bytes : Nat) : Prop :=
      u.isOn 20 = true ∧ u.ringEn 2 n = true ∧ ((u.strm n).tail + 1) % u.ringSize 2 n ≠ (u.strm n).head ∧
      bytes * 1000 ≤ min 16384000 ((u.strm n).tokens +
        (u.bt - (u.strm n).filledAt).toNat * u.rf (ACQ_BW n) 0 9 0) ∧
      recBytes (u.strm n).page + bytes < 4096 ∧ (u.strm n).gapOpen = false
    let bal (u : State) (n : Nat) : W32 := (u.acq n).prod - (u.acq n).wr - (u.acq n).gap - u.smpPend n
    let members (u : State) (m : Nat) : Nat := u.rf ACQ_GRP m 7 0
    (∀ d : Desc, let n := bitsOf d.target 7 0 - 161
      let alone (u : State) : Prop := ∀ m, m < 8 → members u m ≠ 0 → m ≠ n ∧ (members u m).testBit n = false
      let master (u : State) : Prop := members u n ≠ 0 ∧ ∀ m, m < n → (members u m).testBit n = false
      let member (u : State) : Prop := members u n = 0 ∧ ∃ m, m < 8 ∧ (members u m).testBit n = true
      let acts (u : State) (j : Nat) : Prop := j = n ∨ (master u ∧ j < 8 ∧ (members u n).testBit j = true)
      Takes (.acqStart d) s (fun u k t =>
        ((u.acq n).st ≠ .idle ∨ u.ctxEn (161 + n) = false → t = u.complete k 0x0B10) ∧
        ((u.acq n).st = .idle → u.ctxEn (161 + n) = true → ∃ v : State, t = v.complete k 0 ∧
          (v.acq n).st = .run ∧ (v.acq n).rows = 0 ∧ (v.acq n).prod = (u.acq n).prod ∧ bal v n = bal u n ∧
          (∀ j, j ≠ n → v.acq j = u.acq j ∧ v.strm j = u.strm j) ∧
          ((u.strm n).gapOpen = false → SameRegsBut u v [] ∧ SameCab u v) ∧
          (room u n 32 → ∃ r : Rec, (v.strm n).page = (u.strm n).page ++ [r] ∧ r.size = 32 ∧
            byte r 0 = 0x40 + n ∧ word r 4 = (u.firstRow n).toNat % 2 ^ 32 ∧
            byte r 8 = (if u.acqFast n then 1 else 0) ∧ word r 12 = u.acqDec n ∧
            word r 16 = u.acqPeriod n % 2 ^ 32 ∧
            v = { u with acqs := v.acqs, streams := v.streams }))) ∧
      Takes (.acqStop d) s (fun u k t =>
        ((u.acq n).st = .idle → t = u.complete k 0x0B10) ∧
        ((u.acq n).st ≠ .idle → ∃ v : State, t = v.complete k 0 ∧ (v.acq n).st = .idle ∧
          bal v n = bal u n ∧ (∀ j, j ≠ n → v.acq j = u.acq j ∧ v.strm j = u.strm j) ∧
          (room u n 32 → ∃ r o, (v.strm n).page = [] ∧ v.outputs = u.outputs ++
              [.page n (u.strm n).tail (padPage ((u.strm n).page ++ [r])),
              .doorbell (0x600 + 4 * n) (w32Bytes (BitVec.ofNat 32 (v.strm n).tail))] ++ o ∧
            byte r 0 = 0x50 + n ∧ word r 4 = (u.acq n).lastRow.toNat % 2 ^ 32 ∧
            word r 8 = (u.acq n).rows.toNat ∧
            (v.strm n).tail = ((u.strm n).tail + 1) % u.ringSize 2 n))) ∧
      Takes (.acqArm d) s (fun u k t =>
        (member u → t = u.complete k 0x0B11) ∧
        (alone u ∨ master u → (u.acq n).st ≠ .run → t = u.complete k 0x0B10) ∧
        (alone u ∨ master u → (u.acq n).st = .run → ∃ v : State, t = v.complete k 0 ∧
          v = { u with acqs := v.acqs } ∧ ∀ j,
            (acts u j → (u.acq j).st = .run → v.acq j = { u.acq j with
              st := .armed, rearm := bitOf d.aux 0, fresh := true, lt0 := {}, lt1 := {}
              holdoff := 0, outside := [] }) ∧
            (¬ acts u j ∨ (u.acq j).st ≠ .run → v.acq j = u.acq j))) ∧
      Takes (.acqDisarm d) s (fun u k t =>
        (member u → t = u.complete k 0x0B11) ∧
        (alone u ∨ master u → ∃ v : State, t = v.complete k 0 ∧ v = { u with acqs := v.acqs } ∧
          ∀ j, (acts u j → (u.acq j).st = .armed → v.acq j = { u.acq j with st := .run, outside := [] }) ∧
            (¬ acts u j ∨ (u.acq j).st ≠ .armed → v.acq j = u.acq j))) ∧
      Takes (.acqForce d) s (fun u k t =>
        ((u.acq n).st ≠ .armed → t = u.complete k 0x0B10) ∧
        ((u.acq n).st = .armed → (u.acq n).holdoff ≠ 0 → t = u.complete k 0) ∧
        ((u.acq n).st = .armed → (u.acq n).holdoff = 0 → ∃ v : State, t = v.complete k 0 ∧
          v = { u with acqs := v.acqs, trig := v.trig, outputs := v.outputs } ∧
          (∀ j, j ≠ n → v.acq j = u.acq j) ∧ v.acq n = { u.acq n with outside := (u.acq n).outside ++
            [{ stamp := u.cyc.t0.toNat * 256, cause := 32, origin := n }] } ∧
          (alone u → v.trig = u.trig ∧ v.outputs = u.outputs) ∧
          (master u → bitOf (u.rg ACQ_TRIG_CTL n) 5 = true → v.trig.low.isSome = true)))) ∧
    (∀ (u : Fin 8) sd lines, let x := s.acq u
      (s.acqFast u = false ∨ x.st = .idle ∨ s.isOn 20 = false → exec (.fastRow u sd lines) s = .next s) ∧
      (s.acqFast u = true → x.st ≠ .idle → s.isOn 20 = true → x.lastRow.toNat + 2 ^ 16 < 2 ^ 64 →
        Runs (.fastRow u sd lines) s (fun t => ∃ at_ : W64,
          let per := s.acqPeriod u
          let val (n : Nat) : W24 := let w := s.rg (ACQ_CH n) u
            if bitsOf w 31 28 = 3 then tget 0 sd (bitsOf w 10 8 * 4 + bitsOf w 1 0)
            else if bitsOf w 31 28 = 5 then (if tget false lines (128 + bitsOf w 3 0) then 1 else 0)
            else (if tget false lines (bitsOf w 10 8 * 16 + bitsOf w 3 0) then 1 else 0)
          let full := s.fullLanes u
          let d0 := { s with bt := t.bt }
          x.lastRow.toNat < at_.toNat ∧ at_.toNat ≤ x.lastRow.toNat + per ∧
          ((at_.toNat : Int) - s.cyc.t0.toNat - s.sampleOfs) % (per : Int) = 0 ∧ at_ ≤ t.bt ∧
          (t.acq u).rows = x.rows + 1 ∧ (t.acq u).lastRow = at_ ∧ bal t u = bal s u ∧
          (∀ j : Nat, j ≠ u.val → t.acq j = s.acq j ∧ t.strm j = s.strm j) ∧ s.bt ≤ t.bt ∧
          (s.decLanes u = [] → (t.acq u).prod = x.prod + BitVec.ofNat 32 full.length) ∧
          (s.decLanes u = [] → x.st = .run → full ≠ [] → full.length ≤ 8 →
            (room d0 u 32 → ∃ r : Rec, (t.strm u).page = (s.strm u).page ++ [r] ∧ r.size = 32 ∧
              r.samples = full.length ∧ byte r 0 = 0x10 + u.val ∧ byte r 1 = 0 ∧ byte r 2 = 0 ∧
              byte r 3 = full.length ∧ word r 4 = at_.toNat % 2 ^ 32 ∧
              (∀ i, i < full.length → bitsOf r.data (24 * i + 87) (24 * i + 64) =
                (val (full.getD i 0)).toNat) ∧ SameRegsBut s t []) ∧
            (s.ringEn 2 u = false → (t.strm u).page = (s.strm u).page ∧ (t.strm u).gapOpen = true ∧
              (t.strm u).gapRows = (s.strm u).gapRows + 1 ∧
              (t.strm u).gapSamples = (s.strm u).gapSamples + full.length ∧
              (t.acq u).gap = x.gap + BitVec.ofNat 32 full.length ∧
              t.rg ACQ_ROWS_GAP u = satAdd (s.rg ACQ_ROWS_GAP u) 1)) ∧
          ∀ p, x.st = .armed → x.holdoff = 0 → x.outside = [] → (∀ m, m < 8 → members s m = 0) →
            x.prev = some p → s.decLanes u = [] → full.length ≤ 8 →
            let fired (cause sf stamp : Nat) : Prop := (t.acq u).fires = x.fires + 1 ∧
              (t.acq u).st = (if x.rearm then .armed else .run) ∧ (t.acq u).holdoff = s.rf ACQ_TRIG_CTL u 31 16 ∧
              t.rg ACQ_FIRES u = satAdd (s.rg ACQ_FIRES u) 1 ∧
              (room d0 u 64 → ∃ r ∈ (t.strm u).page, byte r 0 = 0x20 + u.val ∧ byte r 1 = cause ∧
                byte r 2 = u.val ∧ byte r 3 = sf ∧ word r 4 = stamp / 256 % 2 ^ 32 ∧ byte r 8 = stamp % 256 ∧
                bitsOf r.data 95 80 = 0xFFFF ∧ word r 16 = x.fires.toNat)
            (s.rf ACQ_TRIG_CTL u 2 0 = 1 →
              let now := ∀ n, n < 32 → bitOf (s.rg ACQ_PAT_CARE u) n = true → n ∈ s.channels u →
                (val n).getLsbD 0 = bitOf (s.rg ACQ_PAT_VAL u) n
              (∀ n, n < 32 → bitOf (s.rg ACQ_PAT_CARE u) n = true → n ∈ s.channels u) →
                (now → x.patWas = false → fired 1 0 (at_.toNat * 256)) ∧
                (¬ now ∨ x.patWas = true → (t.acq u).fires = x.fires ∧ (t.acq u).st = .armed)) ∧
            (s.rf ACQ_TRIG_CTL u 2 0 = 2 → s.rf ACQ_LT0 u 9 8 = 1 → x.fresh = false →
              s.rf ACQ_LT0 u 4 0 ∈ s.channels u →
              let n := s.rf ACQ_LT0 u 4 0
              let lvl := sbitsOf (s.rg ACQ_LT0_LVL u) 23 0
              let v0 := (tget 0 p.vals n).toInt
              let v1 := (val n).toInt
              let sf := if v1 = v0 then 0 else (max 0 (min 255 (Int.fdiv (256 * (lvl - v0)) (v1 - v0)))).toNat
              (x.lt0.up = true → lvl ≤ v1 → fired 2 sf (p.at_.toNat * 256 + sf * per)) ∧
              (x.lt0.up = false ∨ v1 < lvl → (t.acq u).fires = x.fires ∧ ((t.acq u).lt0.up = true ↔
                x.lt0.up = true ∨ v1 ≤ lvl - s.rf ACQ_LT0_HYST u 23 0)))))) ∧
    (∀ m, m < 8 → ((∀ j, j < 8 → j = m ∨ (members s m).testBit j = true → (s.acq j).outside = []) →
        s.resolveGroup m = s) ∧
      ∀ k f, k < 8 → k = m ∨ (members s m).testBit k = true → f ∈ (s.acq k).outside →
        ∀ j, j < 8 → j = m ∨ (members s m).testBit j = true → (s.acq j).st = .armed →
          ((s.acq j).outside = [] → (s.acq j).holdoff ≠ 0 → (s.resolveGroup m).acq j = s.acq j) ∧
          ((s.acq j).outside ≠ [] ∨ (s.acq j).holdoff = 0 → ((s.resolveGroup m).acq j).fires = (s.acq j).fires + 1 ∧
            ((s.resolveGroup m).acq j).st = (if (s.acq j).rearm then .armed else .run))) ∧
    (s.isOn 20 = false ∨ s.trig.low.isSome = true → exec .trigIoEdge s = .next s) ∧
    (s.isOn 20 = true → s.trig.low = none → Runs .trigIoEdge s (fun t =>
      t = { s with acqs := t.acqs, trig := t.trig, outputs := t.outputs } ∧
      ∀ j, t.acq j = if j < 8 ∧ bitOf (s.rg ACQ_TRIG_CTL j) 4 = true ∧ (s.acq j).st = .armed ∧
          (s.acq j).holdoff = 0 then
        { s.acq j with outside := (s.acq j).outside ++ [{
            stamp := (s.bt - BitVec.ofNat 64 (s.rf ACQ_TRIG_IO 0 7 0)).toNat * 256, cause := 16, origin := j }] }
        else s.acq j)) ∧
    (s.trig.low = none → exec .trigIoPulseEnd s = .next s) ∧
    (∀ b, s.trig.low = some b → Runs .trigIoPulseEnd s (fun t => b + 1000 ≤ t.bt ∧ t.trig.low = none ∧
      t.outputs = s.outputs ++ [.ball .trigIo .hiz] ∧
      t = { s with bt := t.bt, frac := t.frac, tm := t.tm, trig := t.trig, outputs := t.outputs })) ∧
    (∀ n : Fin 9, let x := s.strm n
      let full : Prop := (x.tail + 1) % s.ringSize 2 n = x.head
      (x.page = [] ∨ s.ringEn 2 n = false ∨ full ∨ s.isOn 20 = false →
        exec (.acqPageTimeout n) s = .next s) ∧
      (x.page ≠ [] → s.ringEn 2 n = true → ¬ full → s.isOn 20 = true → Runs (.acqPageTimeout n) s (fun t =>
        ∃ o, t.outputs = s.outputs ++ [.page n x.tail (padPage x.page),
          .doorbell (0x600 + 4 * n.val) (w32Bytes (BitVec.ofNat 32 (t.strm n).tail))] ++ o ∧
        x.pageAt + BitVec.ofNat 64 (s.rf ACQ_PAGE_TMO 0 15 0 * 1000) ≤ t.bt ∧
        t.strm n = { x with page := [], tail := (x.tail + 1) % s.ringSize 2 n } ∧
        (∀ j, j < 8 → bal t j = bal s j) ∧ (∀ j : Nat, j ≠ n.val → t.strm j = s.strm j ∧ t.acq j = s.acq j) ∧
        t = { s with bt := t.bt, frac := t.frac, tm := t.tm, streams := t.streams, acqs := t.acqs
                     outputs := t.outputs, host := t.host }))) ∧
    ∀ v : W32, s.isOn 1 = true →
      (bitOf v 0 = false → exec (.acqLatch v) s = .next s) ∧
      (bitOf v 0 = true → Runs (.acqLatch v) s (fun t => let n := s.rf ACQ_SEL 0 2 0
        t = { s with regs := t.regs } ∧ SameRegsBut s t [regKey ACQ_SMP_PROD n, regKey ACQ_SMP_WR n,
          regKey ACQ_SMP_GAP n, regKey ACQ_SMP_PEND n] ∧
        t.rg ACQ_SMP_PROD n = (s.acq n).prod ∧ t.rg ACQ_SMP_WR n = (s.acq n).wr ∧
        t.rg ACQ_SMP_GAP n = (s.acq n).gap ∧ t.rg ACQ_SMP_PEND n = s.smpPend n ∧
        (bal s n = 0 → t.rg ACQ_SMP_PROD n = t.rg ACQ_SMP_WR n + t.rg ACQ_SMP_GAP n + t.rg ACQ_SMP_PEND n)))

/-- R679 to R704. -/
def Obligations.RecorderFlushesAndRecovers : Prop :=
  ∀ (s : State),
    let base := 0x300000
    let asked (h : Option HeldFlush) (c : Nat) (cmds : List Cmd) (r : Option HeldFlush) : Prop := match h with
      | none => r = some ⟨c, cmds⟩
      | some x => r = some ⟨if x.cause = 4 ∨ x.cause = 5 then x.cause else c, x.cmds ++ cmds⟩
    let starts (u t : State) (cause : Nat) (cmds : List Cmd) : Prop := ∃ f : Flush,
      t = { u with recd := t.recd } ∧ t.recd.flush = some f ∧ f.cause = cause ∧ f.seq = u.recd.seq + 1 ∧
      f.cmds = cmds ∧ f.startAt = u.bt ∧ f.pages.length ≤ 16 ∧ (∀ p ∈ f.pages, p ∈ u.recd.dirty) ∧
      (0 ∈ u.recd.dirty → f.pages.head? = some 0) ∧ f.images = f.pages.map u.pageImage ∧
      (∀ p, p ∈ t.recd.dirty ↔ p ∈ u.recd.dirty ∧ p ∉ f.pages) ∧ t.recd.chest0 = u.recd.chest0 ∧
      t.recd.chest1 = u.recd.chest1 ∧ t.recd.seq = u.recd.seq
    (s.isOn 1 = false → exec .periodicFlushDue s = .next s) ∧
    (s.isOn 1 = true → Runs .periodicFlushDue s (fun t =>
      t = { s with recd := { s.recd with held := t.recd.held } } ∧ asked s.recd.held 4 [] t.recd.held)) ∧
    (∀ d, Takes (.recFlush d) s (fun u k t => ∃ c, k = some c ∧
      t = { u with recd := { u.recd with held := t.recd.held } } ∧ asked u.recd.held 5 [c] t.recd.held)) ∧
    (let may := s.recd.flush = none ∧ s.recd.recovered = true ∧ (s.cyc.running = true → s.cyc.phase = .sill)
      let soon (h : HeldFlush) : Prop := h.cause = 2 ∧
        ∃ b, s.recd.lastFault = some b ∧ (s.bt - b).toNat < 1000000000
      (¬ may → exec .flushStart s = .next s) ∧
      (may → s.recd.refreshPages = none → (∀ h, s.recd.held = some h → soon h) →
        exec .flushStart s = .next s) ∧
      (may → s.recd.refreshPages = none → ∀ h, s.recd.held = some h → ¬ soon h →
        Runs .flushStart s (fun t => ∃ u : State, starts u t h.cause h.cmds ∧
          u = State.recBump { s with recd := { s.recd with
            held := none, lastFault := if h.cause = 2 then some s.bt else s.recd.lastFault } } 336)) ∧
      (may → ∀ ps, s.recd.refreshPages = some ps → Runs .flushStart s (fun t => ∃ f : Flush,
        t.recd.flush = some f ∧ f.cause = 6 ∧ f.pages = ps ∧ t.recd.held = s.recd.held))) ∧
    (∀ r0 r1 f0 f1, s.recd.flush = none → exec (.flushCommit r0 r1 f0 f1) s = .next s) ∧
    (∀ r0 r1 f0 f1 f, s.recd.flush = some f → f.pages.length ≤ 16 → Runs (.flushCommit r0 r1 f0 f1) s (fun t =>
      let bad (c : Chest) (r : Nat) (x : Bool) : Prop := x = true ∨ 64 < c.retired + r
      let entry : JEntry := { seq := f.seq, cause := f.cause, pages := f.pages, images := f.images
                              minutes := s.boot.opMinutes }
      let takes (old new : Chest) (r : Nat) (x : Bool) : Prop := new.retired = old.retired + r ∧
        (new.failed = true ↔ old.failed = true ∨ bad old r x) ∧
        (new.failed = true → new.journal = old.journal) ∧
        (new.failed = false → new.journal.getLast? = some entry ∧
          ∃ n, new.journal = (old.journal ++ [entry]).drop n)
      takes s.recd.chest0 t.recd.chest0 r0 f0 ∧ takes s.recd.chest1 t.recd.chest1 r1 f1 ∧
      t.recd.seq = f.seq ∧ (s.isOn 1 = true → t.rg REC_FLUSHES = satAdd (s.rg REC_FLUSHES) 1) ∧
      (s.pwr.failed = true → t.pwr.hold = true ∧ t.boot.st = .held ∧ t.recd.flush = none ∧
        ∀ d, 1 ≤ d → d ≤ 22 → t.isOn d = false) ∧
      (s.pwr.failed = false → ¬ bad s.recd.chest0 r0 f0 → ¬ bad s.recd.chest1 r1 f1 →
        (f.cause = 4 ∨ f.cause = 5 → s.recd.dirty ≠ [] → ∃ g : Flush, t.recd.flush = some g ∧
          g.cause = f.cause ∧ g.seq = f.seq + 1 ∧ g.cmds = f.cmds) ∧
        ((f.cause ≠ 4 ∧ f.cause ≠ 5) ∨ s.recd.dirty = [] → t.recd.flush = none ∧ SameCab s t ∧
          SameRegsBut s t [regKey REC_FLUSHES 0, regKey REC_FLUSH_MAX 0] ∧
          (f.cmds = [] → t.host = s.host) ∧
          ∀ c, f.cmds = [c] → ∃ (v : State) (p : Payload), t = v.complete (some c) 0 p ∧
            v.host = s.host ∧ bitsOf p 31 0 = f.seq.toNat ∧ bitsOf p 127 32 = 0)))) ∧
    (s.pwr.counting = false → exec .opMinuteTick s = .next s) ∧
    (s.pwr.counting = true → Runs .opMinuteTick s (fun t => let m := satAdd s.boot.opMinutes 1
      t = { s with boot := { s.boot with opMinutes := m, secRem := 0, minAt := s.bt }
                   cab := t.cab, recd := { s.recd with dirty := t.recd.dirty } } ∧
      t.cabWord (base + 4) = m ∧ t.cabByte (base + 8) = 0 ∧
      ∀ a, a < base + 4 ∨ base + 9 ≤ a → t.cabByte a = s.cabByte a)) ∧
    (∀ vin vbrk tj, Runs (.supplySample vin vbrk tj) s (fun t =>
      t = { s with pwr := { s.pwr with vin := vin, vbrk := vbrk, tj := tj }, cab := t.cab, boot := t.boot
                   recd := { s.recd with dirty := t.recd.dirty } } ∧
      t.boot = (if t.pwr.counting = s.pwr.counting then s.boot
        else { s.boot with secRem := BitVec.ofNat 8 s.secNow, minAt := s.bt }) ∧
      (s.recd.recovered = false → SameCab s t) ∧
      (∀ a, a < base + 8 ∨ (base + 9 ≤ a ∧ a < base + 288) ∨ base + 320 ≤ a → t.cabByte a = s.cabByte a) ∧
      (s.recd.recovered = true → s.cabWord (base + 288) ≠ 0 →
        let ext (off : Nat) (v : W32) (better : Prop) : Prop :=
          (better → t.cabWord (base + off) = v ∧ t.cabWord (base + off + 4) = s.boot.opMinutes) ∧
          (¬ better → t.cabWord (base + off) = s.cabWord (base + off) ∧
            t.cabWord (base + off + 4) = s.cabWord (base + off + 4))
        ext 288 (vin.setWidth 32) (vin.toNat < (s.cabWord (base + 288)).toNat) ∧
        ext 296 (vin.setWidth 32) ((s.cabWord (base + 296)).toNat < vin.toNat) ∧
        ext 304 (tj.signExtend 32) (tj.toInt < (s.cabWord (base + 304)).toInt) ∧
        ext 312 (tj.signExtend 32) ((s.cabWord (base + 312)).toInt < tj.toInt)))) ∧
    (s.boot.resetN = false ∨ s.recd.flush ≠ none → exec .resetHeldEntry s = .next s) ∧
    (s.boot.resetN = true → s.recd.flush = none → Runs .resetHeldEntry s (fun t =>
      t = { s with boot := { s.boot with heldSec := t.boot.heldSec }, recd := t.recd } ∧
      (s.boot.heldSec = 0 → t.boot.heldSec = 10 ∧ t.recd.seq = s.recd.seq + 1 ∧ ∀ k, k < 2 →
        (s.recd.chest k).failed = false → (s.recd.chest k).retired ≤ 64 →
          ∃ e : JEntry, (t.recd.chest k).journal.getLast? = some e ∧
            e.seq = s.recd.seq + 1 ∧ e.cause = 7 ∧ e.pages = [] ∧ e.arg = 10 ∧ e.minutes = s.boot.opMinutes) ∧
      (s.boot.heldSec ≠ 0 → t.boot.heldSec = s.boot.heldSec + 60 ∧ t.recd.seq = s.recd.seq ∧ ∀ k, k < 2 →
        (s.recd.chest k).failed = false → (t.recd.chest k).journal = (s.recd.chest k).journal.map (fun e =>
          if e.seq = s.recd.seq ∧ e.cause = 7 then { e with arg := BitVec.ofNat 32 (s.boot.heldSec + 60) }
          else e)))) ∧
    (let due := s.recd.recovered = false ∧ s.recd.flush = none ∧
        (s.boot.st = .checked ∨ s.boot.st = .running ∨ s.boot.st = .recovery);
      (∀ b0 b1 f0 f1, ¬ due → exec (.recRecovery b0 b1 f0 f1) s = .next s) ∧
      (∀ b0 b1 f0 f1, due → Runs (.recRecovery b0 b1 f0 f1) s (fun t => t.recd.recovered = true ∧
        t.boot.causes = [] ∧
        (∀ k, k < 2 → (if k = 0 then f0 else f1) = true → (t.recd.chest k).failed = true) ∧
        (s.recd.held = none → ∃ h, t.recd.held = some h ∧ h.cause ≤ 2) ∧
        let ok (bad : List Nat) (c : Chest) : List JEntry :=
          c.journal.filter (fun e => e.committed && decide (e.seq.toNat ∉ bad))
        let e0 := ok b0 s.recd.chest0
        let e1 := ok b1 s.recd.chest1
        t.recd.chest0.journal = e0 ∧ t.recd.chest1.journal = e1 ∧
        (∀ e, e ∈ e0 ∨ e ∈ e1 → e.seq.toNat ≤ t.recd.seq.toNat) ∧
        (s.recd.chest0.failed = false → s.recd.chest1.failed = false → s.recd.chest0.retired ≤ 64 →
          s.recd.chest1.retired ≤ 64 → f0 = false → f1 = false →
          (∀ e, e ∈ e0 ∨ e ∈ e1 → e.images.length = e.pages.length ∧
            ∀ i ∈ e.images, twf (0 : Byte) i = true ∧ ∀ x ∈ i, x.1 < 4096) →
            (∀ a, a < base ∨ base + 0x40000 ≤ a → t.cabByte a = s.cabByte a) ∧
            ∀ p off, 16 ≤ p → p < 48 → off < 4096 →
            let of_ (es : List JEntry) : Option JEntry := (es.filter (fun e => decide (p ∈ e.pages))).getLast?
            let byte (e : JEntry) : Byte := tget 0 (e.images.getD (e.pages.idxOf p) []) off
            t.cabByte (base + p * 4096 + off) = match of_ e0, of_ e1 with
              | some x, some y => if x.seq.toNat < y.seq.toNat then byte y else byte x
              | some x, none => byte x
              | none, some y => byte y
              | none, none => 0) ∧
        (e0 = [] → e1 = [] → s.boot.causes = [0] → t.cabWord base = 0x09128EC0 ∧
          t.cabWord (base + 12) = 1 ∧ t.cabWord (base + 16) = 1 ∧ t.cabWord (base + 4) = 0))) ) ∧
    (∀ d : Desc, let o := 16 * bitsOf d.aux 13 0
      let is (p : Payload) (f : Nat → Byte) : Prop := ∀ i, i < 16 → bitsOf p (8 * i + 7) (8 * i) = (f i).toNat
      Takes (.recRead d) s (fun u k t =>
        (bitsOf d.aux 17 16 = 0 → ∃ p, t = u.complete k 0 p ∧ is p (fun i => u.cabByte (base + o + i))) ∧
        ∀ n, n < 2 → bitsOf d.aux 17 16 = n + 1 →
          ((u.recd.chest n).failed = true → t = u.complete k 0x0A10) ∧
          ((u.recd.chest n).failed = false → ∃ p, t = u.complete k 0 p ∧
            ∀ e, (((u.recd.chest n).journal.filter (fun e => e.committed && decide (o / 4096 ∈ e.pages))).getLast?
                = some e → is p (fun i => tget 0 (e.images.getD (e.pages.idxOf (o / 4096)) []) (o % 4096 + i)))))) ∧
    ∀ (n ep : Nat) (i v rated : Rat), 1 ≤ n → n ≤ 128 → 0 < rated → 0 ≤ i → 0 ≤ v →
      let t := s.recordRun n ep i v rated
      let a := base + 0x10000 + (n - 1) * 1024
      let bin (first b : Nat) : Prop := b < 32 ∧ ∀ k, k < 32 → t.cabWord (a + first + 4 * k) =
        if k = b then satAdd (s.cabWord (a + first + 4 * k)) 1 else s.cabWord (a + first + 4 * k)
      t = { s with cab := t.cab, recd := { s.recd with dirty := t.recd.dirty } } ∧
      (∃ b, bin 0 b ∧ (b = 0 ↔ ep = 0) ∧ (1 ≤ b → b ≤ 30 → 2 ^ (b - 1) ≤ ep ∧ ep < 2 ^ b) ∧
        (b = 31 → 2 ^ 30 ≤ ep)) ∧
      bin 128 (min 31 (8 * (i / rated)).floor.toNat) ∧ bin 256 (min 31 (32 * v).floor.toNat) ∧
      (let m := min ep (2 ^ 32 - 1);
        (t.cabWord (a + 384)).toNat = max (s.cabWord (a + 384)).toNat m ∧ t.cabWord (a + 388) =
          if (s.cabWord (a + 384)).toNat < m then s.boot.opMinutes else s.cabWord (a + 388)) ∧
      t.cabWord (a + 408) = satAdd (s.cabWord (a + 408)) 1 ∧ t.cabWord (a + 412) = s.cabWord (a + 412) ∧
      ∀ x, x < a ∨ a + 412 ≤ x → t.cabByte x = s.cabByte x

/-- R715 to R727, R731. -/
def Obligations.PowerDomainsMoveAsAsked : Prop :=
  ∀ (s : State),
    let owned (u : State) (k : Nat) (t : DomTgt) : Dom := { u.dom k with hostOwned := true, down := decide (t ≠ .on) }
    let canOwn (k : Nat) : Prop := (3 ≤ k ∧ k ≤ 6) ∨ (11 ≤ k ∧ k ≤ 14)
    let anyAxis (p : Nat → Prop) : Prop := ∃ c, 1 ≤ c ∧ c ≤ 128 ∧ p c
    let refused (u : State) (k n : Nat) : Prop :=
      let names := ∃ c, c < 256 ∧ u.ctxEn c = true ∧ let h := u.hdr c
        (hdrPin h = 1 ∧ hdrPinId h = k - 3) ∨ (hdrPin h = 2 ∧ hdrPinId h / 6 = k - 3) ∨
          (hdrKeep h ≠ 0 ∧ (u.ctx c).home / 6 = k - 3)
      let nearEn := anyAxis (fun c => u.ctxEn c = true ∧ u.isNear c = true)
      (3 ≤ k ∧ k ≤ 6 ∧ ((n = 1 ∧ names) ∨ (n = 2 ∧ ¬ names ∧ u.needsCluster (k - 3) = true))) ∨
      (k = 7 ∧ n = 3 ∧ ∃ c, c < 256 ∧ u.ctxEn c = true) ∨
      ((k = 8 ∨ k = 9) ∧ n = 4 ∧ (anyAxis (fun c => (u.ax c).mode = .cam) ∨
        ∃ j, j < 64 ∧ (u.cam j).computing = true)) ∨
      (k = 10 ∧ n = 5) ∨ (k = 15 ∧ n = 6 ∧ (u.ring 0).st ≠ .off) ∨ (k = 16 ∧ n = 6 ∧ (u.ring 1).st ≠ .off) ∨
      (k = 17 ∧ n = 7 ∧ u.twin.st ≠ .off) ∨ (k = 18 ∧ n = 8 ∧ bitOf (u.rg TIME_CTL) 0 = true) ∨
      (k = 19 ∧ n = 9 ∧ (bitOf (u.rg HOST_CTL) 2 = true ∨ anyAxis (fun c => (u.ax c).enabled = true))) ∨
      (k = 20 ∧ n = 10 ∧ ((∃ j, j < 8 ∧ (u.acq j).st ≠ .idle) ∨ bitOf (u.rg DISP_TRC_CTL) 0 = true)) ∨
      (k = 21 ∧ n = 11 ∧ ((∃ m, m < 8 ∧ (u.pwm m).st ≠ .disabled) ∨ nearEn)) ∨
      (k = 22 ∧ n = 12 ∧ (nearEn ∨ (∃ j, j < 16 ∧ u.goLevel j = true) ∨ u.rg EVT_GO_OWN ≠ 0))
    (∀ d : Desc, let k := bitsOf d.aux 4 0
      let st := bitsOf d.aux 9 8
      Takes (.pwrSet d) s (fun u cmd t => let x := u.dom k
        let put (y : Dom) : State := u.setDom k y
        (k ≤ 2 ∨ 22 < k ∨ (st = 3 ∧ ¬ canOwn k) → t = u.complete cmd 0x0921) ∧
        (3 ≤ k → k ≤ 22 →
          (st = 3 → canOwn k → t = (put { x with hostOwned := false, down := false }).complete cmd 0) ∧
          (st = 0 → let y := owned u k .on
            (x.st = .on → t = (put y).complete cmd 0) ∧
            (x.st = .ret → t = put { y with st := .waking, startAt := u.bt, wakeCmds := x.wakeCmds ++ [cmd] }) ∧
            (x.st = .off → t = put { y with st := .leavingOff, startAt := u.bt, wakeCmds := x.wakeCmds ++ [cmd] }) ∧
            (x.st = .entering ∨ x.st = .waking ∨ x.st = .leavingOff →
              t = put { y with latched := some .on, latchedCmds := x.latchedCmds ++ [cmd] })) ∧
          (st = 1 ∨ st = 2 →
            (∀ n, refused u k n → ∃ p : Payload, t = (u.bump PWR_REFUSED_CNT).complete cmd 0x0920 p ∧
              bitsOf p 7 0 = k ∧ bitsOf p 15 8 = n ∧ bitsOf p 127 16 = 0) ∧
            ((∀ n, ¬ refused u k n) → let g : DomTgt := if st = 1 then .ret else .off
              let y := owned u k g
              (x.st = .on → t = put { y with st := .entering, tgt := g, begun := false, cmds := x.cmds ++ [cmd] }) ∧
              (x.st = .ret ∨ x.st = .off → t = (put { y with
                  st := if x.st = .off ∨ st = 2 then .off else .ret }).complete cmd 0) ∧
              (x.st = .entering ∨ x.st = .waking ∨ x.st = .leavingOff →
                t = put { y with latched := some g, latchedCmds := x.latchedCmds ++ [cmd] })))))) ∧
    (s.cyc.running = true → s.cyc.phase ≠ .sill → exec .retentionEntry s = .next s) ∧
    (∀ d, d < 23 → (s.cyc.running = false ∨ s.cyc.phase = .sill) → s.disp.retain = [] →
      (s.dom d).st = .entering → (s.dom d).begun = false →
      (∀ e, e < 23 → e ≠ d → ¬ ((s.dom e).st = .entering ∧ (s.dom e).begun = false)) →
      Runs .retentionEntry s (fun t => t.dom d = { s.dom d with begun := true, startAt := s.bt } ∧
        (¬ (3 ≤ d ∧ d ≤ 6) → d ≠ 19 → t = s.setDom d { s.dom d with begun := true, startAt := s.bt }) ∧
        (d = 19 → t.boot.linkUp = false ∧ t.host.lost = true ∧ bitOf (t.rg HOST_CTL) 0 = false) ∧
        (3 ≤ d → d ≤ 6 →
          (∀ i k, i < 6 → k < 12 → tget 0 (t.eng (6 * (d - 3) + i)).slots k = 0) ∧
          (∀ e, e / 6 ≠ d - 3 → t.eng e = s.eng e) ∧
          (∀ c, c < 256 → s.ctxEn c = true → hdrPin (s.hdr c) = 0 → hdrKeep (s.hdr c) = 0 →
            (∃ q, q < 4 ∧ s.isOn (3 + q) = true) → (t.ctx c).home < 24 → (t.ctx c).home / 6 ≠ d - 3)))) ∧
    (∀ k : Fin 4, let d := 11 + k.val
      let ok := s.cyc.phase = .sill ∧ s.rf PWR_CAB_IDLE 0 15 0 ≤ (s.dom d).idle ∧ (s.dom d).hostOwned = false ∧
        (s.dom d).st = .on
      (¬ ok → exec (.cabIdleExpire k) s = .next s) ∧
      (ok → ∃ p : Payload, bitsOf p 7 0 = d ∧ exec (.cabIdleExpire k) s = .next ((s.setDom d { s.dom d with
        st := .entering, tgt := .ret, begun := false }).post 0x0909 .info 0 p))) ∧
    (∀ d : Fin 23, let x := s.dom d
      let ends (t : State) : Prop := t.rg PWR_ENTRIES d = satAdd (s.rg PWR_ENTRIES d) 1 ∧ (t.dom d).latched = none
      let st : DomSt := if x.tgt = .off then .off else .ret
      (x.st ≠ .entering ∨ x.begun = false → exec (.entryComplete d) s = .next s) ∧
      (x.st = .entering → x.begun = true →
        (x.latched = none → exec (.entryComplete d) s = .next (x.cmds.foldl (fun (u : State) c => u.complete c 0)
          ((s.setDom d { x with st := st, cmds := [], begun := false }).bump PWR_ENTRIES d))) ∧
        (x.latched ≠ none → Runs (.entryComplete d) s (fun t => ends t ∧
          t.rg PWR_REPLAYS d = satAdd (s.rg PWR_REPLAYS d) 1 ∧ (t.dom d).cmds = [] ∧
          (∀ e, e ≠ d.val → t.dom e = s.dom e) ∧ SameRegsBut s t [regKey PWR_ENTRIES d, regKey PWR_REPLAYS d] ∧
          (x.latched = some .on → (t.dom d).st = (if st = .off then .leavingOff else .waking) ∧
            (t.dom d).wakeCmds = x.wakeCmds ++ x.latchedCmds) ∧
          (x.latched = some .ret → (t.dom d).st = st) ∧ (x.latched = some .off → (t.dom d).st = .off))))) ∧
    (∀ k : Fin 6, let d := if k.val = 0 then 19 else if k.val = 5 then 20 else 15 + (k.val - 1) / 2
      let x := s.dom d
      (bitOf (s.rg PWR_WAKE) k = false ∨ x.st = .on → exec (.wakeEvent k) s = .next s) ∧
      (bitOf (s.rg PWR_WAKE) k = true → x.st ≠ .on → Runs (.wakeEvent k) s (fun t => t = s.setDom d (
        if x.st = .ret then { x with st := .waking, startAt := s.bt }
        else if x.st = .off then { x with st := .leavingOff, startAt := s.bt }
        else { x with latched := some .on })))) ∧
    (∀ (d : Fin 23) (m : BitVec 12), let x := s.dom d
      let l : BitVec 12 := m &&& (if 3 ≤ d.val ∧ d.val ≤ 6 then 0xFFF else if 7 ≤ d.val ∧ d.val ≤ 14 then 1 else 0)
      let on (t : State) (l : BitVec 12) : Prop := t.dom d = { x with
          st := .on, lost := l, usable := !s.cyc.running, accPosted := false, idle := 0
          wakeCmds := if s.cyc.running then x.wakeCmds else [] } ∧
        (∀ e, e ≠ d.val → t.dom e = s.dom e) ∧ t.rg PWR_WAKES d = satAdd (s.rg PWR_WAKES d) 1 ∧
        (t.rg PWR_WAKE_MAX d).toNat = max (s.rg PWR_WAKE_MAX d).toNat (min 0xFFFF ((s.bt - x.startAt).toNat / 100))
      let lostIm (t : State) (p : Nat → Prop) : Prop := (∀ q ∈ s.fw.lpMram, q.1 < 4096) → ∀ e w, e < 24 → w < 4096 →
        (p e → tget 0 t.fw.im (e * 4096 + w) = tget 0 s.fw.lpMram w) ∧
        (¬ p e → tget 0 t.fw.im (e * 4096 + w) = tget 0 s.fw.im (e * 4096 + w))
      let bank (t : State) : Prop := ∀ a, ¬ (0x300000 ≤ a ∧ a < 0x340000) →
        t.cabByte a = if a / 0x100000 = d.val - 7 then 0 else s.cabByte a
      let inCl (e : Nat) : Prop := 3 ≤ d.val ∧ d.val ≤ 6 ∧ e / 6 = d.val - 3
      (x.st ≠ .waking → exec (.wakeComplete d m) s = .next s) ∧
      (x.st = .waking → x.latched = none → Runs (.wakeComplete d m) s (fun t => on t l ∧
        (l = 0 → t = { s with regs := t.regs, pwr := t.pwr, host := t.host, outputs := t.outputs } ∧
          (d.val ≠ 22 → t.outputs = s.outputs) ∧
          (d.val = 22 → ∀ n, n < 16 → t.goLevel n = true → .ball (.go n) .high ∈ t.outputs) ∧ t.rg PWR_LOST d = s.rg PWR_LOST d ∧
          (s.cyc.running = true → t.host = s.host)) ∧
        (l ≠ 0 → (t.rg PWR_LOST d).toNat =
            min 0xFFFFFFFF ((s.rg PWR_LOST d).toNat + ((List.range 12).filter (fun k => l.getLsbD k)).length) ∧
          t.host.ledger.posted = s.host.ledger.posted + 1 ∧ t.recd.held.isSome = true) ∧
        (∀ e, e < 24 → ((inCl e ∧ l.getLsbD (6 + e % 6) = true → (t.eng e).ldm = [] ∧ (t.eng e).slots = []) ∧
          (¬ (inCl e ∧ l.getLsbD (6 + e % 6) = true) → t.eng e = s.eng e))) ∧
        (3 ≤ d.val → d.val ≤ 6 → l ≠ 0 → lostIm t (fun e => inCl e ∧ l.getLsbD (e % 6) = true)) ∧
        (7 ≤ d.val → d.val ≤ 14 → l ≠ 0 → bank t) ∧
        (∀ j, j < 64 → d.val = 8 + j / 32 → l ≠ 0 → (t.cam j).ready = false))) ∧
      (x.st ≠ .leavingOff → exec (.leaveOffComplete d) s = .next s) ∧
      (x.st = .leavingOff → x.latched = none → Runs (.leaveOffComplete d) s (fun t => on t 0 ∧
        (∀ e, e < 24 → (inCl e → (t.eng e).ldm = [] ∧ (t.eng e).slots = []) ∧ (¬ inCl e → t.eng e = s.eng e)) ∧
        (3 ≤ d.val → d.val ≤ 6 → lostIm t inCl) ∧ (7 ≤ d.val → d.val ≤ 14 → bank t) ∧
        (d.val < 7 ∨ 14 < d.val → SameCab s t) ∧ (d.val = 21 → t.fbs = [] ∧ t.pwms = []) ∧
        (d.val ≠ 21 → t.fbs = s.fbs ∧ t.pwms = s.pwms) ∧ t.axes = s.axes ∧
        (d.val = 20 → t.acqs = [] ∧ ∀ k, t.strm k = { head := (s.strm k).head, tail := (s.strm k).tail }) ∧
        (d.val ≠ 20 → t.acqs = s.acqs ∧ t.streams = s.streams) ∧
        t.go = (if d.val = 22 then { fars := s.go.fars } else s.go) ∧
        ∀ p, p < 5 → (portDom p = d.val → t.port p = { s.port p with lock := false, hiBer := false, up := false } ∧
            t.dir p = {}) ∧
          (portDom p ≠ d.val → t.port p = s.port p ∧ t.dir p = s.dir p))))

/-- R708 to R713, R729, R730, R747. -/
def Obligations.SuppliesPostAndPowerFailureHolds : Prop :=
  ∀ (s : State),
    let posted (code : BitVec 16) (sev : Sev) : State := if s.isOn 1 then s.post code sev 0 else s
    exec .vinLow s = .next (posted 0x0903 .warn) ∧
    exec .vinHigh s = .next (posted 0x0904 .severe) ∧
    exec .vbrkLow s = .next (posted 0x0905 .warn) ∧
    exec .vbrkHigh s = .next (posted 0x0906 .warn) ∧
    exec .tjHigh s = .next (posted 0x0908 .warn) ∧
    (∀ b : Fin 4,
      Runs (.vioFailEnd b) s (fun t => t = { s with
          outputs := t.outputs,
          pwr := { s.pwr with vioFail := s.pwr.vioFail &&& ~~~ BitVec.ofNat 4 (2 ^ b.val) } } ∧
        (b.val ≠ 2 ∨ s.isOn 1 = false → t.outputs = s.outputs) ∧
        (b.val = 2 → s.isOn 1 = true → ∀ p, p < 5 → .ball (.txdis p) (if s.portEn p then .low else .high) ∈ t.outputs)) ∧
      Runs (.vioFail b) s (fun t =>
        (∀ k, t.pwr.vioFail.getLsbD k = (s.pwr.vioFail.getLsbD k || k == b.val)) ∧
        (b.val ≠ 3 → s.isOn 1 = false → t = { s with pwr := t.pwr }) ∧
        (b.val ≠ 3 → s.isOn 1 = true → ∀ c n, s.nearOf c = some n → n < 8 → b.val = n / 4 →
          (t.ax c).enabled = false) ∧
        (b.val = 2 → s.isOn 1 = true → ∀ p, p < 5 → .ball (.txdis p) .hiz ∈ t.outputs) ∧
        (b.val = 3 → t.boot.resetN = true ∧ (s.isOn 1 = true → s.boot.resetN = false →
          ∀ d, 1 ≤ d → d ≤ 22 → t.isOn d = false)))) ∧
    (s.pwr.failed = true ∨ s.isOn 1 = false → exec .powerFailTrigger s = .next s) ∧
    (s.pwr.failed = false → s.isOn 1 = true → Runs .powerFailTrigger s (fun t =>
      t.pwr.failed = true ∧ t.cyc.running = false ∧ t.runs = [] ∧ t.host.polling = false ∧
      (∀ e, e < 24 → (t.eng e).run = none) ∧ t.gA.grants = [] ∧ t.gB.grants = [] ∧
      (∀ m, m < 8 → (s.pwm m).st = .run → (s.rg PWM_FLT_MAP3).getLsbD m = true → (t.pwm m).st = .fault) ∧
      (∀ d, 3 ≤ d → d ≤ 22 → d < 7 ∨ 14 < d → t.isOn d = false) ∧
      (s.recd.recovered = true → (∃ f, t.recd.flush = some f ∧ f.cause = 3 ∧ f.seq = s.recd.seq + 1 ∧
          f.pages.length ≤ 16) ∧ t.pwr.hold = s.pwr.hold ∧
        (∀ d, 1 ≤ d → d ≤ 2 ∨ (7 ≤ d ∧ d ≤ 14) → t.isOn d = s.isOn d) ∧
        t.rg REC_ABANDONED = (if s.recd.flush.isSome then satAdd (s.rg REC_ABANDONED) 1 else s.rg REC_ABANDONED)) ∧
      (s.recd.recovered = false → s.recd.flush = none → t.pwr.hold = true ∧ t.boot.st = .held ∧
        ∀ d, 1 ≤ d → d ≤ 22 → t.isOn d = false))) ∧
    (s.pwr.hold = false → exec .holdRestart s = .next s) ∧
    (s.pwr.hold = true → Runs .holdRestart s (fun t => t.pwr.hold = false ∧ t.pwr.failed = false ∧
      t.boot.cause = 4 ∧ t.boot.causes = s.boot.causes ++ [4] ∧ t.pending = s.pending ∧ t.runs = [] ∧
      t.recd.chest0 = s.recd.chest0 ∧ t.recd.chest1 = s.recd.chest1 ∧ t.recd.recovered = false ∧
      ∀ d, 1 ≤ d → d ≤ 22 → t.isOn d = false))

/-- R735 to R748. -/
def Obligations.ResetsKeepWhatTheyKeep : Prop :=
  ∀ (s : State),
    let held (t : State) (core : Bool) (causes : List Nat) : Prop :=
      (∀ d, 1 ≤ d → d ≤ 22 → t.isOn d = false) ∧ SameRegsBut State.reset t [regKey PWM_FLT_MAP2 0] ∧
      t = { State.reset with
        pending := s.pending, outputs := t.outputs, free := t.free, bt := t.bt, regs := t.regs, host := t.host
        fw := t.fw, recd := t.recd, pwr := t.pwr, boot := t.boot, lnk := t.lnk, twin := t.twin, gA := t.gA
        gB := t.gB, seals := t.seals, bgTo := t.bgTo } ∧
      (∀ b n, n < 8 → t.bgTo.getLsbD (n + if b then 8 else 0) = bitOf ((s.guard b).par (0x10 + n)) 1) ∧
      (∃ o, t.outputs = s.outputs ++ o) ∧ s.bt ≤ t.bt ∧ t.boot.causes = causes ∧
      t.fw = { mram := s.fw.mram, active := s.fw.active, next := s.fw.next, verified := s.fw.verified
               fallback := s.fw.fallback, lpMram := s.fw.lpMram } ∧
      t.recd.recovered = false ∧ t.recd.held = none ∧ t.recd.dirty = [] ∧
      (∀ b, (t.guard b).params = (s.guard b).params ∧ (t.guard b).password = (s.guard b).password ∧
        (t.guard b).grants = [] ∧ (t.guard b).st = .selftest) ∧
      t.twin.st = .off ∧ t.host.ready = false ∧ t.host.sqs = [] ∧ t.host.cqs = [] ∧ t.host.queue = [] ∧
      (core = true → t.host.msixEnable = s.host.msixEnable ∧ t.host.msixFMask = s.host.msixFMask ∧
        t.host.msixMask = s.host.msixMask ∧ t.host.speed = s.host.speed ∧ t.host.width = s.host.width ∧
        t.boot.linkUp = s.boot.linkUp) ∧
      (core = false → t.boot.linkUp = false ∧ t.host.msixEnable = false)
    let aon (t : State) (k : Nat) : Prop := t.boot.cause = k ∧ t.boot.opMinutes = s.boot.opMinutes ∧
      t.boot.st = .held ∧ t.pwr.straps = s.pwr.straps ∧ t.pwr.failed = false
    let linkFrom : W64 := if s.boot.releaseAt < s.boot.perstAt then s.boot.perstAt else s.boot.releaseAt
    (s.boot.resetN = true → exec .resetNAssert s = .next s) ∧
    (s.boot.resetN = false → s.isOn 1 = false → exec .resetNAssert s =
      .next { s with boot := { s.boot with resetN := true, heldSec := 0 } }) ∧
    (s.boot.resetN = false → s.isOn 1 = true → s.pwr.failed = false → Runs .resetNAssert s (fun t =>
      held t false (s.boot.causes ++ [1]) ∧ aon t 1 ∧ t.boot.resetN = true ∧ t.boot.heldSec = 0 ∧
      t.recd.chest0 = s.recd.chest0 ∧ t.recd.chest1 = s.recd.chest1 ∧ t.recd.seq = s.recd.seq ∧
      (s.recd.flush = none → t.recd.flush = none) ∧
      ∀ f, s.recd.flush = some f → t.recd.flush = some { f with cmds := [] })) ∧
    (s.isOn 1 = true ∨ s.pwr.hold = true ∨ s.pwr.failed = true ∨ s.pwr.vioFail.getLsbD 3 = true →
      exec .resetRelease s = .next s) ∧
    (s.isOn 1 = false → s.pwr.hold = false → s.pwr.failed = false → s.pwr.vioFail.getLsbD 3 = false →
      Runs .resetRelease s (fun t => t.bt = 0 ∧ t.frac = 0 ∧ (∀ d, t.isOn d = true) ∧
        t.boot.st = .released ∧ t.boot.resetN = false ∧ t.boot.causes = s.boot.causes ∧
        t.boot.opMinutes = s.boot.opMinutes ∧
        (∀ p, p < 5 → .ball (.txdis p) (if s.pwr.vioFail.getLsbD 2 then .hiz else if s.portEn p then .low
          else .high) ∈ t.outputs) ∧
        t = { s with
          bt := 0, frac := 0, pwr := { s.pwr with dom := [] }, boot := t.boot, outputs := t.outputs,
          recd := { s.recd with
            chest0 := { s.recd.chest0 with failed := false }, chest1 := { s.recd.chest1 with failed := false } } })) ∧
    (∀ straps, Runs (.powerOn straps) s (fun t =>
      held { t with bt := s.bt } false [0] ∧ t.bt = 0 ∧ t.boot.st = .aon ∧ t.boot.cause = 0 ∧
      t.boot.opMinutes = 0 ∧ t.pwr.straps = straps ∧ t.pwr.hold = false ∧ t.pwr.failed = false ∧
      t.recd.flush = none ∧
      ((∀ f, s.recd.flush = some f → f.cause ≠ 3) → t.recd.chest0 = s.recd.chest0 ∧
        t.recd.chest1 = s.recd.chest1))) ∧
    (∀ v : W32, let ok (core : Bool) : Prop := bitsOf v 15 8 = 0x5A ∧ bitOf v 0 = core ∧ bitOf v 1 = !core
      let may := s.isOn 1 = true ∧ s.pwr.failed = false
      (¬ (ok false ∧ may) → exec (.softColdReset v) s = .next s) ∧
      (¬ (ok true ∧ may) → exec (.softCoreReset v) s = .next s) ∧
      (ok false → may → Runs (.softColdReset v) s (fun t => held t false (s.boot.causes ++ [2]) ∧ aon t 2)) ∧
      (ok true → may → Runs (.softCoreReset v) s (fun t => held t true (s.boot.causes ++ [3]) ∧ aon t 3 ∧
        t.boot.coreReset = true))) ∧
    (s.isOn 1 = false ∨ s.pwr.failed = true ∨ s.host.ready = true ∨ s.boot.perstN = false →
      exec .bootWatchdog s = .next s) ∧
    (s.isOn 1 = true → s.pwr.failed = false → s.host.ready = false → s.boot.perstN = true →
      Runs .bootWatchdog s (fun t => held t false (s.boot.causes ++ [5]) ∧ aon t 5 ∧
        linkFrom + 500000000 ≤ t.bt ∧
        (s.boot.wdCount = 0 → t.boot.wdCount = 1 ∧ t.boot.skip = false) ∧
        (1 ≤ s.boot.wdCount → t.boot.wdCount = 0 ∧ t.boot.skip = true))) ∧
    (∀ okA okB : Bool, let ok (b : Bool) : Bool := if b then okB else okA
      let boots (t : State) (b : Bool) : Prop := t.boot.st = .checked ∧ t.fw.active = b ∧ t.boot.skip = false ∧
        t = { s with fw := t.fw, boot := t.boot, regs := t.regs, outputs := t.outputs } ∧
        t.fw.buffer = s.fw.lpMram ∧ t.fw.lpMram = s.fw.lpMram ∧ t.fw.mram = s.fw.mram ∧
        ((∀ p ∈ s.fw.lpMram, p.1 < 4096) → ∀ e w, e < 24 → w < 4096 →
          tget 0 t.fw.im (e * 4096 + w) = tget 0 s.fw.lpMram w) ∧
        SameRegsBut s t ((List.range 4).map (fun p => regKey LNK_PORT_CTL p)) ∧
        ∀ p, p < 4 → t.rg LNK_PORT_CTL p = if bitOf (s.rg RING_CTL (p / 2)) 0 = true ∧ s.portEn p = false then 1
          else s.rg LNK_PORT_CTL p
      let n := s.fw.next
      (s.boot.st ≠ .released ∨ s.isOn 1 = false → exec (.imageCheckComplete okA okB) s = .next s) ∧
      (s.boot.st = .released → s.isOn 1 = true →
        (s.boot.coreReset = true → Runs (.imageCheckComplete okA okB) s (fun t => boots t s.fw.active ∧ t.fw.next = n ∧
          t.boot.causes = s.boot.causes ∧ t.boot.coreReset = false)) ∧
        (s.boot.coreReset = false → ok n = true → s.boot.skip = false ∨ ok (!n) = false → Runs (.imageCheckComplete okA okB) s (fun t =>
          boots t n ∧ t.fw.next = n ∧ t.fw.fallback = s.fw.fallback ∧ t.fw.verified = s.fw.verified ∧
          t.boot.causes = s.boot.causes)) ∧
        (s.boot.coreReset = false → ok (!n) = true → s.boot.skip = true ∨ ok n = false → Runs (.imageCheckComplete okA okB) s (fun t =>
          boots t (!n) ∧ t.fw.next = (!n) ∧ t.fw.fallback = true ∧ t.fw.verified = false ∧ t.boot.cause = 6 ∧
          t.boot.causes = s.boot.causes ++ [6])) ∧
        (s.boot.coreReset = false → ok true = false → ok false = false → exec (.imageCheckComplete okA okB) s = .next { s with
          boot := { s.boot with st := .recovery, skip := false } }))) ∧
    (let due := s.host.ready = false ∧ s.boot.perstN = true ∧ (s.boot.st = .checked ∨ s.boot.st = .recovery) ∧
        s.pwr.failed = false;
      (¬ due → exec .hostReady s = .next s) ∧
      (due → Runs .hostReady s (fun t =>
        t = { s with bt := t.bt, frac := t.frac, tm := t.tm, host := { s.host with ready := true }
                     boot := { s.boot with
                       wdCount := 0, st := if s.boot.st = .checked then .running else .recovery } } ∧
        (s.boot.cause = 3 → s.boot.releaseAt + 150000000 ≤ t.bt) ∧
        (s.boot.cause ≠ 3 → linkFrom + 250000000 ≤ t.bt)))) ∧
    (s.boot.perstN = true → exec .perstNRise s = .next s) ∧
    (s.boot.perstN = false → exec .perstNRise s = .next { s with
      boot := { s.boot with perstN := true, perstAt := s.bt } })

/-- R3, R6, R764 to R776. -/
def Obligations.RegistersStageCommitAndClear : Prop :=
  ∀ (s : State),
    let refusal (u t : State) (b : Fin 18) : Prop := ∃ v : State, v.rg (STAGE_REFUSED b) = satAdd (u.rg (STAGE_REFUSED b)) 1 ∧
      SameRegsBut u v [regKey (STAGE_REFUSED b) 0] ∧ v = { u with regs := v.regs, blks := v.blks } ∧
      (∀ k, k ≠ b.val → v.blk k = u.blk k) ∧ v.blk b = { u.blk b with refusedPosted := true } ∧
      t = if (u.blk b).refusedPosted then v else v.post 0x0211 .info 0 (payOf [b.val])
    let isOpen (b : Fin 18) : Prop := (s.blk b).state = .pending ∨ (s.blk b).state = .checked
    (∀ a v, s.isOn 1 = false → exec (.registerWrite a v) s = .next s ∧ exec (.rcCounterRead a) s = .next s) ∧
    (s.isOn 1 = true → ∀ (a : BitVec 24) (v : W32), let n := a.toNat
      let own : Prop := n ∈ [0x10, 0x30, 0xC000, 0xC024, 0xC028, 0xC02C, 0xC0A0, 0x10014, 0x10390, 0x20024, 0x2002C,
        0x20030, 0x2004C, 0x24014, 0x24054, 0x2409C, 0x30030, 0x34008, 0x50310, 0x60004]
      (blockOf n = none ∨ n % 4 ≠ 0 → exec (.registerWrite a v) s = .next s) ∧
      (∀ b q, blockOf n = some b → n % 4 = 0 →
        let off := n - blockBase b
        let sel := s.selOf q
        let live := s.selExists q = true ∧ ¬ (q.addr = 0x10304 ∧ sel < 16)
        let staged : Prop := ((off < 0x800 ∧ findReg n = some q) ∨
          (0x800 ≤ off ∧ off < 0x1000 ∧ findReg (n - 0x800) = some q)) ∧ q.acc = .st ∧ blockOf q.addr = some b
        (off < 0x800 → ¬ own → findReg n = some q → q.acc = .rw → live → Runs (.registerWrite a v) s (fun t =>
          t = { s with regs := t.regs } ∧ SameRegsBut s t [regKey q sel] ∧
          (b ≠ 3 → t.rg q sel = v &&& q.mask))) ∧
        (off < 0x800 → ¬ own → (findReg n = none ∨ (findReg n = some q ∧ (¬ live ∨ q.acc = .ro ∨ q.acc = .rc ∨
          q.acc = .hw))) → exec (.registerWrite a v) s = .next s) ∧
        (0x800 ≤ off → off < 0x1000 → findReg (n - 0x800) = none ∨ (findReg (n - 0x800) = some q ∧
          (¬ live ∨ q.acc ≠ .st)) → exec (.registerWrite a v) s = .next s) ∧
        (0x1000 ≤ off → off ≠ 0x1000 → exec (.registerWrite a v) s = .next s) ∧
        (staged → ¬ own → live → isOpen b → Runs (.registerWrite a v) s (fun t => refusal s t b)) ∧
        (staged → ¬ own → live → ¬ isOpen b → Runs (.registerWrite a v) s (fun t =>
          t = { s with stage := t.stage } ∧
          t.stg q sel = (if q.addr = PWM_FLT_MAP2.addr then (v &&& 0xFFFF) ||| (s.rg q sel &&& 0xFFFF0000) else v) &&& q.mask ∧
          ∀ r j, regKey r j ≠ regKey q sel → t.stg r j = s.stg r j))) ∧
      Runs (.rcCounterRead a) s (fun t => t.outputs = s.outputs ++ [.bar0 (s.bar0Read n)] ∧
        t = { s with regs := t.regs, outputs := t.outputs } ∧
        (∀ q b, findReg n = some q → blockOf n = some b → n - blockBase b ≠ 0x100C → q.acc = .rc →
          s.selExists q = true → n ≠ 0x14044 →
          t.rg q (s.selOf q) = 0 ∧ SameRegsBut s t [regKey q (s.selOf q)]) ∧
        (∀ b : Fin 18, n = blockBase b + 0x100C → t.rg (STAGE_REFUSED b) = 0 ∧
          SameRegsBut s t [regKey (STAGE_REFUSED b) 0]) ∧
        ((∀ q, findReg n = some q → q.acc ≠ .rc) → (∀ b : Fin 18, n ≠ blockBase b + 0x100C) → t.regs = s.regs))) ∧
    (∀ (b : Fin 18) (v : W32), s.isOn 1 = false → exec (.stageCommit b true) s = .next s ∧
      exec (.stageCommit b false) s = .next s ∧ exec (.stageDiscard b) s = .next s ∧
      exec (.sysCommitAll v) s = .next s) ∧
    (s.isOn 1 = true → ∀ b : Fin 18,
      let pend : Blk := { s.blk b with state := .pending, refusedPosted := false, late := s.cutOff }
      let done : Blk := { s.blk b with state := .applied, code := 0, field := 0 }
      let discards (t : State) : Prop := t.regs = s.regs ∧
        ∀ q j, findReg q.addr = some q → j < 0x100000 →
          t.stg q j = if blockOf q.addr = some b then s.rg q j else s.stg q j
      (isOpen b → exec (.stageCommit b false) s = .next s ∧
        Runs (.stageCommit b true) s (fun t => refusal s t b) ∧ Runs (.stageDiscard b) s (fun t => refusal s t b)) ∧
      (¬ isOpen b → exec (.stageCommit b false) s = .next (s.setBlk b (if s.differs b then pend else done)) ∧
        Runs (.stageCommit b true) s (fun t => discards t ∧ t.blk b = done ∧ (∀ k, k ≠ b.val → t.blk k = s.blk k) ∧
          t = { s with stage := t.stage, blks := t.blks }) ∧
        Runs (.stageDiscard b) s (fun t => discards t ∧ t = { s with stage := t.stage })) ∧
      ∀ v : W32, (bitOf v 0 = false → exec (.sysCommitAll v) s = .next s) ∧
        (bitOf v 0 = true → Runs (.sysCommitAll v) s (fun t => t = { s with blks := t.blks } ∧
          t.blk b = if s.differs b = true ∧ (s.blk b).state ≠ .pending ∧ (s.blk b).state ≠ .checked then pend
            else s.blk b))) ∧
    (s.isOn 1 = false ∨ s.cyc.running = true → exec .stageIdleApply s = .next s) ∧
    (s.isOn 1 = true → s.cyc.running = false → tsorted s.stage = true → (∀ b, b < 18 → (s.blk b).state ≠ .checked) →
      let bs := (List.range 18).filter (fun b => decide ((s.blk b).state = .pending))
      (bs = [] → exec .stageIdleApply s = .next s) ∧
      (∀ code c, bs ≠ [] → offending s (s.applied bs) bs = some (code, c) → Runs .stageIdleApply s (fun t => ∃ u : State,
        (∃ p, t = u.post 0x0210 .warn 0 p ∧ bitsOf p 7 0 = c.blk % 256 ∧ bitsOf p 23 8 = code.toNat ∧
          bitsOf p 63 32 = c.word.toNat) ∧ u = { s with blks := u.blks } ∧
        ∀ b, u.blk b = if b ∈ bs then { s.blk b with
            state := .failed, code := if b = c.blk then code else 0x0203, field := if b = c.blk then c.word else 0 }
          else s.blk b)) ∧
      (bs ≠ [] → offending s (s.applied bs) bs = none →
        (bs.foldl (fun u b => u.setBlk b (u.blk b).pass) s).needed bs = [] → Runs .stageIdleApply s (fun t =>
          (∀ b, b ∈ bs → (t.blk b).state = .applied ∧ (t.blk b).code = 0) ∧ (∀ b, b ∉ bs → t.blk b = s.blk b) ∧
          ∀ q j b, findReg q.addr = some q → q.acc = .st → blockOf q.addr = some b → j < 0x100000 →
            (b.val ∈ bs → t.rg q j = s.stg q j ∧ t.stg q j = t.rg q j) ∧
            (b.val ∉ bs → t.rg q j = s.rg q j ∧ t.stg q j = s.stg q j)))) ∧
    (∀ v, s.isOn 1 = false → exec (.fieldGoWrite v) s = .next s) ∧
    (s.isOn 1 = true → ∀ v : W32, Runs (.fieldGoWrite v) s (fun t =>
      t = { s with regs := t.regs, outputs := t.outputs } ∧ SameRegsBut s t [regKey FIELD_GO 0] ∧
      (∀ n, n < 16 → bitOf (t.rg FIELD_GO) n = bitOf v n) ∧
      (∀ n, n < 16 → t.goLevel n = if s.isOn 22 = true ∧ bitOf (s.rg FIELD_GO_OWN) n = true then bitOf v n else s.goLevel n) ∧
      ∃ o, t.outputs = s.outputs ++ o ∧ ∀ x, x ∈ o ↔ ∃ n, n < 16 ∧ t.goLevel n ≠ s.goLevel n ∧
        x = .ball (.go n) (if t.goLevel n then .high else .low))) ∧
    (∀ (n : Fin 16) (th p l : Bool), let k := n.val + if th then 16 else 0
      (s.isOn 22 = false → exec (.goOverload n th p) s = .next s ∧ exec (.giInputChange n l) s = .next s) ∧
      (s.isOn 22 = true → Runs (.goOverload n th p) s (fun t => t = { s with regs := t.regs, go := t.go } ∧
          t.go = { s.go with ovl := t.go.ovl } ∧ (∀ i, bitOf t.go.ovl i = if i = k then p else bitOf s.go.ovl i) ∧
          SameRegsBut s t [regKey FIELD_GO_FAULTS 0] ∧ t.rg FIELD_GO_FAULTS =
            if p = true ∧ bitOf s.go.ovl k = false then satAdd (s.rg FIELD_GO_FAULTS) 1 else s.rg FIELD_GO_FAULTS) ∧
        Runs (.giInputChange n l) s (fun t => t = { s with go := { s.go with giF := t.go.giF } } ∧
          ∀ i, t.go.giF.getLsbD i = if i = n.val then l else s.go.giF.getLsbD i)))
end

