-- ==== Sys2Proof/Laws/Maps.lean ====
section
/-! SUPPORT. The laws of sparse tables: a read after a write, and the canonical form that every
operation keeps. -/

namespace Sys2Proof.Machine

variable {β : Type}

theorem tget_terase_self (d : β) (m : List (Nat × β)) (k : Nat) : tget d (terase m k) k = d := by
  induction m with
  | nil => rfl
  | cons p m ih =>
    obtain ⟨j, x⟩ := p
    by_cases h : j = k <;> simp [terase, tget, h, ih]

theorem tget_terase_ne (d : β) (m : List (Nat × β)) {k j : Nat} (h : j ≠ k) :
    tget d (terase m k) j = tget d m j := by
  induction m with
  | nil => rfl
  | cons p m ih =>
    obtain ⟨i, x⟩ := p
    by_cases hk : i = k
    · have : i ≠ j := fun e => h (e ▸ hk)
      simp [terase, tget, hk, ih, Ne.symm h]
    · by_cases hj : i = j <;> simp [terase, tget, hk, hj, ih, h]

theorem tget_tput_self (d : β) (m : List (Nat × β)) (k : Nat) (v : β) : tget d (tput m k v) k = v := by
  induction m with
  | nil => simp [tput, tget]
  | cons p m ih =>
    obtain ⟨j, x⟩ := p
    by_cases h : k < j
    · simp [tput, tget, h]
    · by_cases h' : k = j
      · simp [tput, tget, h']
      · simp [tput, tget, h, h', ih, Ne.symm h']

theorem tget_tput_ne (d : β) (m : List (Nat × β)) {k j : Nat} (v : β) (h : j ≠ k) :
    tget d (tput m k v) j = tget d m j := by
  induction m with
  | nil => simp [tput, tget, Ne.symm h]
  | cons p m ih =>
    obtain ⟨i, x⟩ := p
    by_cases h1 : k < i
    · simp [tput, tget, h1, Ne.symm h]
    · by_cases h2 : k = i
      · subst h2
        simp [tput, tget, Ne.symm h]
      · by_cases h3 : i = j
        · subst h3
          simp [tput, tget, h1, h2]
        · simp [tput, tget, h1, h2, h3, ih]

/-- A read of the key just written gives the value written. -/
@[simp] theorem tget_tset_self [DecidableEq β] (d : β) (m : List (Nat × β)) (k : Nat) (v : β) :
    tget d (tset d m k v) k = v := by
  unfold tset
  split
  · next h => rw [tget_terase_self, h]
  · exact tget_tput_self d m k v

/-- A write leaves every other key as it was. -/
theorem tget_tset_ne [DecidableEq β] (d : β) (m : List (Nat × β)) {k j : Nat} (v : β) (h : j ≠ k) :
    tget d (tset d m k v) j = tget d m j := by
  unfold tset
  split
  · exact tget_terase_ne d m h
  · exact tget_tput_ne d m v h

/-- The same, for a reader with a default of its own. -/
theorem tget_tset_other [DecidableEq β] (d e : β) (m : List (Nat × β)) {k j : Nat} (v : β) (h : j ≠ k) :
    tget d (tset e m k v) j = tget d m j := by
  unfold tset
  split
  · exact tget_terase_ne d m h
  · exact tget_tput_ne d m v h

theorem tget_tset [DecidableEq β] (d : β) (m : List (Nat × β)) (k j : Nat) (v : β) :
    tget d (tset d m k v) j = if j = k then v else tget d m j := by
  split
  · next h => rw [h, tget_tset_self]
  · next h => exact tget_tset_ne d m v h

theorem tabove_mono {lo lo' : Nat} (h : lo ≤ lo') (m : List (Nat × β)) (hm : tabove lo' m = true) :
    tabove lo m = true := by
  simp only [tabove, List.all_eq_true, decide_eq_true_eq] at *
  exact fun p hp => Nat.lt_of_le_of_lt h (hm p hp)

theorem tabove_terase {lo : Nat} (m : List (Nat × β)) (k : Nat) (h : tabove lo m = true) :
    tabove lo (terase m k) = true := by
  induction m with
  | nil => rfl
  | cons p m ih =>
    obtain ⟨j, x⟩ := p
    have hm : lo < j ∧ tabove lo m = true := by simpa [tabove] using h
    have hi := ih hm.2
    by_cases hk : j = k
    · simpa [terase, hk] using hi
    · simp only [terase, hk, if_false]
      simpa [tabove] using ⟨hm.1, by simpa [tabove] using hi⟩

theorem tsorted_terase (m : List (Nat × β)) (k : Nat) (h : tsorted m = true) :
    tsorted (terase m k) = true := by
  induction m with
  | nil => rfl
  | cons p m ih =>
    obtain ⟨j, x⟩ := p
    simp only [tsorted, Bool.and_eq_true] at h
    by_cases hk : j = k
    · simpa [terase, hk] using ih h.2
    · simp [terase, hk, tsorted, ih h.2, tabove_terase m k h.1]

theorem tabove_tput {lo : Nat} (m : List (Nat × β)) (k : Nat) (v : β) (hk : lo < k)
    (h : tabove lo m = true) : tabove lo (tput m k v) = true := by
  induction m with
  | nil => simp [tput, tabove, hk]
  | cons p m ih =>
    obtain ⟨j, x⟩ := p
    simp only [tabove, List.all_cons, Bool.and_eq_true, decide_eq_true_eq] at h ih ⊢
    by_cases h1 : k < j
    · simpa [tput, h1, hk] using h
    · by_cases h2 : k = j
      · simpa [tput, h2] using h
      · simpa [tput, h1, h2] using ⟨h.1, by simpa using ih h.2⟩

theorem tsorted_tput (m : List (Nat × β)) (k : Nat) (v : β) (h : tsorted m = true) :
    tsorted (tput m k v) = true := by
  induction m with
  | nil => simp [tput, tsorted, tabove]
  | cons p m ih =>
    obtain ⟨j, x⟩ := p
    simp only [tsorted, Bool.and_eq_true] at h
    by_cases h1 : k < j
    · have hk : tabove k m = true := tabove_mono (Nat.le_of_lt h1) m h.1
      have hc : tabove k ((j, x) :: m) = true := by
        simpa [tabove] using ⟨h1, by simpa [tabove] using hk⟩
      simp [tput, h1, tsorted, hc, h.1, h.2]
    · by_cases h2 : k = j
      · simpa [tput, h2, tsorted] using h
      · have h3 : j < k := by omega
        simp [tput, h1, h2, tsorted, ih h.2, tabove_tput m k v h3 h.1]

theorem all_terase (m : List (Nat × β)) (k : Nat) (p : Nat × β → Bool) (h : m.all p = true) :
    (terase m k).all p = true := by
  induction m with
  | nil => rfl
  | cons q m ih =>
    obtain ⟨j, x⟩ := q
    simp only [List.all_cons, Bool.and_eq_true] at h
    by_cases hk : j = k <;> simp [terase, hk, h, ih h.2]

theorem all_tput (m : List (Nat × β)) (k : Nat) (v : β) (p : Nat × β → Bool) (hv : p (k, v) = true)
    (h : m.all p = true) : (tput m k v).all p = true := by
  induction m with
  | nil => simp [tput, hv]
  | cons q m ih =>
    obtain ⟨j, x⟩ := q
    simp only [List.all_cons, Bool.and_eq_true] at h
    by_cases h1 : k < j
    · simp [tput, h1, hv, h]
    · by_cases h2 : k = j
      · simp [tput, h2, h]
        simpa [h2] using hv
      · simp [tput, h1, h2, h.1, ih h.2]

/-- A write keeps the canonical form. -/
theorem twf_tset [DecidableEq β] (d : β) (m : List (Nat × β)) (k : Nat) (v : β) (h : twf d m = true) :
    twf d (tset d m k v) = true := by
  simp only [twf, Bool.and_eq_true] at h ⊢
  unfold tset
  split
  · exact ⟨tsorted_terase m k h.1, all_terase m k _ h.2⟩
  · next hv => exact ⟨tsorted_tput m k v h.1, all_tput m k v _ (by simpa using hv) h.2⟩

theorem tsorted_filter (m : List (Nat × β)) (f : Nat × β → Bool) (h : tsorted m = true) :
    tsorted (m.filter f) = true := by
  induction m with
  | nil => rfl
  | cons p m ih =>
    obtain ⟨j, x⟩ := p
    simp only [tsorted, Bool.and_eq_true] at h
    have hi := ih h.2
    by_cases hf : f (j, x) = true
    · have : tabove j (m.filter f) = true := by
        have := h.1
        simp only [tabove, List.all_eq_true, decide_eq_true_eq] at this ⊢
        exact fun q hq => this q (List.mem_filter.mp hq).1
      simp [List.filter, hf, tsorted, this, hi]
    · simp [List.filter, hf, hi]

/-- Leaving entries out keeps the canonical form. -/
theorem twf_filter [DecidableEq β] (d : β) (m : List (Nat × β)) (f : Nat × β → Bool)
    (h : twf d m = true) : twf d (m.filter f) = true := by
  simp only [twf, Bool.and_eq_true] at h ⊢
  refine ⟨tsorted_filter m f h.1, ?_⟩
  have h2 := h.2
  simp only [List.all_eq_true] at h2 ⊢
  exact fun q hq => h2 q (List.mem_filter.mp hq).1

end Sys2Proof.Machine
end

