-- ==== Sys2Proof/Laws/State.lean ====
section
/-! SUPPORT. The laws of the state's updates: what each leaves unchanged, by the state's fields and by the
named readers, and what the reader of its own table reads after it. -/

namespace Sys2Proof.Machine

variable (s : State)

/-! ### setRg -/

@[simp] theorem State.setRg_pending (r : Reg) (k : Nat) (v : W32) : (s.setRg r k v).pending = s.pending := (rfl)
@[simp] theorem State.setRg_bt (r : Reg) (k : Nat) (v : W32) : (s.setRg r k v).bt = s.bt := (rfl)
@[simp] theorem State.setRg_frac (r : Reg) (k : Nat) (v : W32) : (s.setRg r k v).frac = s.frac := (rfl)
@[simp] theorem State.setRg_stage (r : Reg) (k : Nat) (v : W32) : (s.setRg r k v).stage = s.stage := (rfl)
@[simp] theorem State.setRg_blks (r : Reg) (k : Nat) (v : W32) : (s.setRg r k v).blks = s.blks := (rfl)
@[simp] theorem State.setRg_tm (r : Reg) (k : Nat) (v : W32) : (s.setRg r k v).tm = s.tm := (rfl)
@[simp] theorem State.setRg_cyc (r : Reg) (k : Nat) (v : W32) : (s.setRg r k v).cyc = s.cyc := (rfl)
@[simp] theorem State.setRg_ctxs (r : Reg) (k : Nat) (v : W32) : (s.setRg r k v).ctxs = s.ctxs := (rfl)
@[simp] theorem State.setRg_runs (r : Reg) (k : Nat) (v : W32) : (s.setRg r k v).runs = s.runs := (rfl)
@[simp] theorem State.setRg_flows (r : Reg) (k : Nat) (v : W32) : (s.setRg r k v).flows = s.flows := (rfl)
@[simp] theorem State.setRg_disp (r : Reg) (k : Nat) (v : W32) : (s.setRg r k v).disp = s.disp := (rfl)
@[simp] theorem State.setRg_engs (r : Reg) (k : Nat) (v : W32) : (s.setRg r k v).engs = s.engs := (rfl)
@[simp] theorem State.setRg_host (r : Reg) (k : Nat) (v : W32) : (s.setRg r k v).host = s.host := (rfl)
@[simp] theorem State.setRg_fw (r : Reg) (k : Nat) (v : W32) : (s.setRg r k v).fw = s.fw := (rfl)
@[simp] theorem State.setRg_streams (r : Reg) (k : Nat) (v : W32) : (s.setRg r k v).streams = s.streams := (rfl)
@[simp] theorem State.setRg_recd (r : Reg) (k : Nat) (v : W32) : (s.setRg r k v).recd = s.recd := (rfl)
@[simp] theorem State.setRg_pwr (r : Reg) (k : Nat) (v : W32) : (s.setRg r k v).pwr = s.pwr := (rfl)
@[simp] theorem State.setRg_boot (r : Reg) (k : Nat) (v : W32) : (s.setRg r k v).boot = s.boot := (rfl)
@[simp] theorem State.setRg_fbs (r : Reg) (k : Nat) (v : W32) : (s.setRg r k v).fbs = s.fbs := (rfl)
@[simp] theorem State.setRg_pwms (r : Reg) (k : Nat) (v : W32) : (s.setRg r k v).pwms = s.pwms := (rfl)
@[simp] theorem State.setRg_pwmFlt (r : Reg) (k : Nat) (v : W32) : (s.setRg r k v).pwmFlt = s.pwmFlt := (rfl)
@[simp] theorem State.setRg_bgTo (r : Reg) (k : Nat) (v : W32) : (s.setRg r k v).bgTo = s.bgTo := (rfl)
@[simp] theorem State.setRg_axes (r : Reg) (k : Nat) (v : W32) : (s.setRg r k v).axes = s.axes := (rfl)
@[simp] theorem State.setRg_mss (r : Reg) (k : Nat) (v : W32) : (s.setRg r k v).mss = s.mss := (rfl)
@[simp] theorem State.setRg_cams (r : Reg) (k : Nat) (v : W32) : (s.setRg r k v).cams = s.cams := (rfl)
@[simp] theorem State.setRg_grps (r : Reg) (k : Nat) (v : W32) : (s.setRg r k v).grps = s.grps := (rfl)
@[simp] theorem State.setRg_evs (r : Reg) (k : Nat) (v : W32) : (s.setRg r k v).evs = s.evs := (rfl)
@[simp] theorem State.setRg_go (r : Reg) (k : Nat) (v : W32) : (s.setRg r k v).go = s.go := (rfl)
@[simp] theorem State.setRg_lnk (r : Reg) (k : Nat) (v : W32) : (s.setRg r k v).lnk = s.lnk := (rfl)
@[simp] theorem State.setRg_rings (r : Reg) (k : Nat) (v : W32) : (s.setRg r k v).rings = s.rings := (rfl)
@[simp] theorem State.setRg_twin (r : Reg) (k : Nat) (v : W32) : (s.setRg r k v).twin = s.twin := (rfl)
@[simp] theorem State.setRg_gA (r : Reg) (k : Nat) (v : W32) : (s.setRg r k v).gA = s.gA := (rfl)
@[simp] theorem State.setRg_gB (r : Reg) (k : Nat) (v : W32) : (s.setRg r k v).gB = s.gB := (rfl)
@[simp] theorem State.setRg_seals (r : Reg) (k : Nat) (v : W32) : (s.setRg r k v).seals = s.seals := (rfl)
@[simp] theorem State.setRg_acqs (r : Reg) (k : Nat) (v : W32) : (s.setRg r k v).acqs = s.acqs := (rfl)
@[simp] theorem State.setRg_trig (r : Reg) (k : Nat) (v : W32) : (s.setRg r k v).trig = s.trig := (rfl)
@[simp] theorem State.setRg_cab (r : Reg) (k : Nat) (v : W32) : (s.setRg r k v).cab = s.cab := (rfl)
@[simp] theorem State.setRg_outputs (r : Reg) (k : Nat) (v : W32) : (s.setRg r k v).outputs = s.outputs := (rfl)
@[simp] theorem State.setRg_free (r : Reg) (k : Nat) (v : W32) : (s.setRg r k v).free = s.free := (rfl)
@[simp] theorem State.setRg_ax (r : Reg) (k : Nat) (v : W32) (j : Nat) :
    (s.setRg r k v).ax j = s.ax j := (rfl)
@[simp] theorem State.setRg_fb (r : Reg) (k : Nat) (v : W32) (j : Nat) :
    (s.setRg r k v).fb j = s.fb j := (rfl)
@[simp] theorem State.setRg_pwm (r : Reg) (k : Nat) (v : W32) (j : Nat) :
    (s.setRg r k v).pwm j = s.pwm j := (rfl)
@[simp] theorem State.setRg_grp (r : Reg) (k : Nat) (v : W32) (j : Nat) :
    (s.setRg r k v).grp j = s.grp j := (rfl)
@[simp] theorem State.setRg_ev (r : Reg) (k : Nat) (v : W32) (j : Nat) :
    (s.setRg r k v).ev j = s.ev j := (rfl)
@[simp] theorem State.setRg_ms (r : Reg) (k : Nat) (v : W32) (j : Nat) :
    (s.setRg r k v).ms j = s.ms j := (rfl)
@[simp] theorem State.setRg_acq (r : Reg) (k : Nat) (v : W32) (j : Nat) :
    (s.setRg r k v).acq j = s.acq j := (rfl)
@[simp] theorem State.setRg_dom (r : Reg) (k : Nat) (v : W32) (j : Nat) :
    (s.setRg r k v).dom j = s.dom j := (rfl)
@[simp] theorem State.setRg_isOn (r : Reg) (k : Nat) (v : W32) (j : Nat) :
    (s.setRg r k v).isOn j = s.isOn j := (rfl)
@[simp] theorem State.setRg_cq (r : Reg) (k : Nat) (v : W32) (j : Nat) :
    (s.setRg r k v).cq j = s.cq j := (rfl)
@[simp] theorem State.setRg_sq (r : Reg) (k : Nat) (v : W32) (j : Nat) :
    (s.setRg r k v).sq j = s.sq j := (rfl)
@[simp] theorem State.setRg_strm (r : Reg) (k : Nat) (v : W32) (j : Nat) :
    (s.setRg r k v).strm j = s.strm j := (rfl)
@[simp] theorem State.setRg_ctx (r : Reg) (k : Nat) (v : W32) (j : Nat) :
    (s.setRg r k v).ctx j = s.ctx j := (rfl)
@[simp] theorem State.setRg_eng (r : Reg) (k : Nat) (v : W32) (j : Nat) :
    (s.setRg r k v).eng j = s.eng j := (rfl)
@[simp] theorem State.setRg_run (r : Reg) (k : Nat) (v : W32) (j : Nat) :
    (s.setRg r k v).run j = s.run j := (rfl)
@[simp] theorem State.setRg_flow (r : Reg) (k : Nat) (v : W32) (j : Nat) :
    (s.setRg r k v).flow j = s.flow j := (rfl)
@[simp] theorem State.setRg_blk (r : Reg) (k : Nat) (v : W32) (j : Nat) :
    (s.setRg r k v).blk j = s.blk j := (rfl)
@[simp] theorem State.setRg_port (r : Reg) (k : Nat) (v : W32) (j : Nat) :
    (s.setRg r k v).port j = s.port j := (rfl)
@[simp] theorem State.setRg_dir (r : Reg) (k : Nat) (v : W32) (j : Nat) :
    (s.setRg r k v).dir j = s.dir j := (rfl)
@[simp] theorem State.setRg_ring (r : Reg) (k : Nat) (v : W32) (j : Nat) :
    (s.setRg r k v).ring j = s.ring j := (rfl)
@[simp] theorem State.setRg_cabByte (r : Reg) (k : Nat) (v : W32) (j : Nat) :
    (s.setRg r k v).cabByte j = s.cabByte j := (rfl)
@[simp] theorem State.setRg_bt32 (r : Reg) (k : Nat) (v : W32) :
    (s.setRg r k v).bt32 = s.bt32 := (rfl)
@[simp] theorem State.setRg_guard (r : Reg) (k : Nat) (v : W32) (j : Bool) :
    (s.setRg r k v).guard j = s.guard j := (rfl)
@[simp] theorem State.setRg_rg_self (r : Reg) (k : Nat) (v : W32) : (s.setRg r k v).rg r k = v := by
  simp [State.setRg, State.rg]
/-- Another instance of the same register is unchanged. -/
theorem State.setRg_rg_ne (r : Reg) (k : Nat) (v : W32) (j : Nat) (h : j ≠ k) :
    (s.setRg r k v).rg r j = s.rg r j := by
  have : regKey r j ≠ regKey r k := by simp [regKey]; omega
  simp [State.setRg, State.rg, tget_tset, this]
/-- A register at another address is unchanged. -/
theorem State.setRg_rg_addr (r q : Reg) (k : Nat) (v : W32) (j : Nat) (h : q.addr ≠ r.addr)
    (hk : k < 0x100000) (hj : j < 0x100000) : (s.setRg r k v).rg q j = s.rg q j := by
  have : regKey q j ≠ regKey r k := by simp [regKey]; omega
  exact tget_tset_other q.reset r.reset s.regs v this

/-! ### setAx -/

@[simp] theorem State.setAx_pending (c : Nat) (x : Axis) : (s.setAx c x).pending = s.pending := (rfl)
@[simp] theorem State.setAx_bt (c : Nat) (x : Axis) : (s.setAx c x).bt = s.bt := (rfl)
@[simp] theorem State.setAx_frac (c : Nat) (x : Axis) : (s.setAx c x).frac = s.frac := (rfl)
@[simp] theorem State.setAx_regs (c : Nat) (x : Axis) : (s.setAx c x).regs = s.regs := (rfl)
@[simp] theorem State.setAx_stage (c : Nat) (x : Axis) : (s.setAx c x).stage = s.stage := (rfl)
@[simp] theorem State.setAx_blks (c : Nat) (x : Axis) : (s.setAx c x).blks = s.blks := (rfl)
@[simp] theorem State.setAx_tm (c : Nat) (x : Axis) : (s.setAx c x).tm = s.tm := (rfl)
@[simp] theorem State.setAx_cyc (c : Nat) (x : Axis) : (s.setAx c x).cyc = s.cyc := (rfl)
@[simp] theorem State.setAx_ctxs (c : Nat) (x : Axis) : (s.setAx c x).ctxs = s.ctxs := (rfl)
@[simp] theorem State.setAx_runs (c : Nat) (x : Axis) : (s.setAx c x).runs = s.runs := (rfl)
@[simp] theorem State.setAx_flows (c : Nat) (x : Axis) : (s.setAx c x).flows = s.flows := (rfl)
@[simp] theorem State.setAx_disp (c : Nat) (x : Axis) : (s.setAx c x).disp = s.disp := (rfl)
@[simp] theorem State.setAx_engs (c : Nat) (x : Axis) : (s.setAx c x).engs = s.engs := (rfl)
@[simp] theorem State.setAx_host (c : Nat) (x : Axis) : (s.setAx c x).host = s.host := (rfl)
@[simp] theorem State.setAx_fw (c : Nat) (x : Axis) : (s.setAx c x).fw = s.fw := (rfl)
@[simp] theorem State.setAx_streams (c : Nat) (x : Axis) : (s.setAx c x).streams = s.streams := (rfl)
@[simp] theorem State.setAx_recd (c : Nat) (x : Axis) : (s.setAx c x).recd = s.recd := (rfl)
@[simp] theorem State.setAx_pwr (c : Nat) (x : Axis) : (s.setAx c x).pwr = s.pwr := (rfl)
@[simp] theorem State.setAx_boot (c : Nat) (x : Axis) : (s.setAx c x).boot = s.boot := (rfl)
@[simp] theorem State.setAx_fbs (c : Nat) (x : Axis) : (s.setAx c x).fbs = s.fbs := (rfl)
@[simp] theorem State.setAx_pwms (c : Nat) (x : Axis) : (s.setAx c x).pwms = s.pwms := (rfl)
@[simp] theorem State.setAx_pwmFlt (c : Nat) (x : Axis) : (s.setAx c x).pwmFlt = s.pwmFlt := (rfl)
@[simp] theorem State.setAx_bgTo (c : Nat) (x : Axis) : (s.setAx c x).bgTo = s.bgTo := (rfl)
@[simp] theorem State.setAx_mss (c : Nat) (x : Axis) : (s.setAx c x).mss = s.mss := (rfl)
@[simp] theorem State.setAx_cams (c : Nat) (x : Axis) : (s.setAx c x).cams = s.cams := (rfl)
@[simp] theorem State.setAx_grps (c : Nat) (x : Axis) : (s.setAx c x).grps = s.grps := (rfl)
@[simp] theorem State.setAx_evs (c : Nat) (x : Axis) : (s.setAx c x).evs = s.evs := (rfl)
@[simp] theorem State.setAx_go (c : Nat) (x : Axis) : (s.setAx c x).go = s.go := (rfl)
@[simp] theorem State.setAx_lnk (c : Nat) (x : Axis) : (s.setAx c x).lnk = s.lnk := (rfl)
@[simp] theorem State.setAx_rings (c : Nat) (x : Axis) : (s.setAx c x).rings = s.rings := (rfl)
@[simp] theorem State.setAx_twin (c : Nat) (x : Axis) : (s.setAx c x).twin = s.twin := (rfl)
@[simp] theorem State.setAx_gA (c : Nat) (x : Axis) : (s.setAx c x).gA = s.gA := (rfl)
@[simp] theorem State.setAx_gB (c : Nat) (x : Axis) : (s.setAx c x).gB = s.gB := (rfl)
@[simp] theorem State.setAx_seals (c : Nat) (x : Axis) : (s.setAx c x).seals = s.seals := (rfl)
@[simp] theorem State.setAx_acqs (c : Nat) (x : Axis) : (s.setAx c x).acqs = s.acqs := (rfl)
@[simp] theorem State.setAx_trig (c : Nat) (x : Axis) : (s.setAx c x).trig = s.trig := (rfl)
@[simp] theorem State.setAx_cab (c : Nat) (x : Axis) : (s.setAx c x).cab = s.cab := (rfl)
@[simp] theorem State.setAx_outputs (c : Nat) (x : Axis) : (s.setAx c x).outputs = s.outputs := (rfl)
@[simp] theorem State.setAx_free (c : Nat) (x : Axis) : (s.setAx c x).free = s.free := (rfl)
@[simp] theorem State.setAx_rg (c : Nat) (x : Axis) (q : Reg) (j : Nat) :
    (s.setAx c x).rg q j = s.rg q j := (rfl)
@[simp] theorem State.setAx_fb (c : Nat) (x : Axis) (j : Nat) :
    (s.setAx c x).fb j = s.fb j := (rfl)
@[simp] theorem State.setAx_pwm (c : Nat) (x : Axis) (j : Nat) :
    (s.setAx c x).pwm j = s.pwm j := (rfl)
@[simp] theorem State.setAx_grp (c : Nat) (x : Axis) (j : Nat) :
    (s.setAx c x).grp j = s.grp j := (rfl)
@[simp] theorem State.setAx_ev (c : Nat) (x : Axis) (j : Nat) :
    (s.setAx c x).ev j = s.ev j := (rfl)
@[simp] theorem State.setAx_ms (c : Nat) (x : Axis) (j : Nat) :
    (s.setAx c x).ms j = s.ms j := (rfl)
@[simp] theorem State.setAx_acq (c : Nat) (x : Axis) (j : Nat) :
    (s.setAx c x).acq j = s.acq j := (rfl)
@[simp] theorem State.setAx_dom (c : Nat) (x : Axis) (j : Nat) :
    (s.setAx c x).dom j = s.dom j := (rfl)
@[simp] theorem State.setAx_isOn (c : Nat) (x : Axis) (j : Nat) :
    (s.setAx c x).isOn j = s.isOn j := (rfl)
@[simp] theorem State.setAx_cq (c : Nat) (x : Axis) (j : Nat) :
    (s.setAx c x).cq j = s.cq j := (rfl)
@[simp] theorem State.setAx_sq (c : Nat) (x : Axis) (j : Nat) :
    (s.setAx c x).sq j = s.sq j := (rfl)
@[simp] theorem State.setAx_strm (c : Nat) (x : Axis) (j : Nat) :
    (s.setAx c x).strm j = s.strm j := (rfl)
@[simp] theorem State.setAx_ctx (c : Nat) (x : Axis) (j : Nat) :
    (s.setAx c x).ctx j = s.ctx j := (rfl)
@[simp] theorem State.setAx_eng (c : Nat) (x : Axis) (j : Nat) :
    (s.setAx c x).eng j = s.eng j := (rfl)
@[simp] theorem State.setAx_run (c : Nat) (x : Axis) (j : Nat) :
    (s.setAx c x).run j = s.run j := (rfl)
@[simp] theorem State.setAx_flow (c : Nat) (x : Axis) (j : Nat) :
    (s.setAx c x).flow j = s.flow j := (rfl)
@[simp] theorem State.setAx_blk (c : Nat) (x : Axis) (j : Nat) :
    (s.setAx c x).blk j = s.blk j := (rfl)
@[simp] theorem State.setAx_port (c : Nat) (x : Axis) (j : Nat) :
    (s.setAx c x).port j = s.port j := (rfl)
@[simp] theorem State.setAx_dir (c : Nat) (x : Axis) (j : Nat) :
    (s.setAx c x).dir j = s.dir j := (rfl)
@[simp] theorem State.setAx_ring (c : Nat) (x : Axis) (j : Nat) :
    (s.setAx c x).ring j = s.ring j := (rfl)
@[simp] theorem State.setAx_cabByte (c : Nat) (x : Axis) (j : Nat) :
    (s.setAx c x).cabByte j = s.cabByte j := (rfl)
@[simp] theorem State.setAx_bt32 (c : Nat) (x : Axis) :
    (s.setAx c x).bt32 = s.bt32 := (rfl)
@[simp] theorem State.setAx_guard (c : Nat) (x : Axis) (j : Bool) :
    (s.setAx c x).guard j = s.guard j := (rfl)
@[simp] theorem State.setAx_ax_self (c : Nat) (x : Axis) : (s.setAx c x).ax c = x := by
  simp [State.setAx, State.ax]
theorem State.setAx_ax_ne (c : Nat) (x : Axis) (j : Nat) (h : j ≠ c) :
    (s.setAx c x).ax j = s.ax j := by
  simp [State.setAx, State.ax, tget_tset, h]

/-! ### setFb -/

@[simp] theorem State.setFb_pending (n : Nat) (x : Fb) : (s.setFb n x).pending = s.pending := (rfl)
@[simp] theorem State.setFb_bt (n : Nat) (x : Fb) : (s.setFb n x).bt = s.bt := (rfl)
@[simp] theorem State.setFb_frac (n : Nat) (x : Fb) : (s.setFb n x).frac = s.frac := (rfl)
@[simp] theorem State.setFb_regs (n : Nat) (x : Fb) : (s.setFb n x).regs = s.regs := (rfl)
@[simp] theorem State.setFb_stage (n : Nat) (x : Fb) : (s.setFb n x).stage = s.stage := (rfl)
@[simp] theorem State.setFb_blks (n : Nat) (x : Fb) : (s.setFb n x).blks = s.blks := (rfl)
@[simp] theorem State.setFb_tm (n : Nat) (x : Fb) : (s.setFb n x).tm = s.tm := (rfl)
@[simp] theorem State.setFb_cyc (n : Nat) (x : Fb) : (s.setFb n x).cyc = s.cyc := (rfl)
@[simp] theorem State.setFb_ctxs (n : Nat) (x : Fb) : (s.setFb n x).ctxs = s.ctxs := (rfl)
@[simp] theorem State.setFb_runs (n : Nat) (x : Fb) : (s.setFb n x).runs = s.runs := (rfl)
@[simp] theorem State.setFb_flows (n : Nat) (x : Fb) : (s.setFb n x).flows = s.flows := (rfl)
@[simp] theorem State.setFb_disp (n : Nat) (x : Fb) : (s.setFb n x).disp = s.disp := (rfl)
@[simp] theorem State.setFb_engs (n : Nat) (x : Fb) : (s.setFb n x).engs = s.engs := (rfl)
@[simp] theorem State.setFb_host (n : Nat) (x : Fb) : (s.setFb n x).host = s.host := (rfl)
@[simp] theorem State.setFb_fw (n : Nat) (x : Fb) : (s.setFb n x).fw = s.fw := (rfl)
@[simp] theorem State.setFb_streams (n : Nat) (x : Fb) : (s.setFb n x).streams = s.streams := (rfl)
@[simp] theorem State.setFb_recd (n : Nat) (x : Fb) : (s.setFb n x).recd = s.recd := (rfl)
@[simp] theorem State.setFb_pwr (n : Nat) (x : Fb) : (s.setFb n x).pwr = s.pwr := (rfl)
@[simp] theorem State.setFb_boot (n : Nat) (x : Fb) : (s.setFb n x).boot = s.boot := (rfl)
@[simp] theorem State.setFb_pwms (n : Nat) (x : Fb) : (s.setFb n x).pwms = s.pwms := (rfl)
@[simp] theorem State.setFb_pwmFlt (n : Nat) (x : Fb) : (s.setFb n x).pwmFlt = s.pwmFlt := (rfl)
@[simp] theorem State.setFb_bgTo (n : Nat) (x : Fb) : (s.setFb n x).bgTo = s.bgTo := (rfl)
@[simp] theorem State.setFb_axes (n : Nat) (x : Fb) : (s.setFb n x).axes = s.axes := (rfl)
@[simp] theorem State.setFb_mss (n : Nat) (x : Fb) : (s.setFb n x).mss = s.mss := (rfl)
@[simp] theorem State.setFb_cams (n : Nat) (x : Fb) : (s.setFb n x).cams = s.cams := (rfl)
@[simp] theorem State.setFb_grps (n : Nat) (x : Fb) : (s.setFb n x).grps = s.grps := (rfl)
@[simp] theorem State.setFb_evs (n : Nat) (x : Fb) : (s.setFb n x).evs = s.evs := (rfl)
@[simp] theorem State.setFb_go (n : Nat) (x : Fb) : (s.setFb n x).go = s.go := (rfl)
@[simp] theorem State.setFb_lnk (n : Nat) (x : Fb) : (s.setFb n x).lnk = s.lnk := (rfl)
@[simp] theorem State.setFb_rings (n : Nat) (x : Fb) : (s.setFb n x).rings = s.rings := (rfl)
@[simp] theorem State.setFb_twin (n : Nat) (x : Fb) : (s.setFb n x).twin = s.twin := (rfl)
@[simp] theorem State.setFb_gA (n : Nat) (x : Fb) : (s.setFb n x).gA = s.gA := (rfl)
@[simp] theorem State.setFb_gB (n : Nat) (x : Fb) : (s.setFb n x).gB = s.gB := (rfl)
@[simp] theorem State.setFb_seals (n : Nat) (x : Fb) : (s.setFb n x).seals = s.seals := (rfl)
@[simp] theorem State.setFb_acqs (n : Nat) (x : Fb) : (s.setFb n x).acqs = s.acqs := (rfl)
@[simp] theorem State.setFb_trig (n : Nat) (x : Fb) : (s.setFb n x).trig = s.trig := (rfl)
@[simp] theorem State.setFb_cab (n : Nat) (x : Fb) : (s.setFb n x).cab = s.cab := (rfl)
@[simp] theorem State.setFb_outputs (n : Nat) (x : Fb) : (s.setFb n x).outputs = s.outputs := (rfl)
@[simp] theorem State.setFb_free (n : Nat) (x : Fb) : (s.setFb n x).free = s.free := (rfl)
@[simp] theorem State.setFb_rg (n : Nat) (x : Fb) (q : Reg) (j : Nat) :
    (s.setFb n x).rg q j = s.rg q j := (rfl)
@[simp] theorem State.setFb_ax (n : Nat) (x : Fb) (j : Nat) :
    (s.setFb n x).ax j = s.ax j := (rfl)
@[simp] theorem State.setFb_pwm (n : Nat) (x : Fb) (j : Nat) :
    (s.setFb n x).pwm j = s.pwm j := (rfl)
@[simp] theorem State.setFb_grp (n : Nat) (x : Fb) (j : Nat) :
    (s.setFb n x).grp j = s.grp j := (rfl)
@[simp] theorem State.setFb_ev (n : Nat) (x : Fb) (j : Nat) :
    (s.setFb n x).ev j = s.ev j := (rfl)
@[simp] theorem State.setFb_ms (n : Nat) (x : Fb) (j : Nat) :
    (s.setFb n x).ms j = s.ms j := (rfl)
@[simp] theorem State.setFb_acq (n : Nat) (x : Fb) (j : Nat) :
    (s.setFb n x).acq j = s.acq j := (rfl)
@[simp] theorem State.setFb_dom (n : Nat) (x : Fb) (j : Nat) :
    (s.setFb n x).dom j = s.dom j := (rfl)
@[simp] theorem State.setFb_isOn (n : Nat) (x : Fb) (j : Nat) :
    (s.setFb n x).isOn j = s.isOn j := (rfl)
@[simp] theorem State.setFb_cq (n : Nat) (x : Fb) (j : Nat) :
    (s.setFb n x).cq j = s.cq j := (rfl)
@[simp] theorem State.setFb_sq (n : Nat) (x : Fb) (j : Nat) :
    (s.setFb n x).sq j = s.sq j := (rfl)
@[simp] theorem State.setFb_strm (n : Nat) (x : Fb) (j : Nat) :
    (s.setFb n x).strm j = s.strm j := (rfl)
@[simp] theorem State.setFb_ctx (n : Nat) (x : Fb) (j : Nat) :
    (s.setFb n x).ctx j = s.ctx j := (rfl)
@[simp] theorem State.setFb_eng (n : Nat) (x : Fb) (j : Nat) :
    (s.setFb n x).eng j = s.eng j := (rfl)
@[simp] theorem State.setFb_run (n : Nat) (x : Fb) (j : Nat) :
    (s.setFb n x).run j = s.run j := (rfl)
@[simp] theorem State.setFb_flow (n : Nat) (x : Fb) (j : Nat) :
    (s.setFb n x).flow j = s.flow j := (rfl)
@[simp] theorem State.setFb_blk (n : Nat) (x : Fb) (j : Nat) :
    (s.setFb n x).blk j = s.blk j := (rfl)
@[simp] theorem State.setFb_port (n : Nat) (x : Fb) (j : Nat) :
    (s.setFb n x).port j = s.port j := (rfl)
@[simp] theorem State.setFb_dir (n : Nat) (x : Fb) (j : Nat) :
    (s.setFb n x).dir j = s.dir j := (rfl)
@[simp] theorem State.setFb_ring (n : Nat) (x : Fb) (j : Nat) :
    (s.setFb n x).ring j = s.ring j := (rfl)
@[simp] theorem State.setFb_cabByte (n : Nat) (x : Fb) (j : Nat) :
    (s.setFb n x).cabByte j = s.cabByte j := (rfl)
@[simp] theorem State.setFb_bt32 (n : Nat) (x : Fb) :
    (s.setFb n x).bt32 = s.bt32 := (rfl)
@[simp] theorem State.setFb_guard (n : Nat) (x : Fb) (j : Bool) :
    (s.setFb n x).guard j = s.guard j := (rfl)
@[simp] theorem State.setFb_fb_self (n : Nat) (x : Fb) : (s.setFb n x).fb n = x := by
  simp [State.setFb, State.fb]
theorem State.setFb_fb_ne (n : Nat) (x : Fb) (j : Nat) (h : j ≠ n) :
    (s.setFb n x).fb j = s.fb j := by
  simp [State.setFb, State.fb, tget_tset, h]

/-! ### setPwm -/

@[simp] theorem State.setPwm_pending (m : Nat) (x : Pwm) : (s.setPwm m x).pending = s.pending := (rfl)
@[simp] theorem State.setPwm_bt (m : Nat) (x : Pwm) : (s.setPwm m x).bt = s.bt := (rfl)
@[simp] theorem State.setPwm_frac (m : Nat) (x : Pwm) : (s.setPwm m x).frac = s.frac := (rfl)
@[simp] theorem State.setPwm_regs (m : Nat) (x : Pwm) : (s.setPwm m x).regs = s.regs := (rfl)
@[simp] theorem State.setPwm_stage (m : Nat) (x : Pwm) : (s.setPwm m x).stage = s.stage := (rfl)
@[simp] theorem State.setPwm_blks (m : Nat) (x : Pwm) : (s.setPwm m x).blks = s.blks := (rfl)
@[simp] theorem State.setPwm_tm (m : Nat) (x : Pwm) : (s.setPwm m x).tm = s.tm := (rfl)
@[simp] theorem State.setPwm_cyc (m : Nat) (x : Pwm) : (s.setPwm m x).cyc = s.cyc := (rfl)
@[simp] theorem State.setPwm_ctxs (m : Nat) (x : Pwm) : (s.setPwm m x).ctxs = s.ctxs := (rfl)
@[simp] theorem State.setPwm_runs (m : Nat) (x : Pwm) : (s.setPwm m x).runs = s.runs := (rfl)
@[simp] theorem State.setPwm_flows (m : Nat) (x : Pwm) : (s.setPwm m x).flows = s.flows := (rfl)
@[simp] theorem State.setPwm_disp (m : Nat) (x : Pwm) : (s.setPwm m x).disp = s.disp := (rfl)
@[simp] theorem State.setPwm_engs (m : Nat) (x : Pwm) : (s.setPwm m x).engs = s.engs := (rfl)
@[simp] theorem State.setPwm_host (m : Nat) (x : Pwm) : (s.setPwm m x).host = s.host := (rfl)
@[simp] theorem State.setPwm_fw (m : Nat) (x : Pwm) : (s.setPwm m x).fw = s.fw := (rfl)
@[simp] theorem State.setPwm_streams (m : Nat) (x : Pwm) : (s.setPwm m x).streams = s.streams := (rfl)
@[simp] theorem State.setPwm_recd (m : Nat) (x : Pwm) : (s.setPwm m x).recd = s.recd := (rfl)
@[simp] theorem State.setPwm_pwr (m : Nat) (x : Pwm) : (s.setPwm m x).pwr = s.pwr := (rfl)
@[simp] theorem State.setPwm_boot (m : Nat) (x : Pwm) : (s.setPwm m x).boot = s.boot := (rfl)
@[simp] theorem State.setPwm_fbs (m : Nat) (x : Pwm) : (s.setPwm m x).fbs = s.fbs := (rfl)
@[simp] theorem State.setPwm_pwmFlt (m : Nat) (x : Pwm) : (s.setPwm m x).pwmFlt = s.pwmFlt := (rfl)
@[simp] theorem State.setPwm_bgTo (m : Nat) (x : Pwm) : (s.setPwm m x).bgTo = s.bgTo := (rfl)
@[simp] theorem State.setPwm_axes (m : Nat) (x : Pwm) : (s.setPwm m x).axes = s.axes := (rfl)
@[simp] theorem State.setPwm_mss (m : Nat) (x : Pwm) : (s.setPwm m x).mss = s.mss := (rfl)
@[simp] theorem State.setPwm_cams (m : Nat) (x : Pwm) : (s.setPwm m x).cams = s.cams := (rfl)
@[simp] theorem State.setPwm_grps (m : Nat) (x : Pwm) : (s.setPwm m x).grps = s.grps := (rfl)
@[simp] theorem State.setPwm_evs (m : Nat) (x : Pwm) : (s.setPwm m x).evs = s.evs := (rfl)
@[simp] theorem State.setPwm_go (m : Nat) (x : Pwm) : (s.setPwm m x).go = s.go := (rfl)
@[simp] theorem State.setPwm_lnk (m : Nat) (x : Pwm) : (s.setPwm m x).lnk = s.lnk := (rfl)
@[simp] theorem State.setPwm_rings (m : Nat) (x : Pwm) : (s.setPwm m x).rings = s.rings := (rfl)
@[simp] theorem State.setPwm_twin (m : Nat) (x : Pwm) : (s.setPwm m x).twin = s.twin := (rfl)
@[simp] theorem State.setPwm_gA (m : Nat) (x : Pwm) : (s.setPwm m x).gA = s.gA := (rfl)
@[simp] theorem State.setPwm_gB (m : Nat) (x : Pwm) : (s.setPwm m x).gB = s.gB := (rfl)
@[simp] theorem State.setPwm_seals (m : Nat) (x : Pwm) : (s.setPwm m x).seals = s.seals := (rfl)
@[simp] theorem State.setPwm_acqs (m : Nat) (x : Pwm) : (s.setPwm m x).acqs = s.acqs := (rfl)
@[simp] theorem State.setPwm_trig (m : Nat) (x : Pwm) : (s.setPwm m x).trig = s.trig := (rfl)
@[simp] theorem State.setPwm_cab (m : Nat) (x : Pwm) : (s.setPwm m x).cab = s.cab := (rfl)
@[simp] theorem State.setPwm_outputs (m : Nat) (x : Pwm) : (s.setPwm m x).outputs = s.outputs := (rfl)
@[simp] theorem State.setPwm_free (m : Nat) (x : Pwm) : (s.setPwm m x).free = s.free := (rfl)
@[simp] theorem State.setPwm_rg (m : Nat) (x : Pwm) (q : Reg) (j : Nat) :
    (s.setPwm m x).rg q j = s.rg q j := (rfl)
@[simp] theorem State.setPwm_ax (m : Nat) (x : Pwm) (j : Nat) :
    (s.setPwm m x).ax j = s.ax j := (rfl)
@[simp] theorem State.setPwm_fb (m : Nat) (x : Pwm) (j : Nat) :
    (s.setPwm m x).fb j = s.fb j := (rfl)
@[simp] theorem State.setPwm_grp (m : Nat) (x : Pwm) (j : Nat) :
    (s.setPwm m x).grp j = s.grp j := (rfl)
@[simp] theorem State.setPwm_ev (m : Nat) (x : Pwm) (j : Nat) :
    (s.setPwm m x).ev j = s.ev j := (rfl)
@[simp] theorem State.setPwm_ms (m : Nat) (x : Pwm) (j : Nat) :
    (s.setPwm m x).ms j = s.ms j := (rfl)
@[simp] theorem State.setPwm_acq (m : Nat) (x : Pwm) (j : Nat) :
    (s.setPwm m x).acq j = s.acq j := (rfl)
@[simp] theorem State.setPwm_dom (m : Nat) (x : Pwm) (j : Nat) :
    (s.setPwm m x).dom j = s.dom j := (rfl)
@[simp] theorem State.setPwm_isOn (m : Nat) (x : Pwm) (j : Nat) :
    (s.setPwm m x).isOn j = s.isOn j := (rfl)
@[simp] theorem State.setPwm_cq (m : Nat) (x : Pwm) (j : Nat) :
    (s.setPwm m x).cq j = s.cq j := (rfl)
@[simp] theorem State.setPwm_sq (m : Nat) (x : Pwm) (j : Nat) :
    (s.setPwm m x).sq j = s.sq j := (rfl)
@[simp] theorem State.setPwm_strm (m : Nat) (x : Pwm) (j : Nat) :
    (s.setPwm m x).strm j = s.strm j := (rfl)
@[simp] theorem State.setPwm_ctx (m : Nat) (x : Pwm) (j : Nat) :
    (s.setPwm m x).ctx j = s.ctx j := (rfl)
@[simp] theorem State.setPwm_eng (m : Nat) (x : Pwm) (j : Nat) :
    (s.setPwm m x).eng j = s.eng j := (rfl)
@[simp] theorem State.setPwm_run (m : Nat) (x : Pwm) (j : Nat) :
    (s.setPwm m x).run j = s.run j := (rfl)
@[simp] theorem State.setPwm_flow (m : Nat) (x : Pwm) (j : Nat) :
    (s.setPwm m x).flow j = s.flow j := (rfl)
@[simp] theorem State.setPwm_blk (m : Nat) (x : Pwm) (j : Nat) :
    (s.setPwm m x).blk j = s.blk j := (rfl)
@[simp] theorem State.setPwm_port (m : Nat) (x : Pwm) (j : Nat) :
    (s.setPwm m x).port j = s.port j := (rfl)
@[simp] theorem State.setPwm_dir (m : Nat) (x : Pwm) (j : Nat) :
    (s.setPwm m x).dir j = s.dir j := (rfl)
@[simp] theorem State.setPwm_ring (m : Nat) (x : Pwm) (j : Nat) :
    (s.setPwm m x).ring j = s.ring j := (rfl)
@[simp] theorem State.setPwm_cabByte (m : Nat) (x : Pwm) (j : Nat) :
    (s.setPwm m x).cabByte j = s.cabByte j := (rfl)
@[simp] theorem State.setPwm_bt32 (m : Nat) (x : Pwm) :
    (s.setPwm m x).bt32 = s.bt32 := (rfl)
@[simp] theorem State.setPwm_guard (m : Nat) (x : Pwm) (j : Bool) :
    (s.setPwm m x).guard j = s.guard j := (rfl)
@[simp] theorem State.setPwm_pwm_self (m : Nat) (x : Pwm) : (s.setPwm m x).pwm m = x := by
  simp [State.setPwm, State.pwm]
theorem State.setPwm_pwm_ne (m : Nat) (x : Pwm) (j : Nat) (h : j ≠ m) :
    (s.setPwm m x).pwm j = s.pwm j := by
  simp [State.setPwm, State.pwm, tget_tset, h]

/-! ### setGrp -/

@[simp] theorem State.setGrp_pending (g : Nat) (x : Grp) : (s.setGrp g x).pending = s.pending := (rfl)
@[simp] theorem State.setGrp_bt (g : Nat) (x : Grp) : (s.setGrp g x).bt = s.bt := (rfl)
@[simp] theorem State.setGrp_frac (g : Nat) (x : Grp) : (s.setGrp g x).frac = s.frac := (rfl)
@[simp] theorem State.setGrp_regs (g : Nat) (x : Grp) : (s.setGrp g x).regs = s.regs := (rfl)
@[simp] theorem State.setGrp_stage (g : Nat) (x : Grp) : (s.setGrp g x).stage = s.stage := (rfl)
@[simp] theorem State.setGrp_blks (g : Nat) (x : Grp) : (s.setGrp g x).blks = s.blks := (rfl)
@[simp] theorem State.setGrp_tm (g : Nat) (x : Grp) : (s.setGrp g x).tm = s.tm := (rfl)
@[simp] theorem State.setGrp_cyc (g : Nat) (x : Grp) : (s.setGrp g x).cyc = s.cyc := (rfl)
@[simp] theorem State.setGrp_ctxs (g : Nat) (x : Grp) : (s.setGrp g x).ctxs = s.ctxs := (rfl)
@[simp] theorem State.setGrp_runs (g : Nat) (x : Grp) : (s.setGrp g x).runs = s.runs := (rfl)
@[simp] theorem State.setGrp_flows (g : Nat) (x : Grp) : (s.setGrp g x).flows = s.flows := (rfl)
@[simp] theorem State.setGrp_disp (g : Nat) (x : Grp) : (s.setGrp g x).disp = s.disp := (rfl)
@[simp] theorem State.setGrp_engs (g : Nat) (x : Grp) : (s.setGrp g x).engs = s.engs := (rfl)
@[simp] theorem State.setGrp_host (g : Nat) (x : Grp) : (s.setGrp g x).host = s.host := (rfl)
@[simp] theorem State.setGrp_fw (g : Nat) (x : Grp) : (s.setGrp g x).fw = s.fw := (rfl)
@[simp] theorem State.setGrp_streams (g : Nat) (x : Grp) : (s.setGrp g x).streams = s.streams := (rfl)
@[simp] theorem State.setGrp_recd (g : Nat) (x : Grp) : (s.setGrp g x).recd = s.recd := (rfl)
@[simp] theorem State.setGrp_pwr (g : Nat) (x : Grp) : (s.setGrp g x).pwr = s.pwr := (rfl)
@[simp] theorem State.setGrp_boot (g : Nat) (x : Grp) : (s.setGrp g x).boot = s.boot := (rfl)
@[simp] theorem State.setGrp_fbs (g : Nat) (x : Grp) : (s.setGrp g x).fbs = s.fbs := (rfl)
@[simp] theorem State.setGrp_pwms (g : Nat) (x : Grp) : (s.setGrp g x).pwms = s.pwms := (rfl)
@[simp] theorem State.setGrp_pwmFlt (g : Nat) (x : Grp) : (s.setGrp g x).pwmFlt = s.pwmFlt := (rfl)
@[simp] theorem State.setGrp_bgTo (g : Nat) (x : Grp) : (s.setGrp g x).bgTo = s.bgTo := (rfl)
@[simp] theorem State.setGrp_axes (g : Nat) (x : Grp) : (s.setGrp g x).axes = s.axes := (rfl)
@[simp] theorem State.setGrp_mss (g : Nat) (x : Grp) : (s.setGrp g x).mss = s.mss := (rfl)
@[simp] theorem State.setGrp_cams (g : Nat) (x : Grp) : (s.setGrp g x).cams = s.cams := (rfl)
@[simp] theorem State.setGrp_evs (g : Nat) (x : Grp) : (s.setGrp g x).evs = s.evs := (rfl)
@[simp] theorem State.setGrp_go (g : Nat) (x : Grp) : (s.setGrp g x).go = s.go := (rfl)
@[simp] theorem State.setGrp_lnk (g : Nat) (x : Grp) : (s.setGrp g x).lnk = s.lnk := (rfl)
@[simp] theorem State.setGrp_rings (g : Nat) (x : Grp) : (s.setGrp g x).rings = s.rings := (rfl)
@[simp] theorem State.setGrp_twin (g : Nat) (x : Grp) : (s.setGrp g x).twin = s.twin := (rfl)
@[simp] theorem State.setGrp_gA (g : Nat) (x : Grp) : (s.setGrp g x).gA = s.gA := (rfl)
@[simp] theorem State.setGrp_gB (g : Nat) (x : Grp) : (s.setGrp g x).gB = s.gB := (rfl)
@[simp] theorem State.setGrp_seals (g : Nat) (x : Grp) : (s.setGrp g x).seals = s.seals := (rfl)
@[simp] theorem State.setGrp_acqs (g : Nat) (x : Grp) : (s.setGrp g x).acqs = s.acqs := (rfl)
@[simp] theorem State.setGrp_trig (g : Nat) (x : Grp) : (s.setGrp g x).trig = s.trig := (rfl)
@[simp] theorem State.setGrp_cab (g : Nat) (x : Grp) : (s.setGrp g x).cab = s.cab := (rfl)
@[simp] theorem State.setGrp_outputs (g : Nat) (x : Grp) : (s.setGrp g x).outputs = s.outputs := (rfl)
@[simp] theorem State.setGrp_free (g : Nat) (x : Grp) : (s.setGrp g x).free = s.free := (rfl)
@[simp] theorem State.setGrp_rg (g : Nat) (x : Grp) (q : Reg) (j : Nat) :
    (s.setGrp g x).rg q j = s.rg q j := (rfl)
@[simp] theorem State.setGrp_ax (g : Nat) (x : Grp) (j : Nat) :
    (s.setGrp g x).ax j = s.ax j := (rfl)
@[simp] theorem State.setGrp_fb (g : Nat) (x : Grp) (j : Nat) :
    (s.setGrp g x).fb j = s.fb j := (rfl)
@[simp] theorem State.setGrp_pwm (g : Nat) (x : Grp) (j : Nat) :
    (s.setGrp g x).pwm j = s.pwm j := (rfl)
@[simp] theorem State.setGrp_ev (g : Nat) (x : Grp) (j : Nat) :
    (s.setGrp g x).ev j = s.ev j := (rfl)
@[simp] theorem State.setGrp_ms (g : Nat) (x : Grp) (j : Nat) :
    (s.setGrp g x).ms j = s.ms j := (rfl)
@[simp] theorem State.setGrp_acq (g : Nat) (x : Grp) (j : Nat) :
    (s.setGrp g x).acq j = s.acq j := (rfl)
@[simp] theorem State.setGrp_dom (g : Nat) (x : Grp) (j : Nat) :
    (s.setGrp g x).dom j = s.dom j := (rfl)
@[simp] theorem State.setGrp_isOn (g : Nat) (x : Grp) (j : Nat) :
    (s.setGrp g x).isOn j = s.isOn j := (rfl)
@[simp] theorem State.setGrp_cq (g : Nat) (x : Grp) (j : Nat) :
    (s.setGrp g x).cq j = s.cq j := (rfl)
@[simp] theorem State.setGrp_sq (g : Nat) (x : Grp) (j : Nat) :
    (s.setGrp g x).sq j = s.sq j := (rfl)
@[simp] theorem State.setGrp_strm (g : Nat) (x : Grp) (j : Nat) :
    (s.setGrp g x).strm j = s.strm j := (rfl)
@[simp] theorem State.setGrp_ctx (g : Nat) (x : Grp) (j : Nat) :
    (s.setGrp g x).ctx j = s.ctx j := (rfl)
@[simp] theorem State.setGrp_eng (g : Nat) (x : Grp) (j : Nat) :
    (s.setGrp g x).eng j = s.eng j := (rfl)
@[simp] theorem State.setGrp_run (g : Nat) (x : Grp) (j : Nat) :
    (s.setGrp g x).run j = s.run j := (rfl)
@[simp] theorem State.setGrp_flow (g : Nat) (x : Grp) (j : Nat) :
    (s.setGrp g x).flow j = s.flow j := (rfl)
@[simp] theorem State.setGrp_blk (g : Nat) (x : Grp) (j : Nat) :
    (s.setGrp g x).blk j = s.blk j := (rfl)
@[simp] theorem State.setGrp_port (g : Nat) (x : Grp) (j : Nat) :
    (s.setGrp g x).port j = s.port j := (rfl)
@[simp] theorem State.setGrp_dir (g : Nat) (x : Grp) (j : Nat) :
    (s.setGrp g x).dir j = s.dir j := (rfl)
@[simp] theorem State.setGrp_ring (g : Nat) (x : Grp) (j : Nat) :
    (s.setGrp g x).ring j = s.ring j := (rfl)
@[simp] theorem State.setGrp_cabByte (g : Nat) (x : Grp) (j : Nat) :
    (s.setGrp g x).cabByte j = s.cabByte j := (rfl)
@[simp] theorem State.setGrp_bt32 (g : Nat) (x : Grp) :
    (s.setGrp g x).bt32 = s.bt32 := (rfl)
@[simp] theorem State.setGrp_guard (g : Nat) (x : Grp) (j : Bool) :
    (s.setGrp g x).guard j = s.guard j := (rfl)
@[simp] theorem State.setGrp_grp_self (g : Nat) (x : Grp) : (s.setGrp g x).grp g = x := by
  simp [State.setGrp, State.grp]
theorem State.setGrp_grp_ne (g : Nat) (x : Grp) (j : Nat) (h : j ≠ g) :
    (s.setGrp g x).grp j = s.grp j := by
  simp [State.setGrp, State.grp, tget_tset, h]

/-! ### setEv -/

@[simp] theorem State.setEv_pending (k : Nat) (x : Ev) : (s.setEv k x).pending = s.pending := (rfl)
@[simp] theorem State.setEv_bt (k : Nat) (x : Ev) : (s.setEv k x).bt = s.bt := (rfl)
@[simp] theorem State.setEv_frac (k : Nat) (x : Ev) : (s.setEv k x).frac = s.frac := (rfl)
@[simp] theorem State.setEv_regs (k : Nat) (x : Ev) : (s.setEv k x).regs = s.regs := (rfl)
@[simp] theorem State.setEv_stage (k : Nat) (x : Ev) : (s.setEv k x).stage = s.stage := (rfl)
@[simp] theorem State.setEv_blks (k : Nat) (x : Ev) : (s.setEv k x).blks = s.blks := (rfl)
@[simp] theorem State.setEv_tm (k : Nat) (x : Ev) : (s.setEv k x).tm = s.tm := (rfl)
@[simp] theorem State.setEv_cyc (k : Nat) (x : Ev) : (s.setEv k x).cyc = s.cyc := (rfl)
@[simp] theorem State.setEv_ctxs (k : Nat) (x : Ev) : (s.setEv k x).ctxs = s.ctxs := (rfl)
@[simp] theorem State.setEv_runs (k : Nat) (x : Ev) : (s.setEv k x).runs = s.runs := (rfl)
@[simp] theorem State.setEv_flows (k : Nat) (x : Ev) : (s.setEv k x).flows = s.flows := (rfl)
@[simp] theorem State.setEv_disp (k : Nat) (x : Ev) : (s.setEv k x).disp = s.disp := (rfl)
@[simp] theorem State.setEv_engs (k : Nat) (x : Ev) : (s.setEv k x).engs = s.engs := (rfl)
@[simp] theorem State.setEv_host (k : Nat) (x : Ev) : (s.setEv k x).host = s.host := (rfl)
@[simp] theorem State.setEv_fw (k : Nat) (x : Ev) : (s.setEv k x).fw = s.fw := (rfl)
@[simp] theorem State.setEv_streams (k : Nat) (x : Ev) : (s.setEv k x).streams = s.streams := (rfl)
@[simp] theorem State.setEv_recd (k : Nat) (x : Ev) : (s.setEv k x).recd = s.recd := (rfl)
@[simp] theorem State.setEv_pwr (k : Nat) (x : Ev) : (s.setEv k x).pwr = s.pwr := (rfl)
@[simp] theorem State.setEv_boot (k : Nat) (x : Ev) : (s.setEv k x).boot = s.boot := (rfl)
@[simp] theorem State.setEv_fbs (k : Nat) (x : Ev) : (s.setEv k x).fbs = s.fbs := (rfl)
@[simp] theorem State.setEv_pwms (k : Nat) (x : Ev) : (s.setEv k x).pwms = s.pwms := (rfl)
@[simp] theorem State.setEv_pwmFlt (k : Nat) (x : Ev) : (s.setEv k x).pwmFlt = s.pwmFlt := (rfl)
@[simp] theorem State.setEv_bgTo (k : Nat) (x : Ev) : (s.setEv k x).bgTo = s.bgTo := (rfl)
@[simp] theorem State.setEv_axes (k : Nat) (x : Ev) : (s.setEv k x).axes = s.axes := (rfl)
@[simp] theorem State.setEv_mss (k : Nat) (x : Ev) : (s.setEv k x).mss = s.mss := (rfl)
@[simp] theorem State.setEv_cams (k : Nat) (x : Ev) : (s.setEv k x).cams = s.cams := (rfl)
@[simp] theorem State.setEv_grps (k : Nat) (x : Ev) : (s.setEv k x).grps = s.grps := (rfl)
@[simp] theorem State.setEv_go (k : Nat) (x : Ev) : (s.setEv k x).go = s.go := (rfl)
@[simp] theorem State.setEv_lnk (k : Nat) (x : Ev) : (s.setEv k x).lnk = s.lnk := (rfl)
@[simp] theorem State.setEv_rings (k : Nat) (x : Ev) : (s.setEv k x).rings = s.rings := (rfl)
@[simp] theorem State.setEv_twin (k : Nat) (x : Ev) : (s.setEv k x).twin = s.twin := (rfl)
@[simp] theorem State.setEv_gA (k : Nat) (x : Ev) : (s.setEv k x).gA = s.gA := (rfl)
@[simp] theorem State.setEv_gB (k : Nat) (x : Ev) : (s.setEv k x).gB = s.gB := (rfl)
@[simp] theorem State.setEv_seals (k : Nat) (x : Ev) : (s.setEv k x).seals = s.seals := (rfl)
@[simp] theorem State.setEv_acqs (k : Nat) (x : Ev) : (s.setEv k x).acqs = s.acqs := (rfl)
@[simp] theorem State.setEv_trig (k : Nat) (x : Ev) : (s.setEv k x).trig = s.trig := (rfl)
@[simp] theorem State.setEv_cab (k : Nat) (x : Ev) : (s.setEv k x).cab = s.cab := (rfl)
@[simp] theorem State.setEv_outputs (k : Nat) (x : Ev) : (s.setEv k x).outputs = s.outputs := (rfl)
@[simp] theorem State.setEv_free (k : Nat) (x : Ev) : (s.setEv k x).free = s.free := (rfl)
@[simp] theorem State.setEv_rg (k : Nat) (x : Ev) (q : Reg) (j : Nat) :
    (s.setEv k x).rg q j = s.rg q j := (rfl)
@[simp] theorem State.setEv_ax (k : Nat) (x : Ev) (j : Nat) :
    (s.setEv k x).ax j = s.ax j := (rfl)
@[simp] theorem State.setEv_fb (k : Nat) (x : Ev) (j : Nat) :
    (s.setEv k x).fb j = s.fb j := (rfl)
@[simp] theorem State.setEv_pwm (k : Nat) (x : Ev) (j : Nat) :
    (s.setEv k x).pwm j = s.pwm j := (rfl)
@[simp] theorem State.setEv_grp (k : Nat) (x : Ev) (j : Nat) :
    (s.setEv k x).grp j = s.grp j := (rfl)
@[simp] theorem State.setEv_ms (k : Nat) (x : Ev) (j : Nat) :
    (s.setEv k x).ms j = s.ms j := (rfl)
@[simp] theorem State.setEv_acq (k : Nat) (x : Ev) (j : Nat) :
    (s.setEv k x).acq j = s.acq j := (rfl)
@[simp] theorem State.setEv_dom (k : Nat) (x : Ev) (j : Nat) :
    (s.setEv k x).dom j = s.dom j := (rfl)
@[simp] theorem State.setEv_isOn (k : Nat) (x : Ev) (j : Nat) :
    (s.setEv k x).isOn j = s.isOn j := (rfl)
@[simp] theorem State.setEv_cq (k : Nat) (x : Ev) (j : Nat) :
    (s.setEv k x).cq j = s.cq j := (rfl)
@[simp] theorem State.setEv_sq (k : Nat) (x : Ev) (j : Nat) :
    (s.setEv k x).sq j = s.sq j := (rfl)
@[simp] theorem State.setEv_strm (k : Nat) (x : Ev) (j : Nat) :
    (s.setEv k x).strm j = s.strm j := (rfl)
@[simp] theorem State.setEv_ctx (k : Nat) (x : Ev) (j : Nat) :
    (s.setEv k x).ctx j = s.ctx j := (rfl)
@[simp] theorem State.setEv_eng (k : Nat) (x : Ev) (j : Nat) :
    (s.setEv k x).eng j = s.eng j := (rfl)
@[simp] theorem State.setEv_run (k : Nat) (x : Ev) (j : Nat) :
    (s.setEv k x).run j = s.run j := (rfl)
@[simp] theorem State.setEv_flow (k : Nat) (x : Ev) (j : Nat) :
    (s.setEv k x).flow j = s.flow j := (rfl)
@[simp] theorem State.setEv_blk (k : Nat) (x : Ev) (j : Nat) :
    (s.setEv k x).blk j = s.blk j := (rfl)
@[simp] theorem State.setEv_port (k : Nat) (x : Ev) (j : Nat) :
    (s.setEv k x).port j = s.port j := (rfl)
@[simp] theorem State.setEv_dir (k : Nat) (x : Ev) (j : Nat) :
    (s.setEv k x).dir j = s.dir j := (rfl)
@[simp] theorem State.setEv_ring (k : Nat) (x : Ev) (j : Nat) :
    (s.setEv k x).ring j = s.ring j := (rfl)
@[simp] theorem State.setEv_cabByte (k : Nat) (x : Ev) (j : Nat) :
    (s.setEv k x).cabByte j = s.cabByte j := (rfl)
@[simp] theorem State.setEv_bt32 (k : Nat) (x : Ev) :
    (s.setEv k x).bt32 = s.bt32 := (rfl)
@[simp] theorem State.setEv_guard (k : Nat) (x : Ev) (j : Bool) :
    (s.setEv k x).guard j = s.guard j := (rfl)
@[simp] theorem State.setEv_ev_self (k : Nat) (x : Ev) : (s.setEv k x).ev k = x := by
  simp [State.setEv, State.ev]
theorem State.setEv_ev_ne (k : Nat) (x : Ev) (j : Nat) (h : j ≠ k) :
    (s.setEv k x).ev j = s.ev j := by
  simp [State.setEv, State.ev, tget_tset, h]

/-! ### setMs -/

@[simp] theorem State.setMs_pending (k : Nat) (x : Ms) : (s.setMs k x).pending = s.pending := (rfl)
@[simp] theorem State.setMs_bt (k : Nat) (x : Ms) : (s.setMs k x).bt = s.bt := (rfl)
@[simp] theorem State.setMs_frac (k : Nat) (x : Ms) : (s.setMs k x).frac = s.frac := (rfl)
@[simp] theorem State.setMs_regs (k : Nat) (x : Ms) : (s.setMs k x).regs = s.regs := (rfl)
@[simp] theorem State.setMs_stage (k : Nat) (x : Ms) : (s.setMs k x).stage = s.stage := (rfl)
@[simp] theorem State.setMs_blks (k : Nat) (x : Ms) : (s.setMs k x).blks = s.blks := (rfl)
@[simp] theorem State.setMs_tm (k : Nat) (x : Ms) : (s.setMs k x).tm = s.tm := (rfl)
@[simp] theorem State.setMs_cyc (k : Nat) (x : Ms) : (s.setMs k x).cyc = s.cyc := (rfl)
@[simp] theorem State.setMs_ctxs (k : Nat) (x : Ms) : (s.setMs k x).ctxs = s.ctxs := (rfl)
@[simp] theorem State.setMs_runs (k : Nat) (x : Ms) : (s.setMs k x).runs = s.runs := (rfl)
@[simp] theorem State.setMs_flows (k : Nat) (x : Ms) : (s.setMs k x).flows = s.flows := (rfl)
@[simp] theorem State.setMs_disp (k : Nat) (x : Ms) : (s.setMs k x).disp = s.disp := (rfl)
@[simp] theorem State.setMs_engs (k : Nat) (x : Ms) : (s.setMs k x).engs = s.engs := (rfl)
@[simp] theorem State.setMs_host (k : Nat) (x : Ms) : (s.setMs k x).host = s.host := (rfl)
@[simp] theorem State.setMs_fw (k : Nat) (x : Ms) : (s.setMs k x).fw = s.fw := (rfl)
@[simp] theorem State.setMs_streams (k : Nat) (x : Ms) : (s.setMs k x).streams = s.streams := (rfl)
@[simp] theorem State.setMs_recd (k : Nat) (x : Ms) : (s.setMs k x).recd = s.recd := (rfl)
@[simp] theorem State.setMs_pwr (k : Nat) (x : Ms) : (s.setMs k x).pwr = s.pwr := (rfl)
@[simp] theorem State.setMs_boot (k : Nat) (x : Ms) : (s.setMs k x).boot = s.boot := (rfl)
@[simp] theorem State.setMs_fbs (k : Nat) (x : Ms) : (s.setMs k x).fbs = s.fbs := (rfl)
@[simp] theorem State.setMs_pwms (k : Nat) (x : Ms) : (s.setMs k x).pwms = s.pwms := (rfl)
@[simp] theorem State.setMs_pwmFlt (k : Nat) (x : Ms) : (s.setMs k x).pwmFlt = s.pwmFlt := (rfl)
@[simp] theorem State.setMs_bgTo (k : Nat) (x : Ms) : (s.setMs k x).bgTo = s.bgTo := (rfl)
@[simp] theorem State.setMs_axes (k : Nat) (x : Ms) : (s.setMs k x).axes = s.axes := (rfl)
@[simp] theorem State.setMs_cams (k : Nat) (x : Ms) : (s.setMs k x).cams = s.cams := (rfl)
@[simp] theorem State.setMs_grps (k : Nat) (x : Ms) : (s.setMs k x).grps = s.grps := (rfl)
@[simp] theorem State.setMs_evs (k : Nat) (x : Ms) : (s.setMs k x).evs = s.evs := (rfl)
@[simp] theorem State.setMs_go (k : Nat) (x : Ms) : (s.setMs k x).go = s.go := (rfl)
@[simp] theorem State.setMs_lnk (k : Nat) (x : Ms) : (s.setMs k x).lnk = s.lnk := (rfl)
@[simp] theorem State.setMs_rings (k : Nat) (x : Ms) : (s.setMs k x).rings = s.rings := (rfl)
@[simp] theorem State.setMs_twin (k : Nat) (x : Ms) : (s.setMs k x).twin = s.twin := (rfl)
@[simp] theorem State.setMs_gA (k : Nat) (x : Ms) : (s.setMs k x).gA = s.gA := (rfl)
@[simp] theorem State.setMs_gB (k : Nat) (x : Ms) : (s.setMs k x).gB = s.gB := (rfl)
@[simp] theorem State.setMs_seals (k : Nat) (x : Ms) : (s.setMs k x).seals = s.seals := (rfl)
@[simp] theorem State.setMs_acqs (k : Nat) (x : Ms) : (s.setMs k x).acqs = s.acqs := (rfl)
@[simp] theorem State.setMs_trig (k : Nat) (x : Ms) : (s.setMs k x).trig = s.trig := (rfl)
@[simp] theorem State.setMs_cab (k : Nat) (x : Ms) : (s.setMs k x).cab = s.cab := (rfl)
@[simp] theorem State.setMs_outputs (k : Nat) (x : Ms) : (s.setMs k x).outputs = s.outputs := (rfl)
@[simp] theorem State.setMs_free (k : Nat) (x : Ms) : (s.setMs k x).free = s.free := (rfl)
@[simp] theorem State.setMs_rg (k : Nat) (x : Ms) (q : Reg) (j : Nat) :
    (s.setMs k x).rg q j = s.rg q j := (rfl)
@[simp] theorem State.setMs_ax (k : Nat) (x : Ms) (j : Nat) :
    (s.setMs k x).ax j = s.ax j := (rfl)
@[simp] theorem State.setMs_fb (k : Nat) (x : Ms) (j : Nat) :
    (s.setMs k x).fb j = s.fb j := (rfl)
@[simp] theorem State.setMs_pwm (k : Nat) (x : Ms) (j : Nat) :
    (s.setMs k x).pwm j = s.pwm j := (rfl)
@[simp] theorem State.setMs_grp (k : Nat) (x : Ms) (j : Nat) :
    (s.setMs k x).grp j = s.grp j := (rfl)
@[simp] theorem State.setMs_ev (k : Nat) (x : Ms) (j : Nat) :
    (s.setMs k x).ev j = s.ev j := (rfl)
@[simp] theorem State.setMs_acq (k : Nat) (x : Ms) (j : Nat) :
    (s.setMs k x).acq j = s.acq j := (rfl)
@[simp] theorem State.setMs_dom (k : Nat) (x : Ms) (j : Nat) :
    (s.setMs k x).dom j = s.dom j := (rfl)
@[simp] theorem State.setMs_isOn (k : Nat) (x : Ms) (j : Nat) :
    (s.setMs k x).isOn j = s.isOn j := (rfl)
@[simp] theorem State.setMs_cq (k : Nat) (x : Ms) (j : Nat) :
    (s.setMs k x).cq j = s.cq j := (rfl)
@[simp] theorem State.setMs_sq (k : Nat) (x : Ms) (j : Nat) :
    (s.setMs k x).sq j = s.sq j := (rfl)
@[simp] theorem State.setMs_strm (k : Nat) (x : Ms) (j : Nat) :
    (s.setMs k x).strm j = s.strm j := (rfl)
@[simp] theorem State.setMs_ctx (k : Nat) (x : Ms) (j : Nat) :
    (s.setMs k x).ctx j = s.ctx j := (rfl)
@[simp] theorem State.setMs_eng (k : Nat) (x : Ms) (j : Nat) :
    (s.setMs k x).eng j = s.eng j := (rfl)
@[simp] theorem State.setMs_run (k : Nat) (x : Ms) (j : Nat) :
    (s.setMs k x).run j = s.run j := (rfl)
@[simp] theorem State.setMs_flow (k : Nat) (x : Ms) (j : Nat) :
    (s.setMs k x).flow j = s.flow j := (rfl)
@[simp] theorem State.setMs_blk (k : Nat) (x : Ms) (j : Nat) :
    (s.setMs k x).blk j = s.blk j := (rfl)
@[simp] theorem State.setMs_port (k : Nat) (x : Ms) (j : Nat) :
    (s.setMs k x).port j = s.port j := (rfl)
@[simp] theorem State.setMs_dir (k : Nat) (x : Ms) (j : Nat) :
    (s.setMs k x).dir j = s.dir j := (rfl)
@[simp] theorem State.setMs_ring (k : Nat) (x : Ms) (j : Nat) :
    (s.setMs k x).ring j = s.ring j := (rfl)
@[simp] theorem State.setMs_cabByte (k : Nat) (x : Ms) (j : Nat) :
    (s.setMs k x).cabByte j = s.cabByte j := (rfl)
@[simp] theorem State.setMs_bt32 (k : Nat) (x : Ms) :
    (s.setMs k x).bt32 = s.bt32 := (rfl)
@[simp] theorem State.setMs_guard (k : Nat) (x : Ms) (j : Bool) :
    (s.setMs k x).guard j = s.guard j := (rfl)
@[simp] theorem State.setMs_ms_self (k : Nat) (x : Ms) : (s.setMs k x).ms k = x := by
  simp [State.setMs, State.ms]
theorem State.setMs_ms_ne (k : Nat) (x : Ms) (j : Nat) (h : j ≠ k) :
    (s.setMs k x).ms j = s.ms j := by
  simp [State.setMs, State.ms, tget_tset, h]

/-! ### setAcq -/

@[simp] theorem State.setAcq_pending (u : Nat) (x : AcqU) : (s.setAcq u x).pending = s.pending := (rfl)
@[simp] theorem State.setAcq_bt (u : Nat) (x : AcqU) : (s.setAcq u x).bt = s.bt := (rfl)
@[simp] theorem State.setAcq_frac (u : Nat) (x : AcqU) : (s.setAcq u x).frac = s.frac := (rfl)
@[simp] theorem State.setAcq_regs (u : Nat) (x : AcqU) : (s.setAcq u x).regs = s.regs := (rfl)
@[simp] theorem State.setAcq_stage (u : Nat) (x : AcqU) : (s.setAcq u x).stage = s.stage := (rfl)
@[simp] theorem State.setAcq_blks (u : Nat) (x : AcqU) : (s.setAcq u x).blks = s.blks := (rfl)
@[simp] theorem State.setAcq_tm (u : Nat) (x : AcqU) : (s.setAcq u x).tm = s.tm := (rfl)
@[simp] theorem State.setAcq_cyc (u : Nat) (x : AcqU) : (s.setAcq u x).cyc = s.cyc := (rfl)
@[simp] theorem State.setAcq_ctxs (u : Nat) (x : AcqU) : (s.setAcq u x).ctxs = s.ctxs := (rfl)
@[simp] theorem State.setAcq_runs (u : Nat) (x : AcqU) : (s.setAcq u x).runs = s.runs := (rfl)
@[simp] theorem State.setAcq_flows (u : Nat) (x : AcqU) : (s.setAcq u x).flows = s.flows := (rfl)
@[simp] theorem State.setAcq_disp (u : Nat) (x : AcqU) : (s.setAcq u x).disp = s.disp := (rfl)
@[simp] theorem State.setAcq_engs (u : Nat) (x : AcqU) : (s.setAcq u x).engs = s.engs := (rfl)
@[simp] theorem State.setAcq_host (u : Nat) (x : AcqU) : (s.setAcq u x).host = s.host := (rfl)
@[simp] theorem State.setAcq_fw (u : Nat) (x : AcqU) : (s.setAcq u x).fw = s.fw := (rfl)
@[simp] theorem State.setAcq_streams (u : Nat) (x : AcqU) : (s.setAcq u x).streams = s.streams := (rfl)
@[simp] theorem State.setAcq_recd (u : Nat) (x : AcqU) : (s.setAcq u x).recd = s.recd := (rfl)
@[simp] theorem State.setAcq_pwr (u : Nat) (x : AcqU) : (s.setAcq u x).pwr = s.pwr := (rfl)
@[simp] theorem State.setAcq_boot (u : Nat) (x : AcqU) : (s.setAcq u x).boot = s.boot := (rfl)
@[simp] theorem State.setAcq_fbs (u : Nat) (x : AcqU) : (s.setAcq u x).fbs = s.fbs := (rfl)
@[simp] theorem State.setAcq_pwms (u : Nat) (x : AcqU) : (s.setAcq u x).pwms = s.pwms := (rfl)
@[simp] theorem State.setAcq_pwmFlt (u : Nat) (x : AcqU) : (s.setAcq u x).pwmFlt = s.pwmFlt := (rfl)
@[simp] theorem State.setAcq_bgTo (u : Nat) (x : AcqU) : (s.setAcq u x).bgTo = s.bgTo := (rfl)
@[simp] theorem State.setAcq_axes (u : Nat) (x : AcqU) : (s.setAcq u x).axes = s.axes := (rfl)
@[simp] theorem State.setAcq_mss (u : Nat) (x : AcqU) : (s.setAcq u x).mss = s.mss := (rfl)
@[simp] theorem State.setAcq_cams (u : Nat) (x : AcqU) : (s.setAcq u x).cams = s.cams := (rfl)
@[simp] theorem State.setAcq_grps (u : Nat) (x : AcqU) : (s.setAcq u x).grps = s.grps := (rfl)
@[simp] theorem State.setAcq_evs (u : Nat) (x : AcqU) : (s.setAcq u x).evs = s.evs := (rfl)
@[simp] theorem State.setAcq_go (u : Nat) (x : AcqU) : (s.setAcq u x).go = s.go := (rfl)
@[simp] theorem State.setAcq_lnk (u : Nat) (x : AcqU) : (s.setAcq u x).lnk = s.lnk := (rfl)
@[simp] theorem State.setAcq_rings (u : Nat) (x : AcqU) : (s.setAcq u x).rings = s.rings := (rfl)
@[simp] theorem State.setAcq_twin (u : Nat) (x : AcqU) : (s.setAcq u x).twin = s.twin := (rfl)
@[simp] theorem State.setAcq_gA (u : Nat) (x : AcqU) : (s.setAcq u x).gA = s.gA := (rfl)
@[simp] theorem State.setAcq_gB (u : Nat) (x : AcqU) : (s.setAcq u x).gB = s.gB := (rfl)
@[simp] theorem State.setAcq_seals (u : Nat) (x : AcqU) : (s.setAcq u x).seals = s.seals := (rfl)
@[simp] theorem State.setAcq_trig (u : Nat) (x : AcqU) : (s.setAcq u x).trig = s.trig := (rfl)
@[simp] theorem State.setAcq_cab (u : Nat) (x : AcqU) : (s.setAcq u x).cab = s.cab := (rfl)
@[simp] theorem State.setAcq_outputs (u : Nat) (x : AcqU) : (s.setAcq u x).outputs = s.outputs := (rfl)
@[simp] theorem State.setAcq_free (u : Nat) (x : AcqU) : (s.setAcq u x).free = s.free := (rfl)
@[simp] theorem State.setAcq_rg (u : Nat) (x : AcqU) (q : Reg) (j : Nat) :
    (s.setAcq u x).rg q j = s.rg q j := (rfl)
@[simp] theorem State.setAcq_ax (u : Nat) (x : AcqU) (j : Nat) :
    (s.setAcq u x).ax j = s.ax j := (rfl)
@[simp] theorem State.setAcq_fb (u : Nat) (x : AcqU) (j : Nat) :
    (s.setAcq u x).fb j = s.fb j := (rfl)
@[simp] theorem State.setAcq_pwm (u : Nat) (x : AcqU) (j : Nat) :
    (s.setAcq u x).pwm j = s.pwm j := (rfl)
@[simp] theorem State.setAcq_grp (u : Nat) (x : AcqU) (j : Nat) :
    (s.setAcq u x).grp j = s.grp j := (rfl)
@[simp] theorem State.setAcq_ev (u : Nat) (x : AcqU) (j : Nat) :
    (s.setAcq u x).ev j = s.ev j := (rfl)
@[simp] theorem State.setAcq_ms (u : Nat) (x : AcqU) (j : Nat) :
    (s.setAcq u x).ms j = s.ms j := (rfl)
@[simp] theorem State.setAcq_dom (u : Nat) (x : AcqU) (j : Nat) :
    (s.setAcq u x).dom j = s.dom j := (rfl)
@[simp] theorem State.setAcq_isOn (u : Nat) (x : AcqU) (j : Nat) :
    (s.setAcq u x).isOn j = s.isOn j := (rfl)
@[simp] theorem State.setAcq_cq (u : Nat) (x : AcqU) (j : Nat) :
    (s.setAcq u x).cq j = s.cq j := (rfl)
@[simp] theorem State.setAcq_sq (u : Nat) (x : AcqU) (j : Nat) :
    (s.setAcq u x).sq j = s.sq j := (rfl)
@[simp] theorem State.setAcq_strm (u : Nat) (x : AcqU) (j : Nat) :
    (s.setAcq u x).strm j = s.strm j := (rfl)
@[simp] theorem State.setAcq_ctx (u : Nat) (x : AcqU) (j : Nat) :
    (s.setAcq u x).ctx j = s.ctx j := (rfl)
@[simp] theorem State.setAcq_eng (u : Nat) (x : AcqU) (j : Nat) :
    (s.setAcq u x).eng j = s.eng j := (rfl)
@[simp] theorem State.setAcq_run (u : Nat) (x : AcqU) (j : Nat) :
    (s.setAcq u x).run j = s.run j := (rfl)
@[simp] theorem State.setAcq_flow (u : Nat) (x : AcqU) (j : Nat) :
    (s.setAcq u x).flow j = s.flow j := (rfl)
@[simp] theorem State.setAcq_blk (u : Nat) (x : AcqU) (j : Nat) :
    (s.setAcq u x).blk j = s.blk j := (rfl)
@[simp] theorem State.setAcq_port (u : Nat) (x : AcqU) (j : Nat) :
    (s.setAcq u x).port j = s.port j := (rfl)
@[simp] theorem State.setAcq_dir (u : Nat) (x : AcqU) (j : Nat) :
    (s.setAcq u x).dir j = s.dir j := (rfl)
@[simp] theorem State.setAcq_ring (u : Nat) (x : AcqU) (j : Nat) :
    (s.setAcq u x).ring j = s.ring j := (rfl)
@[simp] theorem State.setAcq_cabByte (u : Nat) (x : AcqU) (j : Nat) :
    (s.setAcq u x).cabByte j = s.cabByte j := (rfl)
@[simp] theorem State.setAcq_bt32 (u : Nat) (x : AcqU) :
    (s.setAcq u x).bt32 = s.bt32 := (rfl)
@[simp] theorem State.setAcq_guard (u : Nat) (x : AcqU) (j : Bool) :
    (s.setAcq u x).guard j = s.guard j := (rfl)
@[simp] theorem State.setAcq_acq_self (u : Nat) (x : AcqU) : (s.setAcq u x).acq u = x := by
  simp [State.setAcq, State.acq]
theorem State.setAcq_acq_ne (u : Nat) (x : AcqU) (j : Nat) (h : j ≠ u) :
    (s.setAcq u x).acq j = s.acq j := by
  simp [State.setAcq, State.acq, tget_tset, h]

/-! ### setDom -/

@[simp] theorem State.setDom_pending (d : Nat) (x : Dom) : (s.setDom d x).pending = s.pending := (rfl)
@[simp] theorem State.setDom_bt (d : Nat) (x : Dom) : (s.setDom d x).bt = s.bt := (rfl)
@[simp] theorem State.setDom_frac (d : Nat) (x : Dom) : (s.setDom d x).frac = s.frac := (rfl)
@[simp] theorem State.setDom_regs (d : Nat) (x : Dom) : (s.setDom d x).regs = s.regs := (rfl)
@[simp] theorem State.setDom_stage (d : Nat) (x : Dom) : (s.setDom d x).stage = s.stage := (rfl)
@[simp] theorem State.setDom_blks (d : Nat) (x : Dom) : (s.setDom d x).blks = s.blks := (rfl)
@[simp] theorem State.setDom_tm (d : Nat) (x : Dom) : (s.setDom d x).tm = s.tm := (rfl)
@[simp] theorem State.setDom_cyc (d : Nat) (x : Dom) : (s.setDom d x).cyc = s.cyc := (rfl)
@[simp] theorem State.setDom_ctxs (d : Nat) (x : Dom) : (s.setDom d x).ctxs = s.ctxs := (rfl)
@[simp] theorem State.setDom_runs (d : Nat) (x : Dom) : (s.setDom d x).runs = s.runs := (rfl)
@[simp] theorem State.setDom_flows (d : Nat) (x : Dom) : (s.setDom d x).flows = s.flows := (rfl)
@[simp] theorem State.setDom_disp (d : Nat) (x : Dom) : (s.setDom d x).disp = s.disp := (rfl)
@[simp] theorem State.setDom_engs (d : Nat) (x : Dom) : (s.setDom d x).engs = s.engs := (rfl)
@[simp] theorem State.setDom_host (d : Nat) (x : Dom) : (s.setDom d x).host = s.host := (rfl)
@[simp] theorem State.setDom_fw (d : Nat) (x : Dom) : (s.setDom d x).fw = s.fw := (rfl)
@[simp] theorem State.setDom_streams (d : Nat) (x : Dom) : (s.setDom d x).streams = s.streams := (rfl)
@[simp] theorem State.setDom_recd (d : Nat) (x : Dom) : (s.setDom d x).recd = s.recd := (rfl)
@[simp] theorem State.setDom_boot (d : Nat) (x : Dom) : (s.setDom d x).boot = s.boot := (rfl)
@[simp] theorem State.setDom_fbs (d : Nat) (x : Dom) : (s.setDom d x).fbs = s.fbs := (rfl)
@[simp] theorem State.setDom_pwms (d : Nat) (x : Dom) : (s.setDom d x).pwms = s.pwms := (rfl)
@[simp] theorem State.setDom_pwmFlt (d : Nat) (x : Dom) : (s.setDom d x).pwmFlt = s.pwmFlt := (rfl)
@[simp] theorem State.setDom_bgTo (d : Nat) (x : Dom) : (s.setDom d x).bgTo = s.bgTo := (rfl)
@[simp] theorem State.setDom_axes (d : Nat) (x : Dom) : (s.setDom d x).axes = s.axes := (rfl)
@[simp] theorem State.setDom_mss (d : Nat) (x : Dom) : (s.setDom d x).mss = s.mss := (rfl)
@[simp] theorem State.setDom_cams (d : Nat) (x : Dom) : (s.setDom d x).cams = s.cams := (rfl)
@[simp] theorem State.setDom_grps (d : Nat) (x : Dom) : (s.setDom d x).grps = s.grps := (rfl)
@[simp] theorem State.setDom_evs (d : Nat) (x : Dom) : (s.setDom d x).evs = s.evs := (rfl)
@[simp] theorem State.setDom_go (d : Nat) (x : Dom) : (s.setDom d x).go = s.go := (rfl)
@[simp] theorem State.setDom_lnk (d : Nat) (x : Dom) : (s.setDom d x).lnk = s.lnk := (rfl)
@[simp] theorem State.setDom_rings (d : Nat) (x : Dom) : (s.setDom d x).rings = s.rings := (rfl)
@[simp] theorem State.setDom_twin (d : Nat) (x : Dom) : (s.setDom d x).twin = s.twin := (rfl)
@[simp] theorem State.setDom_gA (d : Nat) (x : Dom) : (s.setDom d x).gA = s.gA := (rfl)
@[simp] theorem State.setDom_gB (d : Nat) (x : Dom) : (s.setDom d x).gB = s.gB := (rfl)
@[simp] theorem State.setDom_seals (d : Nat) (x : Dom) : (s.setDom d x).seals = s.seals := (rfl)
@[simp] theorem State.setDom_acqs (d : Nat) (x : Dom) : (s.setDom d x).acqs = s.acqs := (rfl)
@[simp] theorem State.setDom_trig (d : Nat) (x : Dom) : (s.setDom d x).trig = s.trig := (rfl)
@[simp] theorem State.setDom_cab (d : Nat) (x : Dom) : (s.setDom d x).cab = s.cab := (rfl)
@[simp] theorem State.setDom_outputs (d : Nat) (x : Dom) : (s.setDom d x).outputs = s.outputs := (rfl)
@[simp] theorem State.setDom_free (d : Nat) (x : Dom) : (s.setDom d x).free = s.free := (rfl)
@[simp] theorem State.setDom_rg (d : Nat) (x : Dom) (q : Reg) (j : Nat) :
    (s.setDom d x).rg q j = s.rg q j := (rfl)
@[simp] theorem State.setDom_ax (d : Nat) (x : Dom) (j : Nat) :
    (s.setDom d x).ax j = s.ax j := (rfl)
@[simp] theorem State.setDom_fb (d : Nat) (x : Dom) (j : Nat) :
    (s.setDom d x).fb j = s.fb j := (rfl)
@[simp] theorem State.setDom_pwm (d : Nat) (x : Dom) (j : Nat) :
    (s.setDom d x).pwm j = s.pwm j := (rfl)
@[simp] theorem State.setDom_grp (d : Nat) (x : Dom) (j : Nat) :
    (s.setDom d x).grp j = s.grp j := (rfl)
@[simp] theorem State.setDom_ev (d : Nat) (x : Dom) (j : Nat) :
    (s.setDom d x).ev j = s.ev j := (rfl)
@[simp] theorem State.setDom_ms (d : Nat) (x : Dom) (j : Nat) :
    (s.setDom d x).ms j = s.ms j := (rfl)
@[simp] theorem State.setDom_acq (d : Nat) (x : Dom) (j : Nat) :
    (s.setDom d x).acq j = s.acq j := (rfl)
@[simp] theorem State.setDom_cq (d : Nat) (x : Dom) (j : Nat) :
    (s.setDom d x).cq j = s.cq j := (rfl)
@[simp] theorem State.setDom_sq (d : Nat) (x : Dom) (j : Nat) :
    (s.setDom d x).sq j = s.sq j := (rfl)
@[simp] theorem State.setDom_strm (d : Nat) (x : Dom) (j : Nat) :
    (s.setDom d x).strm j = s.strm j := (rfl)
@[simp] theorem State.setDom_ctx (d : Nat) (x : Dom) (j : Nat) :
    (s.setDom d x).ctx j = s.ctx j := (rfl)
@[simp] theorem State.setDom_eng (d : Nat) (x : Dom) (j : Nat) :
    (s.setDom d x).eng j = s.eng j := (rfl)
@[simp] theorem State.setDom_run (d : Nat) (x : Dom) (j : Nat) :
    (s.setDom d x).run j = s.run j := (rfl)
@[simp] theorem State.setDom_flow (d : Nat) (x : Dom) (j : Nat) :
    (s.setDom d x).flow j = s.flow j := (rfl)
@[simp] theorem State.setDom_blk (d : Nat) (x : Dom) (j : Nat) :
    (s.setDom d x).blk j = s.blk j := (rfl)
@[simp] theorem State.setDom_port (d : Nat) (x : Dom) (j : Nat) :
    (s.setDom d x).port j = s.port j := (rfl)
@[simp] theorem State.setDom_dir (d : Nat) (x : Dom) (j : Nat) :
    (s.setDom d x).dir j = s.dir j := (rfl)
@[simp] theorem State.setDom_ring (d : Nat) (x : Dom) (j : Nat) :
    (s.setDom d x).ring j = s.ring j := (rfl)
@[simp] theorem State.setDom_cabByte (d : Nat) (x : Dom) (j : Nat) :
    (s.setDom d x).cabByte j = s.cabByte j := (rfl)
@[simp] theorem State.setDom_bt32 (d : Nat) (x : Dom) :
    (s.setDom d x).bt32 = s.bt32 := (rfl)
@[simp] theorem State.setDom_guard (d : Nat) (x : Dom) (j : Bool) :
    (s.setDom d x).guard j = s.guard j := (rfl)
@[simp] theorem State.setDom_dom_self (d : Nat) (x : Dom) : (s.setDom d x).dom d = x := by
  simp [State.setDom, State.dom]
theorem State.setDom_dom_ne (d : Nat) (x : Dom) (j : Nat) (h : j ≠ d) :
    (s.setDom d x).dom j = s.dom j := by
  simp [State.setDom, State.dom, tget_tset, h]

/-! ### setCq -/

@[simp] theorem State.setCq_pending (n : Nat) (c : Cq) : (s.setCq n c).pending = s.pending := (rfl)
@[simp] theorem State.setCq_bt (n : Nat) (c : Cq) : (s.setCq n c).bt = s.bt := (rfl)
@[simp] theorem State.setCq_frac (n : Nat) (c : Cq) : (s.setCq n c).frac = s.frac := (rfl)
@[simp] theorem State.setCq_regs (n : Nat) (c : Cq) : (s.setCq n c).regs = s.regs := (rfl)
@[simp] theorem State.setCq_stage (n : Nat) (c : Cq) : (s.setCq n c).stage = s.stage := (rfl)
@[simp] theorem State.setCq_blks (n : Nat) (c : Cq) : (s.setCq n c).blks = s.blks := (rfl)
@[simp] theorem State.setCq_tm (n : Nat) (c : Cq) : (s.setCq n c).tm = s.tm := (rfl)
@[simp] theorem State.setCq_cyc (n : Nat) (c : Cq) : (s.setCq n c).cyc = s.cyc := (rfl)
@[simp] theorem State.setCq_ctxs (n : Nat) (c : Cq) : (s.setCq n c).ctxs = s.ctxs := (rfl)
@[simp] theorem State.setCq_runs (n : Nat) (c : Cq) : (s.setCq n c).runs = s.runs := (rfl)
@[simp] theorem State.setCq_flows (n : Nat) (c : Cq) : (s.setCq n c).flows = s.flows := (rfl)
@[simp] theorem State.setCq_disp (n : Nat) (c : Cq) : (s.setCq n c).disp = s.disp := (rfl)
@[simp] theorem State.setCq_engs (n : Nat) (c : Cq) : (s.setCq n c).engs = s.engs := (rfl)
@[simp] theorem State.setCq_fw (n : Nat) (c : Cq) : (s.setCq n c).fw = s.fw := (rfl)
@[simp] theorem State.setCq_streams (n : Nat) (c : Cq) : (s.setCq n c).streams = s.streams := (rfl)
@[simp] theorem State.setCq_recd (n : Nat) (c : Cq) : (s.setCq n c).recd = s.recd := (rfl)
@[simp] theorem State.setCq_pwr (n : Nat) (c : Cq) : (s.setCq n c).pwr = s.pwr := (rfl)
@[simp] theorem State.setCq_boot (n : Nat) (c : Cq) : (s.setCq n c).boot = s.boot := (rfl)
@[simp] theorem State.setCq_fbs (n : Nat) (c : Cq) : (s.setCq n c).fbs = s.fbs := (rfl)
@[simp] theorem State.setCq_pwms (n : Nat) (c : Cq) : (s.setCq n c).pwms = s.pwms := (rfl)
@[simp] theorem State.setCq_pwmFlt (n : Nat) (c : Cq) : (s.setCq n c).pwmFlt = s.pwmFlt := (rfl)
@[simp] theorem State.setCq_bgTo (n : Nat) (c : Cq) : (s.setCq n c).bgTo = s.bgTo := (rfl)
@[simp] theorem State.setCq_axes (n : Nat) (c : Cq) : (s.setCq n c).axes = s.axes := (rfl)
@[simp] theorem State.setCq_mss (n : Nat) (c : Cq) : (s.setCq n c).mss = s.mss := (rfl)
@[simp] theorem State.setCq_cams (n : Nat) (c : Cq) : (s.setCq n c).cams = s.cams := (rfl)
@[simp] theorem State.setCq_grps (n : Nat) (c : Cq) : (s.setCq n c).grps = s.grps := (rfl)
@[simp] theorem State.setCq_evs (n : Nat) (c : Cq) : (s.setCq n c).evs = s.evs := (rfl)
@[simp] theorem State.setCq_go (n : Nat) (c : Cq) : (s.setCq n c).go = s.go := (rfl)
@[simp] theorem State.setCq_lnk (n : Nat) (c : Cq) : (s.setCq n c).lnk = s.lnk := (rfl)
@[simp] theorem State.setCq_rings (n : Nat) (c : Cq) : (s.setCq n c).rings = s.rings := (rfl)
@[simp] theorem State.setCq_twin (n : Nat) (c : Cq) : (s.setCq n c).twin = s.twin := (rfl)
@[simp] theorem State.setCq_gA (n : Nat) (c : Cq) : (s.setCq n c).gA = s.gA := (rfl)
@[simp] theorem State.setCq_gB (n : Nat) (c : Cq) : (s.setCq n c).gB = s.gB := (rfl)
@[simp] theorem State.setCq_seals (n : Nat) (c : Cq) : (s.setCq n c).seals = s.seals := (rfl)
@[simp] theorem State.setCq_acqs (n : Nat) (c : Cq) : (s.setCq n c).acqs = s.acqs := (rfl)
@[simp] theorem State.setCq_trig (n : Nat) (c : Cq) : (s.setCq n c).trig = s.trig := (rfl)
@[simp] theorem State.setCq_cab (n : Nat) (c : Cq) : (s.setCq n c).cab = s.cab := (rfl)
@[simp] theorem State.setCq_outputs (n : Nat) (c : Cq) : (s.setCq n c).outputs = s.outputs := (rfl)
@[simp] theorem State.setCq_free (n : Nat) (c : Cq) : (s.setCq n c).free = s.free := (rfl)
@[simp] theorem State.setCq_rg (n : Nat) (c : Cq) (q : Reg) (j : Nat) :
    (s.setCq n c).rg q j = s.rg q j := (rfl)
@[simp] theorem State.setCq_ax (n : Nat) (c : Cq) (j : Nat) :
    (s.setCq n c).ax j = s.ax j := (rfl)
@[simp] theorem State.setCq_fb (n : Nat) (c : Cq) (j : Nat) :
    (s.setCq n c).fb j = s.fb j := (rfl)
@[simp] theorem State.setCq_pwm (n : Nat) (c : Cq) (j : Nat) :
    (s.setCq n c).pwm j = s.pwm j := (rfl)
@[simp] theorem State.setCq_grp (n : Nat) (c : Cq) (j : Nat) :
    (s.setCq n c).grp j = s.grp j := (rfl)
@[simp] theorem State.setCq_ev (n : Nat) (c : Cq) (j : Nat) :
    (s.setCq n c).ev j = s.ev j := (rfl)
@[simp] theorem State.setCq_ms (n : Nat) (c : Cq) (j : Nat) :
    (s.setCq n c).ms j = s.ms j := (rfl)
@[simp] theorem State.setCq_acq (n : Nat) (c : Cq) (j : Nat) :
    (s.setCq n c).acq j = s.acq j := (rfl)
@[simp] theorem State.setCq_dom (n : Nat) (c : Cq) (j : Nat) :
    (s.setCq n c).dom j = s.dom j := (rfl)
@[simp] theorem State.setCq_isOn (n : Nat) (c : Cq) (j : Nat) :
    (s.setCq n c).isOn j = s.isOn j := (rfl)
@[simp] theorem State.setCq_sq (n : Nat) (c : Cq) (j : Nat) :
    (s.setCq n c).sq j = s.sq j := (rfl)
@[simp] theorem State.setCq_strm (n : Nat) (c : Cq) (j : Nat) :
    (s.setCq n c).strm j = s.strm j := (rfl)
@[simp] theorem State.setCq_ctx (n : Nat) (c : Cq) (j : Nat) :
    (s.setCq n c).ctx j = s.ctx j := (rfl)
@[simp] theorem State.setCq_eng (n : Nat) (c : Cq) (j : Nat) :
    (s.setCq n c).eng j = s.eng j := (rfl)
@[simp] theorem State.setCq_run (n : Nat) (c : Cq) (j : Nat) :
    (s.setCq n c).run j = s.run j := (rfl)
@[simp] theorem State.setCq_flow (n : Nat) (c : Cq) (j : Nat) :
    (s.setCq n c).flow j = s.flow j := (rfl)
@[simp] theorem State.setCq_blk (n : Nat) (c : Cq) (j : Nat) :
    (s.setCq n c).blk j = s.blk j := (rfl)
@[simp] theorem State.setCq_port (n : Nat) (c : Cq) (j : Nat) :
    (s.setCq n c).port j = s.port j := (rfl)
@[simp] theorem State.setCq_dir (n : Nat) (c : Cq) (j : Nat) :
    (s.setCq n c).dir j = s.dir j := (rfl)
@[simp] theorem State.setCq_ring (n : Nat) (c : Cq) (j : Nat) :
    (s.setCq n c).ring j = s.ring j := (rfl)
@[simp] theorem State.setCq_cabByte (n : Nat) (c : Cq) (j : Nat) :
    (s.setCq n c).cabByte j = s.cabByte j := (rfl)
@[simp] theorem State.setCq_bt32 (n : Nat) (c : Cq) :
    (s.setCq n c).bt32 = s.bt32 := (rfl)
@[simp] theorem State.setCq_guard (n : Nat) (c : Cq) (j : Bool) :
    (s.setCq n c).guard j = s.guard j := (rfl)
@[simp] theorem State.setCq_cq_self (n : Nat) (c : Cq) : (s.setCq n c).cq n = c := by
  simp [State.setCq, State.cq]
theorem State.setCq_cq_ne (n : Nat) (c : Cq) (j : Nat) (h : j ≠ n) :
    (s.setCq n c).cq j = s.cq j := by
  simp [State.setCq, State.cq, tget_tset, h]

/-! ### setSq -/

@[simp] theorem State.setSq_pending (n : Nat) (x : Sq) : (s.setSq n x).pending = s.pending := (rfl)
@[simp] theorem State.setSq_bt (n : Nat) (x : Sq) : (s.setSq n x).bt = s.bt := (rfl)
@[simp] theorem State.setSq_frac (n : Nat) (x : Sq) : (s.setSq n x).frac = s.frac := (rfl)
@[simp] theorem State.setSq_regs (n : Nat) (x : Sq) : (s.setSq n x).regs = s.regs := (rfl)
@[simp] theorem State.setSq_stage (n : Nat) (x : Sq) : (s.setSq n x).stage = s.stage := (rfl)
@[simp] theorem State.setSq_blks (n : Nat) (x : Sq) : (s.setSq n x).blks = s.blks := (rfl)
@[simp] theorem State.setSq_tm (n : Nat) (x : Sq) : (s.setSq n x).tm = s.tm := (rfl)
@[simp] theorem State.setSq_cyc (n : Nat) (x : Sq) : (s.setSq n x).cyc = s.cyc := (rfl)
@[simp] theorem State.setSq_ctxs (n : Nat) (x : Sq) : (s.setSq n x).ctxs = s.ctxs := (rfl)
@[simp] theorem State.setSq_runs (n : Nat) (x : Sq) : (s.setSq n x).runs = s.runs := (rfl)
@[simp] theorem State.setSq_flows (n : Nat) (x : Sq) : (s.setSq n x).flows = s.flows := (rfl)
@[simp] theorem State.setSq_disp (n : Nat) (x : Sq) : (s.setSq n x).disp = s.disp := (rfl)
@[simp] theorem State.setSq_engs (n : Nat) (x : Sq) : (s.setSq n x).engs = s.engs := (rfl)
@[simp] theorem State.setSq_fw (n : Nat) (x : Sq) : (s.setSq n x).fw = s.fw := (rfl)
@[simp] theorem State.setSq_streams (n : Nat) (x : Sq) : (s.setSq n x).streams = s.streams := (rfl)
@[simp] theorem State.setSq_recd (n : Nat) (x : Sq) : (s.setSq n x).recd = s.recd := (rfl)
@[simp] theorem State.setSq_pwr (n : Nat) (x : Sq) : (s.setSq n x).pwr = s.pwr := (rfl)
@[simp] theorem State.setSq_boot (n : Nat) (x : Sq) : (s.setSq n x).boot = s.boot := (rfl)
@[simp] theorem State.setSq_fbs (n : Nat) (x : Sq) : (s.setSq n x).fbs = s.fbs := (rfl)
@[simp] theorem State.setSq_pwms (n : Nat) (x : Sq) : (s.setSq n x).pwms = s.pwms := (rfl)
@[simp] theorem State.setSq_pwmFlt (n : Nat) (x : Sq) : (s.setSq n x).pwmFlt = s.pwmFlt := (rfl)
@[simp] theorem State.setSq_bgTo (n : Nat) (x : Sq) : (s.setSq n x).bgTo = s.bgTo := (rfl)
@[simp] theorem State.setSq_axes (n : Nat) (x : Sq) : (s.setSq n x).axes = s.axes := (rfl)
@[simp] theorem State.setSq_mss (n : Nat) (x : Sq) : (s.setSq n x).mss = s.mss := (rfl)
@[simp] theorem State.setSq_cams (n : Nat) (x : Sq) : (s.setSq n x).cams = s.cams := (rfl)
@[simp] theorem State.setSq_grps (n : Nat) (x : Sq) : (s.setSq n x).grps = s.grps := (rfl)
@[simp] theorem State.setSq_evs (n : Nat) (x : Sq) : (s.setSq n x).evs = s.evs := (rfl)
@[simp] theorem State.setSq_go (n : Nat) (x : Sq) : (s.setSq n x).go = s.go := (rfl)
@[simp] theorem State.setSq_lnk (n : Nat) (x : Sq) : (s.setSq n x).lnk = s.lnk := (rfl)
@[simp] theorem State.setSq_rings (n : Nat) (x : Sq) : (s.setSq n x).rings = s.rings := (rfl)
@[simp] theorem State.setSq_twin (n : Nat) (x : Sq) : (s.setSq n x).twin = s.twin := (rfl)
@[simp] theorem State.setSq_gA (n : Nat) (x : Sq) : (s.setSq n x).gA = s.gA := (rfl)
@[simp] theorem State.setSq_gB (n : Nat) (x : Sq) : (s.setSq n x).gB = s.gB := (rfl)
@[simp] theorem State.setSq_seals (n : Nat) (x : Sq) : (s.setSq n x).seals = s.seals := (rfl)
@[simp] theorem State.setSq_acqs (n : Nat) (x : Sq) : (s.setSq n x).acqs = s.acqs := (rfl)
@[simp] theorem State.setSq_trig (n : Nat) (x : Sq) : (s.setSq n x).trig = s.trig := (rfl)
@[simp] theorem State.setSq_cab (n : Nat) (x : Sq) : (s.setSq n x).cab = s.cab := (rfl)
@[simp] theorem State.setSq_outputs (n : Nat) (x : Sq) : (s.setSq n x).outputs = s.outputs := (rfl)
@[simp] theorem State.setSq_free (n : Nat) (x : Sq) : (s.setSq n x).free = s.free := (rfl)
@[simp] theorem State.setSq_rg (n : Nat) (x : Sq) (q : Reg) (j : Nat) :
    (s.setSq n x).rg q j = s.rg q j := (rfl)
@[simp] theorem State.setSq_ax (n : Nat) (x : Sq) (j : Nat) :
    (s.setSq n x).ax j = s.ax j := (rfl)
@[simp] theorem State.setSq_fb (n : Nat) (x : Sq) (j : Nat) :
    (s.setSq n x).fb j = s.fb j := (rfl)
@[simp] theorem State.setSq_pwm (n : Nat) (x : Sq) (j : Nat) :
    (s.setSq n x).pwm j = s.pwm j := (rfl)
@[simp] theorem State.setSq_grp (n : Nat) (x : Sq) (j : Nat) :
    (s.setSq n x).grp j = s.grp j := (rfl)
@[simp] theorem State.setSq_ev (n : Nat) (x : Sq) (j : Nat) :
    (s.setSq n x).ev j = s.ev j := (rfl)
@[simp] theorem State.setSq_ms (n : Nat) (x : Sq) (j : Nat) :
    (s.setSq n x).ms j = s.ms j := (rfl)
@[simp] theorem State.setSq_acq (n : Nat) (x : Sq) (j : Nat) :
    (s.setSq n x).acq j = s.acq j := (rfl)
@[simp] theorem State.setSq_dom (n : Nat) (x : Sq) (j : Nat) :
    (s.setSq n x).dom j = s.dom j := (rfl)
@[simp] theorem State.setSq_isOn (n : Nat) (x : Sq) (j : Nat) :
    (s.setSq n x).isOn j = s.isOn j := (rfl)
@[simp] theorem State.setSq_cq (n : Nat) (x : Sq) (j : Nat) :
    (s.setSq n x).cq j = s.cq j := (rfl)
@[simp] theorem State.setSq_strm (n : Nat) (x : Sq) (j : Nat) :
    (s.setSq n x).strm j = s.strm j := (rfl)
@[simp] theorem State.setSq_ctx (n : Nat) (x : Sq) (j : Nat) :
    (s.setSq n x).ctx j = s.ctx j := (rfl)
@[simp] theorem State.setSq_eng (n : Nat) (x : Sq) (j : Nat) :
    (s.setSq n x).eng j = s.eng j := (rfl)
@[simp] theorem State.setSq_run (n : Nat) (x : Sq) (j : Nat) :
    (s.setSq n x).run j = s.run j := (rfl)
@[simp] theorem State.setSq_flow (n : Nat) (x : Sq) (j : Nat) :
    (s.setSq n x).flow j = s.flow j := (rfl)
@[simp] theorem State.setSq_blk (n : Nat) (x : Sq) (j : Nat) :
    (s.setSq n x).blk j = s.blk j := (rfl)
@[simp] theorem State.setSq_port (n : Nat) (x : Sq) (j : Nat) :
    (s.setSq n x).port j = s.port j := (rfl)
@[simp] theorem State.setSq_dir (n : Nat) (x : Sq) (j : Nat) :
    (s.setSq n x).dir j = s.dir j := (rfl)
@[simp] theorem State.setSq_ring (n : Nat) (x : Sq) (j : Nat) :
    (s.setSq n x).ring j = s.ring j := (rfl)
@[simp] theorem State.setSq_cabByte (n : Nat) (x : Sq) (j : Nat) :
    (s.setSq n x).cabByte j = s.cabByte j := (rfl)
@[simp] theorem State.setSq_bt32 (n : Nat) (x : Sq) :
    (s.setSq n x).bt32 = s.bt32 := (rfl)
@[simp] theorem State.setSq_guard (n : Nat) (x : Sq) (j : Bool) :
    (s.setSq n x).guard j = s.guard j := (rfl)
@[simp] theorem State.setSq_sq_self (n : Nat) (x : Sq) : (s.setSq n x).sq n = x := by
  simp [State.setSq, State.sq]
theorem State.setSq_sq_ne (n : Nat) (x : Sq) (j : Nat) (h : j ≠ n) :
    (s.setSq n x).sq j = s.sq j := by
  simp [State.setSq, State.sq, tget_tset, h]

/-! ### setStrm -/

@[simp] theorem State.setStrm_pending (k : Nat) (x : Stream) : (s.setStrm k x).pending = s.pending := (rfl)
@[simp] theorem State.setStrm_bt (k : Nat) (x : Stream) : (s.setStrm k x).bt = s.bt := (rfl)
@[simp] theorem State.setStrm_frac (k : Nat) (x : Stream) : (s.setStrm k x).frac = s.frac := (rfl)
@[simp] theorem State.setStrm_regs (k : Nat) (x : Stream) : (s.setStrm k x).regs = s.regs := (rfl)
@[simp] theorem State.setStrm_stage (k : Nat) (x : Stream) : (s.setStrm k x).stage = s.stage := (rfl)
@[simp] theorem State.setStrm_blks (k : Nat) (x : Stream) : (s.setStrm k x).blks = s.blks := (rfl)
@[simp] theorem State.setStrm_tm (k : Nat) (x : Stream) : (s.setStrm k x).tm = s.tm := (rfl)
@[simp] theorem State.setStrm_cyc (k : Nat) (x : Stream) : (s.setStrm k x).cyc = s.cyc := (rfl)
@[simp] theorem State.setStrm_ctxs (k : Nat) (x : Stream) : (s.setStrm k x).ctxs = s.ctxs := (rfl)
@[simp] theorem State.setStrm_runs (k : Nat) (x : Stream) : (s.setStrm k x).runs = s.runs := (rfl)
@[simp] theorem State.setStrm_flows (k : Nat) (x : Stream) : (s.setStrm k x).flows = s.flows := (rfl)
@[simp] theorem State.setStrm_disp (k : Nat) (x : Stream) : (s.setStrm k x).disp = s.disp := (rfl)
@[simp] theorem State.setStrm_engs (k : Nat) (x : Stream) : (s.setStrm k x).engs = s.engs := (rfl)
@[simp] theorem State.setStrm_host (k : Nat) (x : Stream) : (s.setStrm k x).host = s.host := (rfl)
@[simp] theorem State.setStrm_fw (k : Nat) (x : Stream) : (s.setStrm k x).fw = s.fw := (rfl)
@[simp] theorem State.setStrm_recd (k : Nat) (x : Stream) : (s.setStrm k x).recd = s.recd := (rfl)
@[simp] theorem State.setStrm_pwr (k : Nat) (x : Stream) : (s.setStrm k x).pwr = s.pwr := (rfl)
@[simp] theorem State.setStrm_boot (k : Nat) (x : Stream) : (s.setStrm k x).boot = s.boot := (rfl)
@[simp] theorem State.setStrm_fbs (k : Nat) (x : Stream) : (s.setStrm k x).fbs = s.fbs := (rfl)
@[simp] theorem State.setStrm_pwms (k : Nat) (x : Stream) : (s.setStrm k x).pwms = s.pwms := (rfl)
@[simp] theorem State.setStrm_pwmFlt (k : Nat) (x : Stream) : (s.setStrm k x).pwmFlt = s.pwmFlt := (rfl)
@[simp] theorem State.setStrm_bgTo (k : Nat) (x : Stream) : (s.setStrm k x).bgTo = s.bgTo := (rfl)
@[simp] theorem State.setStrm_axes (k : Nat) (x : Stream) : (s.setStrm k x).axes = s.axes := (rfl)
@[simp] theorem State.setStrm_mss (k : Nat) (x : Stream) : (s.setStrm k x).mss = s.mss := (rfl)
@[simp] theorem State.setStrm_cams (k : Nat) (x : Stream) : (s.setStrm k x).cams = s.cams := (rfl)
@[simp] theorem State.setStrm_grps (k : Nat) (x : Stream) : (s.setStrm k x).grps = s.grps := (rfl)
@[simp] theorem State.setStrm_evs (k : Nat) (x : Stream) : (s.setStrm k x).evs = s.evs := (rfl)
@[simp] theorem State.setStrm_go (k : Nat) (x : Stream) : (s.setStrm k x).go = s.go := (rfl)
@[simp] theorem State.setStrm_lnk (k : Nat) (x : Stream) : (s.setStrm k x).lnk = s.lnk := (rfl)
@[simp] theorem State.setStrm_rings (k : Nat) (x : Stream) : (s.setStrm k x).rings = s.rings := (rfl)
@[simp] theorem State.setStrm_twin (k : Nat) (x : Stream) : (s.setStrm k x).twin = s.twin := (rfl)
@[simp] theorem State.setStrm_gA (k : Nat) (x : Stream) : (s.setStrm k x).gA = s.gA := (rfl)
@[simp] theorem State.setStrm_gB (k : Nat) (x : Stream) : (s.setStrm k x).gB = s.gB := (rfl)
@[simp] theorem State.setStrm_seals (k : Nat) (x : Stream) : (s.setStrm k x).seals = s.seals := (rfl)
@[simp] theorem State.setStrm_acqs (k : Nat) (x : Stream) : (s.setStrm k x).acqs = s.acqs := (rfl)
@[simp] theorem State.setStrm_trig (k : Nat) (x : Stream) : (s.setStrm k x).trig = s.trig := (rfl)
@[simp] theorem State.setStrm_cab (k : Nat) (x : Stream) : (s.setStrm k x).cab = s.cab := (rfl)
@[simp] theorem State.setStrm_outputs (k : Nat) (x : Stream) : (s.setStrm k x).outputs = s.outputs := (rfl)
@[simp] theorem State.setStrm_free (k : Nat) (x : Stream) : (s.setStrm k x).free = s.free := (rfl)
@[simp] theorem State.setStrm_rg (k : Nat) (x : Stream) (q : Reg) (j : Nat) :
    (s.setStrm k x).rg q j = s.rg q j := (rfl)
@[simp] theorem State.setStrm_ax (k : Nat) (x : Stream) (j : Nat) :
    (s.setStrm k x).ax j = s.ax j := (rfl)
@[simp] theorem State.setStrm_fb (k : Nat) (x : Stream) (j : Nat) :
    (s.setStrm k x).fb j = s.fb j := (rfl)
@[simp] theorem State.setStrm_pwm (k : Nat) (x : Stream) (j : Nat) :
    (s.setStrm k x).pwm j = s.pwm j := (rfl)
@[simp] theorem State.setStrm_grp (k : Nat) (x : Stream) (j : Nat) :
    (s.setStrm k x).grp j = s.grp j := (rfl)
@[simp] theorem State.setStrm_ev (k : Nat) (x : Stream) (j : Nat) :
    (s.setStrm k x).ev j = s.ev j := (rfl)
@[simp] theorem State.setStrm_ms (k : Nat) (x : Stream) (j : Nat) :
    (s.setStrm k x).ms j = s.ms j := (rfl)
@[simp] theorem State.setStrm_acq (k : Nat) (x : Stream) (j : Nat) :
    (s.setStrm k x).acq j = s.acq j := (rfl)
@[simp] theorem State.setStrm_dom (k : Nat) (x : Stream) (j : Nat) :
    (s.setStrm k x).dom j = s.dom j := (rfl)
@[simp] theorem State.setStrm_isOn (k : Nat) (x : Stream) (j : Nat) :
    (s.setStrm k x).isOn j = s.isOn j := (rfl)
@[simp] theorem State.setStrm_cq (k : Nat) (x : Stream) (j : Nat) :
    (s.setStrm k x).cq j = s.cq j := (rfl)
@[simp] theorem State.setStrm_sq (k : Nat) (x : Stream) (j : Nat) :
    (s.setStrm k x).sq j = s.sq j := (rfl)
@[simp] theorem State.setStrm_ctx (k : Nat) (x : Stream) (j : Nat) :
    (s.setStrm k x).ctx j = s.ctx j := (rfl)
@[simp] theorem State.setStrm_eng (k : Nat) (x : Stream) (j : Nat) :
    (s.setStrm k x).eng j = s.eng j := (rfl)
@[simp] theorem State.setStrm_run (k : Nat) (x : Stream) (j : Nat) :
    (s.setStrm k x).run j = s.run j := (rfl)
@[simp] theorem State.setStrm_flow (k : Nat) (x : Stream) (j : Nat) :
    (s.setStrm k x).flow j = s.flow j := (rfl)
@[simp] theorem State.setStrm_blk (k : Nat) (x : Stream) (j : Nat) :
    (s.setStrm k x).blk j = s.blk j := (rfl)
@[simp] theorem State.setStrm_port (k : Nat) (x : Stream) (j : Nat) :
    (s.setStrm k x).port j = s.port j := (rfl)
@[simp] theorem State.setStrm_dir (k : Nat) (x : Stream) (j : Nat) :
    (s.setStrm k x).dir j = s.dir j := (rfl)
@[simp] theorem State.setStrm_ring (k : Nat) (x : Stream) (j : Nat) :
    (s.setStrm k x).ring j = s.ring j := (rfl)
@[simp] theorem State.setStrm_cabByte (k : Nat) (x : Stream) (j : Nat) :
    (s.setStrm k x).cabByte j = s.cabByte j := (rfl)
@[simp] theorem State.setStrm_bt32 (k : Nat) (x : Stream) :
    (s.setStrm k x).bt32 = s.bt32 := (rfl)
@[simp] theorem State.setStrm_guard (k : Nat) (x : Stream) (j : Bool) :
    (s.setStrm k x).guard j = s.guard j := (rfl)
@[simp] theorem State.setStrm_strm_self (k : Nat) (x : Stream) : (s.setStrm k x).strm k = x := by
  simp [State.setStrm, State.strm]
theorem State.setStrm_strm_ne (k : Nat) (x : Stream) (j : Nat) (h : j ≠ k) :
    (s.setStrm k x).strm j = s.strm j := by
  simp [State.setStrm, State.strm, tget_tset, h]

/-! ### setCtx -/

@[simp] theorem State.setCtx_pending (c : Nat) (x : CtxSt) : (s.setCtx c x).pending = s.pending := (rfl)
@[simp] theorem State.setCtx_bt (c : Nat) (x : CtxSt) : (s.setCtx c x).bt = s.bt := (rfl)
@[simp] theorem State.setCtx_frac (c : Nat) (x : CtxSt) : (s.setCtx c x).frac = s.frac := (rfl)
@[simp] theorem State.setCtx_regs (c : Nat) (x : CtxSt) : (s.setCtx c x).regs = s.regs := (rfl)
@[simp] theorem State.setCtx_stage (c : Nat) (x : CtxSt) : (s.setCtx c x).stage = s.stage := (rfl)
@[simp] theorem State.setCtx_blks (c : Nat) (x : CtxSt) : (s.setCtx c x).blks = s.blks := (rfl)
@[simp] theorem State.setCtx_tm (c : Nat) (x : CtxSt) : (s.setCtx c x).tm = s.tm := (rfl)
@[simp] theorem State.setCtx_cyc (c : Nat) (x : CtxSt) : (s.setCtx c x).cyc = s.cyc := (rfl)
@[simp] theorem State.setCtx_runs (c : Nat) (x : CtxSt) : (s.setCtx c x).runs = s.runs := (rfl)
@[simp] theorem State.setCtx_flows (c : Nat) (x : CtxSt) : (s.setCtx c x).flows = s.flows := (rfl)
@[simp] theorem State.setCtx_disp (c : Nat) (x : CtxSt) : (s.setCtx c x).disp = s.disp := (rfl)
@[simp] theorem State.setCtx_engs (c : Nat) (x : CtxSt) : (s.setCtx c x).engs = s.engs := (rfl)
@[simp] theorem State.setCtx_host (c : Nat) (x : CtxSt) : (s.setCtx c x).host = s.host := (rfl)
@[simp] theorem State.setCtx_fw (c : Nat) (x : CtxSt) : (s.setCtx c x).fw = s.fw := (rfl)
@[simp] theorem State.setCtx_streams (c : Nat) (x : CtxSt) : (s.setCtx c x).streams = s.streams := (rfl)
@[simp] theorem State.setCtx_recd (c : Nat) (x : CtxSt) : (s.setCtx c x).recd = s.recd := (rfl)
@[simp] theorem State.setCtx_pwr (c : Nat) (x : CtxSt) : (s.setCtx c x).pwr = s.pwr := (rfl)
@[simp] theorem State.setCtx_boot (c : Nat) (x : CtxSt) : (s.setCtx c x).boot = s.boot := (rfl)
@[simp] theorem State.setCtx_fbs (c : Nat) (x : CtxSt) : (s.setCtx c x).fbs = s.fbs := (rfl)
@[simp] theorem State.setCtx_pwms (c : Nat) (x : CtxSt) : (s.setCtx c x).pwms = s.pwms := (rfl)
@[simp] theorem State.setCtx_pwmFlt (c : Nat) (x : CtxSt) : (s.setCtx c x).pwmFlt = s.pwmFlt := (rfl)
@[simp] theorem State.setCtx_bgTo (c : Nat) (x : CtxSt) : (s.setCtx c x).bgTo = s.bgTo := (rfl)
@[simp] theorem State.setCtx_axes (c : Nat) (x : CtxSt) : (s.setCtx c x).axes = s.axes := (rfl)
@[simp] theorem State.setCtx_mss (c : Nat) (x : CtxSt) : (s.setCtx c x).mss = s.mss := (rfl)
@[simp] theorem State.setCtx_cams (c : Nat) (x : CtxSt) : (s.setCtx c x).cams = s.cams := (rfl)
@[simp] theorem State.setCtx_grps (c : Nat) (x : CtxSt) : (s.setCtx c x).grps = s.grps := (rfl)
@[simp] theorem State.setCtx_evs (c : Nat) (x : CtxSt) : (s.setCtx c x).evs = s.evs := (rfl)
@[simp] theorem State.setCtx_go (c : Nat) (x : CtxSt) : (s.setCtx c x).go = s.go := (rfl)
@[simp] theorem State.setCtx_lnk (c : Nat) (x : CtxSt) : (s.setCtx c x).lnk = s.lnk := (rfl)
@[simp] theorem State.setCtx_rings (c : Nat) (x : CtxSt) : (s.setCtx c x).rings = s.rings := (rfl)
@[simp] theorem State.setCtx_twin (c : Nat) (x : CtxSt) : (s.setCtx c x).twin = s.twin := (rfl)
@[simp] theorem State.setCtx_gA (c : Nat) (x : CtxSt) : (s.setCtx c x).gA = s.gA := (rfl)
@[simp] theorem State.setCtx_gB (c : Nat) (x : CtxSt) : (s.setCtx c x).gB = s.gB := (rfl)
@[simp] theorem State.setCtx_seals (c : Nat) (x : CtxSt) : (s.setCtx c x).seals = s.seals := (rfl)
@[simp] theorem State.setCtx_acqs (c : Nat) (x : CtxSt) : (s.setCtx c x).acqs = s.acqs := (rfl)
@[simp] theorem State.setCtx_trig (c : Nat) (x : CtxSt) : (s.setCtx c x).trig = s.trig := (rfl)
@[simp] theorem State.setCtx_cab (c : Nat) (x : CtxSt) : (s.setCtx c x).cab = s.cab := (rfl)
@[simp] theorem State.setCtx_outputs (c : Nat) (x : CtxSt) : (s.setCtx c x).outputs = s.outputs := (rfl)
@[simp] theorem State.setCtx_free (c : Nat) (x : CtxSt) : (s.setCtx c x).free = s.free := (rfl)
@[simp] theorem State.setCtx_rg (c : Nat) (x : CtxSt) (q : Reg) (j : Nat) :
    (s.setCtx c x).rg q j = s.rg q j := (rfl)
@[simp] theorem State.setCtx_ax (c : Nat) (x : CtxSt) (j : Nat) :
    (s.setCtx c x).ax j = s.ax j := (rfl)
@[simp] theorem State.setCtx_fb (c : Nat) (x : CtxSt) (j : Nat) :
    (s.setCtx c x).fb j = s.fb j := (rfl)
@[simp] theorem State.setCtx_pwm (c : Nat) (x : CtxSt) (j : Nat) :
    (s.setCtx c x).pwm j = s.pwm j := (rfl)
@[simp] theorem State.setCtx_grp (c : Nat) (x : CtxSt) (j : Nat) :
    (s.setCtx c x).grp j = s.grp j := (rfl)
@[simp] theorem State.setCtx_ev (c : Nat) (x : CtxSt) (j : Nat) :
    (s.setCtx c x).ev j = s.ev j := (rfl)
@[simp] theorem State.setCtx_ms (c : Nat) (x : CtxSt) (j : Nat) :
    (s.setCtx c x).ms j = s.ms j := (rfl)
@[simp] theorem State.setCtx_acq (c : Nat) (x : CtxSt) (j : Nat) :
    (s.setCtx c x).acq j = s.acq j := (rfl)
@[simp] theorem State.setCtx_dom (c : Nat) (x : CtxSt) (j : Nat) :
    (s.setCtx c x).dom j = s.dom j := (rfl)
@[simp] theorem State.setCtx_isOn (c : Nat) (x : CtxSt) (j : Nat) :
    (s.setCtx c x).isOn j = s.isOn j := (rfl)
@[simp] theorem State.setCtx_cq (c : Nat) (x : CtxSt) (j : Nat) :
    (s.setCtx c x).cq j = s.cq j := (rfl)
@[simp] theorem State.setCtx_sq (c : Nat) (x : CtxSt) (j : Nat) :
    (s.setCtx c x).sq j = s.sq j := (rfl)
@[simp] theorem State.setCtx_strm (c : Nat) (x : CtxSt) (j : Nat) :
    (s.setCtx c x).strm j = s.strm j := (rfl)
@[simp] theorem State.setCtx_eng (c : Nat) (x : CtxSt) (j : Nat) :
    (s.setCtx c x).eng j = s.eng j := (rfl)
@[simp] theorem State.setCtx_run (c : Nat) (x : CtxSt) (j : Nat) :
    (s.setCtx c x).run j = s.run j := (rfl)
@[simp] theorem State.setCtx_flow (c : Nat) (x : CtxSt) (j : Nat) :
    (s.setCtx c x).flow j = s.flow j := (rfl)
@[simp] theorem State.setCtx_blk (c : Nat) (x : CtxSt) (j : Nat) :
    (s.setCtx c x).blk j = s.blk j := (rfl)
@[simp] theorem State.setCtx_port (c : Nat) (x : CtxSt) (j : Nat) :
    (s.setCtx c x).port j = s.port j := (rfl)
@[simp] theorem State.setCtx_dir (c : Nat) (x : CtxSt) (j : Nat) :
    (s.setCtx c x).dir j = s.dir j := (rfl)
@[simp] theorem State.setCtx_ring (c : Nat) (x : CtxSt) (j : Nat) :
    (s.setCtx c x).ring j = s.ring j := (rfl)
@[simp] theorem State.setCtx_cabByte (c : Nat) (x : CtxSt) (j : Nat) :
    (s.setCtx c x).cabByte j = s.cabByte j := (rfl)
@[simp] theorem State.setCtx_bt32 (c : Nat) (x : CtxSt) :
    (s.setCtx c x).bt32 = s.bt32 := (rfl)
@[simp] theorem State.setCtx_guard (c : Nat) (x : CtxSt) (j : Bool) :
    (s.setCtx c x).guard j = s.guard j := (rfl)
@[simp] theorem State.setCtx_ctx_self (c : Nat) (x : CtxSt) : (s.setCtx c x).ctx c = x := by
  simp [State.setCtx, State.ctx]
theorem State.setCtx_ctx_ne (c : Nat) (x : CtxSt) (j : Nat) (h : j ≠ c) :
    (s.setCtx c x).ctx j = s.ctx j := by
  simp [State.setCtx, State.ctx, tget_tset, h]

/-! ### setEng -/

@[simp] theorem State.setEng_pending (e : Nat) (x : Engine) : (s.setEng e x).pending = s.pending := (rfl)
@[simp] theorem State.setEng_bt (e : Nat) (x : Engine) : (s.setEng e x).bt = s.bt := (rfl)
@[simp] theorem State.setEng_frac (e : Nat) (x : Engine) : (s.setEng e x).frac = s.frac := (rfl)
@[simp] theorem State.setEng_regs (e : Nat) (x : Engine) : (s.setEng e x).regs = s.regs := (rfl)
@[simp] theorem State.setEng_stage (e : Nat) (x : Engine) : (s.setEng e x).stage = s.stage := (rfl)
@[simp] theorem State.setEng_blks (e : Nat) (x : Engine) : (s.setEng e x).blks = s.blks := (rfl)
@[simp] theorem State.setEng_tm (e : Nat) (x : Engine) : (s.setEng e x).tm = s.tm := (rfl)
@[simp] theorem State.setEng_cyc (e : Nat) (x : Engine) : (s.setEng e x).cyc = s.cyc := (rfl)
@[simp] theorem State.setEng_ctxs (e : Nat) (x : Engine) : (s.setEng e x).ctxs = s.ctxs := (rfl)
@[simp] theorem State.setEng_runs (e : Nat) (x : Engine) : (s.setEng e x).runs = s.runs := (rfl)
@[simp] theorem State.setEng_flows (e : Nat) (x : Engine) : (s.setEng e x).flows = s.flows := (rfl)
@[simp] theorem State.setEng_disp (e : Nat) (x : Engine) : (s.setEng e x).disp = s.disp := (rfl)
@[simp] theorem State.setEng_host (e : Nat) (x : Engine) : (s.setEng e x).host = s.host := (rfl)
@[simp] theorem State.setEng_fw (e : Nat) (x : Engine) : (s.setEng e x).fw = s.fw := (rfl)
@[simp] theorem State.setEng_streams (e : Nat) (x : Engine) : (s.setEng e x).streams = s.streams := (rfl)
@[simp] theorem State.setEng_recd (e : Nat) (x : Engine) : (s.setEng e x).recd = s.recd := (rfl)
@[simp] theorem State.setEng_pwr (e : Nat) (x : Engine) : (s.setEng e x).pwr = s.pwr := (rfl)
@[simp] theorem State.setEng_boot (e : Nat) (x : Engine) : (s.setEng e x).boot = s.boot := (rfl)
@[simp] theorem State.setEng_fbs (e : Nat) (x : Engine) : (s.setEng e x).fbs = s.fbs := (rfl)
@[simp] theorem State.setEng_pwms (e : Nat) (x : Engine) : (s.setEng e x).pwms = s.pwms := (rfl)
@[simp] theorem State.setEng_pwmFlt (e : Nat) (x : Engine) : (s.setEng e x).pwmFlt = s.pwmFlt := (rfl)
@[simp] theorem State.setEng_bgTo (e : Nat) (x : Engine) : (s.setEng e x).bgTo = s.bgTo := (rfl)
@[simp] theorem State.setEng_axes (e : Nat) (x : Engine) : (s.setEng e x).axes = s.axes := (rfl)
@[simp] theorem State.setEng_mss (e : Nat) (x : Engine) : (s.setEng e x).mss = s.mss := (rfl)
@[simp] theorem State.setEng_cams (e : Nat) (x : Engine) : (s.setEng e x).cams = s.cams := (rfl)
@[simp] theorem State.setEng_grps (e : Nat) (x : Engine) : (s.setEng e x).grps = s.grps := (rfl)
@[simp] theorem State.setEng_evs (e : Nat) (x : Engine) : (s.setEng e x).evs = s.evs := (rfl)
@[simp] theorem State.setEng_go (e : Nat) (x : Engine) : (s.setEng e x).go = s.go := (rfl)
@[simp] theorem State.setEng_lnk (e : Nat) (x : Engine) : (s.setEng e x).lnk = s.lnk := (rfl)
@[simp] theorem State.setEng_rings (e : Nat) (x : Engine) : (s.setEng e x).rings = s.rings := (rfl)
@[simp] theorem State.setEng_twin (e : Nat) (x : Engine) : (s.setEng e x).twin = s.twin := (rfl)
@[simp] theorem State.setEng_gA (e : Nat) (x : Engine) : (s.setEng e x).gA = s.gA := (rfl)
@[simp] theorem State.setEng_gB (e : Nat) (x : Engine) : (s.setEng e x).gB = s.gB := (rfl)
@[simp] theorem State.setEng_seals (e : Nat) (x : Engine) : (s.setEng e x).seals = s.seals := (rfl)
@[simp] theorem State.setEng_acqs (e : Nat) (x : Engine) : (s.setEng e x).acqs = s.acqs := (rfl)
@[simp] theorem State.setEng_trig (e : Nat) (x : Engine) : (s.setEng e x).trig = s.trig := (rfl)
@[simp] theorem State.setEng_cab (e : Nat) (x : Engine) : (s.setEng e x).cab = s.cab := (rfl)
@[simp] theorem State.setEng_outputs (e : Nat) (x : Engine) : (s.setEng e x).outputs = s.outputs := (rfl)
@[simp] theorem State.setEng_free (e : Nat) (x : Engine) : (s.setEng e x).free = s.free := (rfl)
@[simp] theorem State.setEng_rg (e : Nat) (x : Engine) (q : Reg) (j : Nat) :
    (s.setEng e x).rg q j = s.rg q j := (rfl)
@[simp] theorem State.setEng_ax (e : Nat) (x : Engine) (j : Nat) :
    (s.setEng e x).ax j = s.ax j := (rfl)
@[simp] theorem State.setEng_fb (e : Nat) (x : Engine) (j : Nat) :
    (s.setEng e x).fb j = s.fb j := (rfl)
@[simp] theorem State.setEng_pwm (e : Nat) (x : Engine) (j : Nat) :
    (s.setEng e x).pwm j = s.pwm j := (rfl)
@[simp] theorem State.setEng_grp (e : Nat) (x : Engine) (j : Nat) :
    (s.setEng e x).grp j = s.grp j := (rfl)
@[simp] theorem State.setEng_ev (e : Nat) (x : Engine) (j : Nat) :
    (s.setEng e x).ev j = s.ev j := (rfl)
@[simp] theorem State.setEng_ms (e : Nat) (x : Engine) (j : Nat) :
    (s.setEng e x).ms j = s.ms j := (rfl)
@[simp] theorem State.setEng_acq (e : Nat) (x : Engine) (j : Nat) :
    (s.setEng e x).acq j = s.acq j := (rfl)
@[simp] theorem State.setEng_dom (e : Nat) (x : Engine) (j : Nat) :
    (s.setEng e x).dom j = s.dom j := (rfl)
@[simp] theorem State.setEng_isOn (e : Nat) (x : Engine) (j : Nat) :
    (s.setEng e x).isOn j = s.isOn j := (rfl)
@[simp] theorem State.setEng_cq (e : Nat) (x : Engine) (j : Nat) :
    (s.setEng e x).cq j = s.cq j := (rfl)
@[simp] theorem State.setEng_sq (e : Nat) (x : Engine) (j : Nat) :
    (s.setEng e x).sq j = s.sq j := (rfl)
@[simp] theorem State.setEng_strm (e : Nat) (x : Engine) (j : Nat) :
    (s.setEng e x).strm j = s.strm j := (rfl)
@[simp] theorem State.setEng_ctx (e : Nat) (x : Engine) (j : Nat) :
    (s.setEng e x).ctx j = s.ctx j := (rfl)
@[simp] theorem State.setEng_run (e : Nat) (x : Engine) (j : Nat) :
    (s.setEng e x).run j = s.run j := (rfl)
@[simp] theorem State.setEng_flow (e : Nat) (x : Engine) (j : Nat) :
    (s.setEng e x).flow j = s.flow j := (rfl)
@[simp] theorem State.setEng_blk (e : Nat) (x : Engine) (j : Nat) :
    (s.setEng e x).blk j = s.blk j := (rfl)
@[simp] theorem State.setEng_port (e : Nat) (x : Engine) (j : Nat) :
    (s.setEng e x).port j = s.port j := (rfl)
@[simp] theorem State.setEng_dir (e : Nat) (x : Engine) (j : Nat) :
    (s.setEng e x).dir j = s.dir j := (rfl)
@[simp] theorem State.setEng_ring (e : Nat) (x : Engine) (j : Nat) :
    (s.setEng e x).ring j = s.ring j := (rfl)
@[simp] theorem State.setEng_cabByte (e : Nat) (x : Engine) (j : Nat) :
    (s.setEng e x).cabByte j = s.cabByte j := (rfl)
@[simp] theorem State.setEng_bt32 (e : Nat) (x : Engine) :
    (s.setEng e x).bt32 = s.bt32 := (rfl)
@[simp] theorem State.setEng_guard (e : Nat) (x : Engine) (j : Bool) :
    (s.setEng e x).guard j = s.guard j := (rfl)
@[simp] theorem State.setEng_eng_self (e : Nat) (x : Engine) : (s.setEng e x).eng e = x := by
  simp [State.setEng, State.eng]
theorem State.setEng_eng_ne (e : Nat) (x : Engine) (j : Nat) (h : j ≠ e) :
    (s.setEng e x).eng j = s.eng j := by
  simp [State.setEng, State.eng, tget_tset, h]

/-! ### setRun -/

@[simp] theorem State.setRun_pending (c : Nat) (r : CtxRun) : (s.setRun c r).pending = s.pending := (rfl)
@[simp] theorem State.setRun_bt (c : Nat) (r : CtxRun) : (s.setRun c r).bt = s.bt := (rfl)
@[simp] theorem State.setRun_frac (c : Nat) (r : CtxRun) : (s.setRun c r).frac = s.frac := (rfl)
@[simp] theorem State.setRun_regs (c : Nat) (r : CtxRun) : (s.setRun c r).regs = s.regs := (rfl)
@[simp] theorem State.setRun_stage (c : Nat) (r : CtxRun) : (s.setRun c r).stage = s.stage := (rfl)
@[simp] theorem State.setRun_blks (c : Nat) (r : CtxRun) : (s.setRun c r).blks = s.blks := (rfl)
@[simp] theorem State.setRun_tm (c : Nat) (r : CtxRun) : (s.setRun c r).tm = s.tm := (rfl)
@[simp] theorem State.setRun_cyc (c : Nat) (r : CtxRun) : (s.setRun c r).cyc = s.cyc := (rfl)
@[simp] theorem State.setRun_ctxs (c : Nat) (r : CtxRun) : (s.setRun c r).ctxs = s.ctxs := (rfl)
@[simp] theorem State.setRun_flows (c : Nat) (r : CtxRun) : (s.setRun c r).flows = s.flows := (rfl)
@[simp] theorem State.setRun_disp (c : Nat) (r : CtxRun) : (s.setRun c r).disp = s.disp := (rfl)
@[simp] theorem State.setRun_engs (c : Nat) (r : CtxRun) : (s.setRun c r).engs = s.engs := (rfl)
@[simp] theorem State.setRun_host (c : Nat) (r : CtxRun) : (s.setRun c r).host = s.host := (rfl)
@[simp] theorem State.setRun_fw (c : Nat) (r : CtxRun) : (s.setRun c r).fw = s.fw := (rfl)
@[simp] theorem State.setRun_streams (c : Nat) (r : CtxRun) : (s.setRun c r).streams = s.streams := (rfl)
@[simp] theorem State.setRun_recd (c : Nat) (r : CtxRun) : (s.setRun c r).recd = s.recd := (rfl)
@[simp] theorem State.setRun_pwr (c : Nat) (r : CtxRun) : (s.setRun c r).pwr = s.pwr := (rfl)
@[simp] theorem State.setRun_boot (c : Nat) (r : CtxRun) : (s.setRun c r).boot = s.boot := (rfl)
@[simp] theorem State.setRun_fbs (c : Nat) (r : CtxRun) : (s.setRun c r).fbs = s.fbs := (rfl)
@[simp] theorem State.setRun_pwms (c : Nat) (r : CtxRun) : (s.setRun c r).pwms = s.pwms := (rfl)
@[simp] theorem State.setRun_pwmFlt (c : Nat) (r : CtxRun) : (s.setRun c r).pwmFlt = s.pwmFlt := (rfl)
@[simp] theorem State.setRun_bgTo (c : Nat) (r : CtxRun) : (s.setRun c r).bgTo = s.bgTo := (rfl)
@[simp] theorem State.setRun_axes (c : Nat) (r : CtxRun) : (s.setRun c r).axes = s.axes := (rfl)
@[simp] theorem State.setRun_mss (c : Nat) (r : CtxRun) : (s.setRun c r).mss = s.mss := (rfl)
@[simp] theorem State.setRun_cams (c : Nat) (r : CtxRun) : (s.setRun c r).cams = s.cams := (rfl)
@[simp] theorem State.setRun_grps (c : Nat) (r : CtxRun) : (s.setRun c r).grps = s.grps := (rfl)
@[simp] theorem State.setRun_evs (c : Nat) (r : CtxRun) : (s.setRun c r).evs = s.evs := (rfl)
@[simp] theorem State.setRun_go (c : Nat) (r : CtxRun) : (s.setRun c r).go = s.go := (rfl)
@[simp] theorem State.setRun_lnk (c : Nat) (r : CtxRun) : (s.setRun c r).lnk = s.lnk := (rfl)
@[simp] theorem State.setRun_rings (c : Nat) (r : CtxRun) : (s.setRun c r).rings = s.rings := (rfl)
@[simp] theorem State.setRun_twin (c : Nat) (r : CtxRun) : (s.setRun c r).twin = s.twin := (rfl)
@[simp] theorem State.setRun_gA (c : Nat) (r : CtxRun) : (s.setRun c r).gA = s.gA := (rfl)
@[simp] theorem State.setRun_gB (c : Nat) (r : CtxRun) : (s.setRun c r).gB = s.gB := (rfl)
@[simp] theorem State.setRun_seals (c : Nat) (r : CtxRun) : (s.setRun c r).seals = s.seals := (rfl)
@[simp] theorem State.setRun_acqs (c : Nat) (r : CtxRun) : (s.setRun c r).acqs = s.acqs := (rfl)
@[simp] theorem State.setRun_trig (c : Nat) (r : CtxRun) : (s.setRun c r).trig = s.trig := (rfl)
@[simp] theorem State.setRun_cab (c : Nat) (r : CtxRun) : (s.setRun c r).cab = s.cab := (rfl)
@[simp] theorem State.setRun_outputs (c : Nat) (r : CtxRun) : (s.setRun c r).outputs = s.outputs := (rfl)
@[simp] theorem State.setRun_free (c : Nat) (r : CtxRun) : (s.setRun c r).free = s.free := (rfl)
@[simp] theorem State.setRun_rg (c : Nat) (r : CtxRun) (q : Reg) (j : Nat) :
    (s.setRun c r).rg q j = s.rg q j := (rfl)
@[simp] theorem State.setRun_ax (c : Nat) (r : CtxRun) (j : Nat) :
    (s.setRun c r).ax j = s.ax j := (rfl)
@[simp] theorem State.setRun_fb (c : Nat) (r : CtxRun) (j : Nat) :
    (s.setRun c r).fb j = s.fb j := (rfl)
@[simp] theorem State.setRun_pwm (c : Nat) (r : CtxRun) (j : Nat) :
    (s.setRun c r).pwm j = s.pwm j := (rfl)
@[simp] theorem State.setRun_grp (c : Nat) (r : CtxRun) (j : Nat) :
    (s.setRun c r).grp j = s.grp j := (rfl)
@[simp] theorem State.setRun_ev (c : Nat) (r : CtxRun) (j : Nat) :
    (s.setRun c r).ev j = s.ev j := (rfl)
@[simp] theorem State.setRun_ms (c : Nat) (r : CtxRun) (j : Nat) :
    (s.setRun c r).ms j = s.ms j := (rfl)
@[simp] theorem State.setRun_acq (c : Nat) (r : CtxRun) (j : Nat) :
    (s.setRun c r).acq j = s.acq j := (rfl)
@[simp] theorem State.setRun_dom (c : Nat) (r : CtxRun) (j : Nat) :
    (s.setRun c r).dom j = s.dom j := (rfl)
@[simp] theorem State.setRun_isOn (c : Nat) (r : CtxRun) (j : Nat) :
    (s.setRun c r).isOn j = s.isOn j := (rfl)
@[simp] theorem State.setRun_cq (c : Nat) (r : CtxRun) (j : Nat) :
    (s.setRun c r).cq j = s.cq j := (rfl)
@[simp] theorem State.setRun_sq (c : Nat) (r : CtxRun) (j : Nat) :
    (s.setRun c r).sq j = s.sq j := (rfl)
@[simp] theorem State.setRun_strm (c : Nat) (r : CtxRun) (j : Nat) :
    (s.setRun c r).strm j = s.strm j := (rfl)
@[simp] theorem State.setRun_ctx (c : Nat) (r : CtxRun) (j : Nat) :
    (s.setRun c r).ctx j = s.ctx j := (rfl)
@[simp] theorem State.setRun_eng (c : Nat) (r : CtxRun) (j : Nat) :
    (s.setRun c r).eng j = s.eng j := (rfl)
@[simp] theorem State.setRun_flow (c : Nat) (r : CtxRun) (j : Nat) :
    (s.setRun c r).flow j = s.flow j := (rfl)
@[simp] theorem State.setRun_blk (c : Nat) (r : CtxRun) (j : Nat) :
    (s.setRun c r).blk j = s.blk j := (rfl)
@[simp] theorem State.setRun_port (c : Nat) (r : CtxRun) (j : Nat) :
    (s.setRun c r).port j = s.port j := (rfl)
@[simp] theorem State.setRun_dir (c : Nat) (r : CtxRun) (j : Nat) :
    (s.setRun c r).dir j = s.dir j := (rfl)
@[simp] theorem State.setRun_ring (c : Nat) (r : CtxRun) (j : Nat) :
    (s.setRun c r).ring j = s.ring j := (rfl)
@[simp] theorem State.setRun_cabByte (c : Nat) (r : CtxRun) (j : Nat) :
    (s.setRun c r).cabByte j = s.cabByte j := (rfl)
@[simp] theorem State.setRun_bt32 (c : Nat) (r : CtxRun) :
    (s.setRun c r).bt32 = s.bt32 := (rfl)
@[simp] theorem State.setRun_guard (c : Nat) (r : CtxRun) (j : Bool) :
    (s.setRun c r).guard j = s.guard j := (rfl)
@[simp] theorem State.setRun_run_self (c : Nat) (r : CtxRun) : (s.setRun c r).run c = some r := by
  simp [State.setRun, State.run]
theorem State.setRun_run_ne (c : Nat) (r : CtxRun) (j : Nat) (h : j ≠ c) :
    (s.setRun c r).run j = s.run j := by
  simp [State.setRun, State.run, tget_tset, h]

/-! ### setFlow -/

@[simp] theorem State.setFlow_pending (f : Nat) (x : Flow) : (s.setFlow f x).pending = s.pending := (rfl)
@[simp] theorem State.setFlow_bt (f : Nat) (x : Flow) : (s.setFlow f x).bt = s.bt := (rfl)
@[simp] theorem State.setFlow_frac (f : Nat) (x : Flow) : (s.setFlow f x).frac = s.frac := (rfl)
@[simp] theorem State.setFlow_regs (f : Nat) (x : Flow) : (s.setFlow f x).regs = s.regs := (rfl)
@[simp] theorem State.setFlow_stage (f : Nat) (x : Flow) : (s.setFlow f x).stage = s.stage := (rfl)
@[simp] theorem State.setFlow_blks (f : Nat) (x : Flow) : (s.setFlow f x).blks = s.blks := (rfl)
@[simp] theorem State.setFlow_tm (f : Nat) (x : Flow) : (s.setFlow f x).tm = s.tm := (rfl)
@[simp] theorem State.setFlow_cyc (f : Nat) (x : Flow) : (s.setFlow f x).cyc = s.cyc := (rfl)
@[simp] theorem State.setFlow_ctxs (f : Nat) (x : Flow) : (s.setFlow f x).ctxs = s.ctxs := (rfl)
@[simp] theorem State.setFlow_runs (f : Nat) (x : Flow) : (s.setFlow f x).runs = s.runs := (rfl)
@[simp] theorem State.setFlow_disp (f : Nat) (x : Flow) : (s.setFlow f x).disp = s.disp := (rfl)
@[simp] theorem State.setFlow_engs (f : Nat) (x : Flow) : (s.setFlow f x).engs = s.engs := (rfl)
@[simp] theorem State.setFlow_host (f : Nat) (x : Flow) : (s.setFlow f x).host = s.host := (rfl)
@[simp] theorem State.setFlow_fw (f : Nat) (x : Flow) : (s.setFlow f x).fw = s.fw := (rfl)
@[simp] theorem State.setFlow_streams (f : Nat) (x : Flow) : (s.setFlow f x).streams = s.streams := (rfl)
@[simp] theorem State.setFlow_recd (f : Nat) (x : Flow) : (s.setFlow f x).recd = s.recd := (rfl)
@[simp] theorem State.setFlow_pwr (f : Nat) (x : Flow) : (s.setFlow f x).pwr = s.pwr := (rfl)
@[simp] theorem State.setFlow_boot (f : Nat) (x : Flow) : (s.setFlow f x).boot = s.boot := (rfl)
@[simp] theorem State.setFlow_fbs (f : Nat) (x : Flow) : (s.setFlow f x).fbs = s.fbs := (rfl)
@[simp] theorem State.setFlow_pwms (f : Nat) (x : Flow) : (s.setFlow f x).pwms = s.pwms := (rfl)
@[simp] theorem State.setFlow_pwmFlt (f : Nat) (x : Flow) : (s.setFlow f x).pwmFlt = s.pwmFlt := (rfl)
@[simp] theorem State.setFlow_bgTo (f : Nat) (x : Flow) : (s.setFlow f x).bgTo = s.bgTo := (rfl)
@[simp] theorem State.setFlow_axes (f : Nat) (x : Flow) : (s.setFlow f x).axes = s.axes := (rfl)
@[simp] theorem State.setFlow_mss (f : Nat) (x : Flow) : (s.setFlow f x).mss = s.mss := (rfl)
@[simp] theorem State.setFlow_cams (f : Nat) (x : Flow) : (s.setFlow f x).cams = s.cams := (rfl)
@[simp] theorem State.setFlow_grps (f : Nat) (x : Flow) : (s.setFlow f x).grps = s.grps := (rfl)
@[simp] theorem State.setFlow_evs (f : Nat) (x : Flow) : (s.setFlow f x).evs = s.evs := (rfl)
@[simp] theorem State.setFlow_go (f : Nat) (x : Flow) : (s.setFlow f x).go = s.go := (rfl)
@[simp] theorem State.setFlow_lnk (f : Nat) (x : Flow) : (s.setFlow f x).lnk = s.lnk := (rfl)
@[simp] theorem State.setFlow_rings (f : Nat) (x : Flow) : (s.setFlow f x).rings = s.rings := (rfl)
@[simp] theorem State.setFlow_twin (f : Nat) (x : Flow) : (s.setFlow f x).twin = s.twin := (rfl)
@[simp] theorem State.setFlow_gA (f : Nat) (x : Flow) : (s.setFlow f x).gA = s.gA := (rfl)
@[simp] theorem State.setFlow_gB (f : Nat) (x : Flow) : (s.setFlow f x).gB = s.gB := (rfl)
@[simp] theorem State.setFlow_seals (f : Nat) (x : Flow) : (s.setFlow f x).seals = s.seals := (rfl)
@[simp] theorem State.setFlow_acqs (f : Nat) (x : Flow) : (s.setFlow f x).acqs = s.acqs := (rfl)
@[simp] theorem State.setFlow_trig (f : Nat) (x : Flow) : (s.setFlow f x).trig = s.trig := (rfl)
@[simp] theorem State.setFlow_cab (f : Nat) (x : Flow) : (s.setFlow f x).cab = s.cab := (rfl)
@[simp] theorem State.setFlow_outputs (f : Nat) (x : Flow) : (s.setFlow f x).outputs = s.outputs := (rfl)
@[simp] theorem State.setFlow_free (f : Nat) (x : Flow) : (s.setFlow f x).free = s.free := (rfl)
@[simp] theorem State.setFlow_rg (f : Nat) (x : Flow) (q : Reg) (j : Nat) :
    (s.setFlow f x).rg q j = s.rg q j := (rfl)
@[simp] theorem State.setFlow_ax (f : Nat) (x : Flow) (j : Nat) :
    (s.setFlow f x).ax j = s.ax j := (rfl)
@[simp] theorem State.setFlow_fb (f : Nat) (x : Flow) (j : Nat) :
    (s.setFlow f x).fb j = s.fb j := (rfl)
@[simp] theorem State.setFlow_pwm (f : Nat) (x : Flow) (j : Nat) :
    (s.setFlow f x).pwm j = s.pwm j := (rfl)
@[simp] theorem State.setFlow_grp (f : Nat) (x : Flow) (j : Nat) :
    (s.setFlow f x).grp j = s.grp j := (rfl)
@[simp] theorem State.setFlow_ev (f : Nat) (x : Flow) (j : Nat) :
    (s.setFlow f x).ev j = s.ev j := (rfl)
@[simp] theorem State.setFlow_ms (f : Nat) (x : Flow) (j : Nat) :
    (s.setFlow f x).ms j = s.ms j := (rfl)
@[simp] theorem State.setFlow_acq (f : Nat) (x : Flow) (j : Nat) :
    (s.setFlow f x).acq j = s.acq j := (rfl)
@[simp] theorem State.setFlow_dom (f : Nat) (x : Flow) (j : Nat) :
    (s.setFlow f x).dom j = s.dom j := (rfl)
@[simp] theorem State.setFlow_isOn (f : Nat) (x : Flow) (j : Nat) :
    (s.setFlow f x).isOn j = s.isOn j := (rfl)
@[simp] theorem State.setFlow_cq (f : Nat) (x : Flow) (j : Nat) :
    (s.setFlow f x).cq j = s.cq j := (rfl)
@[simp] theorem State.setFlow_sq (f : Nat) (x : Flow) (j : Nat) :
    (s.setFlow f x).sq j = s.sq j := (rfl)
@[simp] theorem State.setFlow_strm (f : Nat) (x : Flow) (j : Nat) :
    (s.setFlow f x).strm j = s.strm j := (rfl)
@[simp] theorem State.setFlow_ctx (f : Nat) (x : Flow) (j : Nat) :
    (s.setFlow f x).ctx j = s.ctx j := (rfl)
@[simp] theorem State.setFlow_eng (f : Nat) (x : Flow) (j : Nat) :
    (s.setFlow f x).eng j = s.eng j := (rfl)
@[simp] theorem State.setFlow_run (f : Nat) (x : Flow) (j : Nat) :
    (s.setFlow f x).run j = s.run j := (rfl)
@[simp] theorem State.setFlow_blk (f : Nat) (x : Flow) (j : Nat) :
    (s.setFlow f x).blk j = s.blk j := (rfl)
@[simp] theorem State.setFlow_port (f : Nat) (x : Flow) (j : Nat) :
    (s.setFlow f x).port j = s.port j := (rfl)
@[simp] theorem State.setFlow_dir (f : Nat) (x : Flow) (j : Nat) :
    (s.setFlow f x).dir j = s.dir j := (rfl)
@[simp] theorem State.setFlow_ring (f : Nat) (x : Flow) (j : Nat) :
    (s.setFlow f x).ring j = s.ring j := (rfl)
@[simp] theorem State.setFlow_cabByte (f : Nat) (x : Flow) (j : Nat) :
    (s.setFlow f x).cabByte j = s.cabByte j := (rfl)
@[simp] theorem State.setFlow_bt32 (f : Nat) (x : Flow) :
    (s.setFlow f x).bt32 = s.bt32 := (rfl)
@[simp] theorem State.setFlow_guard (f : Nat) (x : Flow) (j : Bool) :
    (s.setFlow f x).guard j = s.guard j := (rfl)
@[simp] theorem State.setFlow_flow_self (f : Nat) (x : Flow) : (s.setFlow f x).flow f = x := by
  simp [State.setFlow, State.flow]
theorem State.setFlow_flow_ne (f : Nat) (x : Flow) (j : Nat) (h : j ≠ f) :
    (s.setFlow f x).flow j = s.flow j := by
  simp [State.setFlow, State.flow, tget_tset, h]

/-! ### setBlk -/

@[simp] theorem State.setBlk_pending (b : Nat) (x : Blk) : (s.setBlk b x).pending = s.pending := (rfl)
@[simp] theorem State.setBlk_bt (b : Nat) (x : Blk) : (s.setBlk b x).bt = s.bt := (rfl)
@[simp] theorem State.setBlk_frac (b : Nat) (x : Blk) : (s.setBlk b x).frac = s.frac := (rfl)
@[simp] theorem State.setBlk_regs (b : Nat) (x : Blk) : (s.setBlk b x).regs = s.regs := (rfl)
@[simp] theorem State.setBlk_stage (b : Nat) (x : Blk) : (s.setBlk b x).stage = s.stage := (rfl)
@[simp] theorem State.setBlk_tm (b : Nat) (x : Blk) : (s.setBlk b x).tm = s.tm := (rfl)
@[simp] theorem State.setBlk_cyc (b : Nat) (x : Blk) : (s.setBlk b x).cyc = s.cyc := (rfl)
@[simp] theorem State.setBlk_ctxs (b : Nat) (x : Blk) : (s.setBlk b x).ctxs = s.ctxs := (rfl)
@[simp] theorem State.setBlk_runs (b : Nat) (x : Blk) : (s.setBlk b x).runs = s.runs := (rfl)
@[simp] theorem State.setBlk_flows (b : Nat) (x : Blk) : (s.setBlk b x).flows = s.flows := (rfl)
@[simp] theorem State.setBlk_disp (b : Nat) (x : Blk) : (s.setBlk b x).disp = s.disp := (rfl)
@[simp] theorem State.setBlk_engs (b : Nat) (x : Blk) : (s.setBlk b x).engs = s.engs := (rfl)
@[simp] theorem State.setBlk_host (b : Nat) (x : Blk) : (s.setBlk b x).host = s.host := (rfl)
@[simp] theorem State.setBlk_fw (b : Nat) (x : Blk) : (s.setBlk b x).fw = s.fw := (rfl)
@[simp] theorem State.setBlk_streams (b : Nat) (x : Blk) : (s.setBlk b x).streams = s.streams := (rfl)
@[simp] theorem State.setBlk_recd (b : Nat) (x : Blk) : (s.setBlk b x).recd = s.recd := (rfl)
@[simp] theorem State.setBlk_pwr (b : Nat) (x : Blk) : (s.setBlk b x).pwr = s.pwr := (rfl)
@[simp] theorem State.setBlk_boot (b : Nat) (x : Blk) : (s.setBlk b x).boot = s.boot := (rfl)
@[simp] theorem State.setBlk_fbs (b : Nat) (x : Blk) : (s.setBlk b x).fbs = s.fbs := (rfl)
@[simp] theorem State.setBlk_pwms (b : Nat) (x : Blk) : (s.setBlk b x).pwms = s.pwms := (rfl)
@[simp] theorem State.setBlk_pwmFlt (b : Nat) (x : Blk) : (s.setBlk b x).pwmFlt = s.pwmFlt := (rfl)
@[simp] theorem State.setBlk_bgTo (b : Nat) (x : Blk) : (s.setBlk b x).bgTo = s.bgTo := (rfl)
@[simp] theorem State.setBlk_axes (b : Nat) (x : Blk) : (s.setBlk b x).axes = s.axes := (rfl)
@[simp] theorem State.setBlk_mss (b : Nat) (x : Blk) : (s.setBlk b x).mss = s.mss := (rfl)
@[simp] theorem State.setBlk_cams (b : Nat) (x : Blk) : (s.setBlk b x).cams = s.cams := (rfl)
@[simp] theorem State.setBlk_grps (b : Nat) (x : Blk) : (s.setBlk b x).grps = s.grps := (rfl)
@[simp] theorem State.setBlk_evs (b : Nat) (x : Blk) : (s.setBlk b x).evs = s.evs := (rfl)
@[simp] theorem State.setBlk_go (b : Nat) (x : Blk) : (s.setBlk b x).go = s.go := (rfl)
@[simp] theorem State.setBlk_lnk (b : Nat) (x : Blk) : (s.setBlk b x).lnk = s.lnk := (rfl)
@[simp] theorem State.setBlk_rings (b : Nat) (x : Blk) : (s.setBlk b x).rings = s.rings := (rfl)
@[simp] theorem State.setBlk_twin (b : Nat) (x : Blk) : (s.setBlk b x).twin = s.twin := (rfl)
@[simp] theorem State.setBlk_gA (b : Nat) (x : Blk) : (s.setBlk b x).gA = s.gA := (rfl)
@[simp] theorem State.setBlk_gB (b : Nat) (x : Blk) : (s.setBlk b x).gB = s.gB := (rfl)
@[simp] theorem State.setBlk_seals (b : Nat) (x : Blk) : (s.setBlk b x).seals = s.seals := (rfl)
@[simp] theorem State.setBlk_acqs (b : Nat) (x : Blk) : (s.setBlk b x).acqs = s.acqs := (rfl)
@[simp] theorem State.setBlk_trig (b : Nat) (x : Blk) : (s.setBlk b x).trig = s.trig := (rfl)
@[simp] theorem State.setBlk_cab (b : Nat) (x : Blk) : (s.setBlk b x).cab = s.cab := (rfl)
@[simp] theorem State.setBlk_outputs (b : Nat) (x : Blk) : (s.setBlk b x).outputs = s.outputs := (rfl)
@[simp] theorem State.setBlk_free (b : Nat) (x : Blk) : (s.setBlk b x).free = s.free := (rfl)
@[simp] theorem State.setBlk_rg (b : Nat) (x : Blk) (q : Reg) (j : Nat) :
    (s.setBlk b x).rg q j = s.rg q j := (rfl)
@[simp] theorem State.setBlk_ax (b : Nat) (x : Blk) (j : Nat) :
    (s.setBlk b x).ax j = s.ax j := (rfl)
@[simp] theorem State.setBlk_fb (b : Nat) (x : Blk) (j : Nat) :
    (s.setBlk b x).fb j = s.fb j := (rfl)
@[simp] theorem State.setBlk_pwm (b : Nat) (x : Blk) (j : Nat) :
    (s.setBlk b x).pwm j = s.pwm j := (rfl)
@[simp] theorem State.setBlk_grp (b : Nat) (x : Blk) (j : Nat) :
    (s.setBlk b x).grp j = s.grp j := (rfl)
@[simp] theorem State.setBlk_ev (b : Nat) (x : Blk) (j : Nat) :
    (s.setBlk b x).ev j = s.ev j := (rfl)
@[simp] theorem State.setBlk_ms (b : Nat) (x : Blk) (j : Nat) :
    (s.setBlk b x).ms j = s.ms j := (rfl)
@[simp] theorem State.setBlk_acq (b : Nat) (x : Blk) (j : Nat) :
    (s.setBlk b x).acq j = s.acq j := (rfl)
@[simp] theorem State.setBlk_dom (b : Nat) (x : Blk) (j : Nat) :
    (s.setBlk b x).dom j = s.dom j := (rfl)
@[simp] theorem State.setBlk_isOn (b : Nat) (x : Blk) (j : Nat) :
    (s.setBlk b x).isOn j = s.isOn j := (rfl)
@[simp] theorem State.setBlk_cq (b : Nat) (x : Blk) (j : Nat) :
    (s.setBlk b x).cq j = s.cq j := (rfl)
@[simp] theorem State.setBlk_sq (b : Nat) (x : Blk) (j : Nat) :
    (s.setBlk b x).sq j = s.sq j := (rfl)
@[simp] theorem State.setBlk_strm (b : Nat) (x : Blk) (j : Nat) :
    (s.setBlk b x).strm j = s.strm j := (rfl)
@[simp] theorem State.setBlk_ctx (b : Nat) (x : Blk) (j : Nat) :
    (s.setBlk b x).ctx j = s.ctx j := (rfl)
@[simp] theorem State.setBlk_eng (b : Nat) (x : Blk) (j : Nat) :
    (s.setBlk b x).eng j = s.eng j := (rfl)
@[simp] theorem State.setBlk_run (b : Nat) (x : Blk) (j : Nat) :
    (s.setBlk b x).run j = s.run j := (rfl)
@[simp] theorem State.setBlk_flow (b : Nat) (x : Blk) (j : Nat) :
    (s.setBlk b x).flow j = s.flow j := (rfl)
@[simp] theorem State.setBlk_port (b : Nat) (x : Blk) (j : Nat) :
    (s.setBlk b x).port j = s.port j := (rfl)
@[simp] theorem State.setBlk_dir (b : Nat) (x : Blk) (j : Nat) :
    (s.setBlk b x).dir j = s.dir j := (rfl)
@[simp] theorem State.setBlk_ring (b : Nat) (x : Blk) (j : Nat) :
    (s.setBlk b x).ring j = s.ring j := (rfl)
@[simp] theorem State.setBlk_cabByte (b : Nat) (x : Blk) (j : Nat) :
    (s.setBlk b x).cabByte j = s.cabByte j := (rfl)
@[simp] theorem State.setBlk_bt32 (b : Nat) (x : Blk) :
    (s.setBlk b x).bt32 = s.bt32 := (rfl)
@[simp] theorem State.setBlk_guard (b : Nat) (x : Blk) (j : Bool) :
    (s.setBlk b x).guard j = s.guard j := (rfl)
@[simp] theorem State.setBlk_blk_self (b : Nat) (x : Blk) : (s.setBlk b x).blk b = x := by
  simp [State.setBlk, State.blk]
theorem State.setBlk_blk_ne (b : Nat) (x : Blk) (j : Nat) (h : j ≠ b) :
    (s.setBlk b x).blk j = s.blk j := by
  simp [State.setBlk, State.blk, tget_tset, h]

/-! ### setPort -/

@[simp] theorem State.setPort_pending (p : Nat) (x : Port) : (s.setPort p x).pending = s.pending := (rfl)
@[simp] theorem State.setPort_bt (p : Nat) (x : Port) : (s.setPort p x).bt = s.bt := (rfl)
@[simp] theorem State.setPort_frac (p : Nat) (x : Port) : (s.setPort p x).frac = s.frac := (rfl)
@[simp] theorem State.setPort_regs (p : Nat) (x : Port) : (s.setPort p x).regs = s.regs := (rfl)
@[simp] theorem State.setPort_stage (p : Nat) (x : Port) : (s.setPort p x).stage = s.stage := (rfl)
@[simp] theorem State.setPort_blks (p : Nat) (x : Port) : (s.setPort p x).blks = s.blks := (rfl)
@[simp] theorem State.setPort_tm (p : Nat) (x : Port) : (s.setPort p x).tm = s.tm := (rfl)
@[simp] theorem State.setPort_cyc (p : Nat) (x : Port) : (s.setPort p x).cyc = s.cyc := (rfl)
@[simp] theorem State.setPort_ctxs (p : Nat) (x : Port) : (s.setPort p x).ctxs = s.ctxs := (rfl)
@[simp] theorem State.setPort_runs (p : Nat) (x : Port) : (s.setPort p x).runs = s.runs := (rfl)
@[simp] theorem State.setPort_flows (p : Nat) (x : Port) : (s.setPort p x).flows = s.flows := (rfl)
@[simp] theorem State.setPort_disp (p : Nat) (x : Port) : (s.setPort p x).disp = s.disp := (rfl)
@[simp] theorem State.setPort_engs (p : Nat) (x : Port) : (s.setPort p x).engs = s.engs := (rfl)
@[simp] theorem State.setPort_host (p : Nat) (x : Port) : (s.setPort p x).host = s.host := (rfl)
@[simp] theorem State.setPort_fw (p : Nat) (x : Port) : (s.setPort p x).fw = s.fw := (rfl)
@[simp] theorem State.setPort_streams (p : Nat) (x : Port) : (s.setPort p x).streams = s.streams := (rfl)
@[simp] theorem State.setPort_recd (p : Nat) (x : Port) : (s.setPort p x).recd = s.recd := (rfl)
@[simp] theorem State.setPort_pwr (p : Nat) (x : Port) : (s.setPort p x).pwr = s.pwr := (rfl)
@[simp] theorem State.setPort_boot (p : Nat) (x : Port) : (s.setPort p x).boot = s.boot := (rfl)
@[simp] theorem State.setPort_fbs (p : Nat) (x : Port) : (s.setPort p x).fbs = s.fbs := (rfl)
@[simp] theorem State.setPort_pwms (p : Nat) (x : Port) : (s.setPort p x).pwms = s.pwms := (rfl)
@[simp] theorem State.setPort_pwmFlt (p : Nat) (x : Port) : (s.setPort p x).pwmFlt = s.pwmFlt := (rfl)
@[simp] theorem State.setPort_bgTo (p : Nat) (x : Port) : (s.setPort p x).bgTo = s.bgTo := (rfl)
@[simp] theorem State.setPort_axes (p : Nat) (x : Port) : (s.setPort p x).axes = s.axes := (rfl)
@[simp] theorem State.setPort_mss (p : Nat) (x : Port) : (s.setPort p x).mss = s.mss := (rfl)
@[simp] theorem State.setPort_cams (p : Nat) (x : Port) : (s.setPort p x).cams = s.cams := (rfl)
@[simp] theorem State.setPort_grps (p : Nat) (x : Port) : (s.setPort p x).grps = s.grps := (rfl)
@[simp] theorem State.setPort_evs (p : Nat) (x : Port) : (s.setPort p x).evs = s.evs := (rfl)
@[simp] theorem State.setPort_go (p : Nat) (x : Port) : (s.setPort p x).go = s.go := (rfl)
@[simp] theorem State.setPort_rings (p : Nat) (x : Port) : (s.setPort p x).rings = s.rings := (rfl)
@[simp] theorem State.setPort_twin (p : Nat) (x : Port) : (s.setPort p x).twin = s.twin := (rfl)
@[simp] theorem State.setPort_gA (p : Nat) (x : Port) : (s.setPort p x).gA = s.gA := (rfl)
@[simp] theorem State.setPort_gB (p : Nat) (x : Port) : (s.setPort p x).gB = s.gB := (rfl)
@[simp] theorem State.setPort_seals (p : Nat) (x : Port) : (s.setPort p x).seals = s.seals := (rfl)
@[simp] theorem State.setPort_acqs (p : Nat) (x : Port) : (s.setPort p x).acqs = s.acqs := (rfl)
@[simp] theorem State.setPort_trig (p : Nat) (x : Port) : (s.setPort p x).trig = s.trig := (rfl)
@[simp] theorem State.setPort_cab (p : Nat) (x : Port) : (s.setPort p x).cab = s.cab := (rfl)
@[simp] theorem State.setPort_outputs (p : Nat) (x : Port) : (s.setPort p x).outputs = s.outputs := (rfl)
@[simp] theorem State.setPort_free (p : Nat) (x : Port) : (s.setPort p x).free = s.free := (rfl)
@[simp] theorem State.setPort_rg (p : Nat) (x : Port) (q : Reg) (j : Nat) :
    (s.setPort p x).rg q j = s.rg q j := (rfl)
@[simp] theorem State.setPort_ax (p : Nat) (x : Port) (j : Nat) :
    (s.setPort p x).ax j = s.ax j := (rfl)
@[simp] theorem State.setPort_fb (p : Nat) (x : Port) (j : Nat) :
    (s.setPort p x).fb j = s.fb j := (rfl)
@[simp] theorem State.setPort_pwm (p : Nat) (x : Port) (j : Nat) :
    (s.setPort p x).pwm j = s.pwm j := (rfl)
@[simp] theorem State.setPort_grp (p : Nat) (x : Port) (j : Nat) :
    (s.setPort p x).grp j = s.grp j := (rfl)
@[simp] theorem State.setPort_ev (p : Nat) (x : Port) (j : Nat) :
    (s.setPort p x).ev j = s.ev j := (rfl)
@[simp] theorem State.setPort_ms (p : Nat) (x : Port) (j : Nat) :
    (s.setPort p x).ms j = s.ms j := (rfl)
@[simp] theorem State.setPort_acq (p : Nat) (x : Port) (j : Nat) :
    (s.setPort p x).acq j = s.acq j := (rfl)
@[simp] theorem State.setPort_dom (p : Nat) (x : Port) (j : Nat) :
    (s.setPort p x).dom j = s.dom j := (rfl)
@[simp] theorem State.setPort_isOn (p : Nat) (x : Port) (j : Nat) :
    (s.setPort p x).isOn j = s.isOn j := (rfl)
@[simp] theorem State.setPort_cq (p : Nat) (x : Port) (j : Nat) :
    (s.setPort p x).cq j = s.cq j := (rfl)
@[simp] theorem State.setPort_sq (p : Nat) (x : Port) (j : Nat) :
    (s.setPort p x).sq j = s.sq j := (rfl)
@[simp] theorem State.setPort_strm (p : Nat) (x : Port) (j : Nat) :
    (s.setPort p x).strm j = s.strm j := (rfl)
@[simp] theorem State.setPort_ctx (p : Nat) (x : Port) (j : Nat) :
    (s.setPort p x).ctx j = s.ctx j := (rfl)
@[simp] theorem State.setPort_eng (p : Nat) (x : Port) (j : Nat) :
    (s.setPort p x).eng j = s.eng j := (rfl)
@[simp] theorem State.setPort_run (p : Nat) (x : Port) (j : Nat) :
    (s.setPort p x).run j = s.run j := (rfl)
@[simp] theorem State.setPort_flow (p : Nat) (x : Port) (j : Nat) :
    (s.setPort p x).flow j = s.flow j := (rfl)
@[simp] theorem State.setPort_blk (p : Nat) (x : Port) (j : Nat) :
    (s.setPort p x).blk j = s.blk j := (rfl)
@[simp] theorem State.setPort_dir (p : Nat) (x : Port) (j : Nat) :
    (s.setPort p x).dir j = s.dir j := (rfl)
@[simp] theorem State.setPort_ring (p : Nat) (x : Port) (j : Nat) :
    (s.setPort p x).ring j = s.ring j := (rfl)
@[simp] theorem State.setPort_cabByte (p : Nat) (x : Port) (j : Nat) :
    (s.setPort p x).cabByte j = s.cabByte j := (rfl)
@[simp] theorem State.setPort_bt32 (p : Nat) (x : Port) :
    (s.setPort p x).bt32 = s.bt32 := (rfl)
@[simp] theorem State.setPort_guard (p : Nat) (x : Port) (j : Bool) :
    (s.setPort p x).guard j = s.guard j := (rfl)
@[simp] theorem State.setPort_port_self (p : Nat) (x : Port) : (s.setPort p x).port p = x := by
  simp [State.setPort, State.port]
theorem State.setPort_port_ne (p : Nat) (x : Port) (j : Nat) (h : j ≠ p) :
    (s.setPort p x).port j = s.port j := by
  simp [State.setPort, State.port, tget_tset, h]

/-! ### setDir -/

@[simp] theorem State.setDir_pending (d : Nat) (x : Dir) : (s.setDir d x).pending = s.pending := (rfl)
@[simp] theorem State.setDir_bt (d : Nat) (x : Dir) : (s.setDir d x).bt = s.bt := (rfl)
@[simp] theorem State.setDir_frac (d : Nat) (x : Dir) : (s.setDir d x).frac = s.frac := (rfl)
@[simp] theorem State.setDir_regs (d : Nat) (x : Dir) : (s.setDir d x).regs = s.regs := (rfl)
@[simp] theorem State.setDir_stage (d : Nat) (x : Dir) : (s.setDir d x).stage = s.stage := (rfl)
@[simp] theorem State.setDir_blks (d : Nat) (x : Dir) : (s.setDir d x).blks = s.blks := (rfl)
@[simp] theorem State.setDir_tm (d : Nat) (x : Dir) : (s.setDir d x).tm = s.tm := (rfl)
@[simp] theorem State.setDir_cyc (d : Nat) (x : Dir) : (s.setDir d x).cyc = s.cyc := (rfl)
@[simp] theorem State.setDir_ctxs (d : Nat) (x : Dir) : (s.setDir d x).ctxs = s.ctxs := (rfl)
@[simp] theorem State.setDir_runs (d : Nat) (x : Dir) : (s.setDir d x).runs = s.runs := (rfl)
@[simp] theorem State.setDir_flows (d : Nat) (x : Dir) : (s.setDir d x).flows = s.flows := (rfl)
@[simp] theorem State.setDir_disp (d : Nat) (x : Dir) : (s.setDir d x).disp = s.disp := (rfl)
@[simp] theorem State.setDir_engs (d : Nat) (x : Dir) : (s.setDir d x).engs = s.engs := (rfl)
@[simp] theorem State.setDir_host (d : Nat) (x : Dir) : (s.setDir d x).host = s.host := (rfl)
@[simp] theorem State.setDir_fw (d : Nat) (x : Dir) : (s.setDir d x).fw = s.fw := (rfl)
@[simp] theorem State.setDir_streams (d : Nat) (x : Dir) : (s.setDir d x).streams = s.streams := (rfl)
@[simp] theorem State.setDir_recd (d : Nat) (x : Dir) : (s.setDir d x).recd = s.recd := (rfl)
@[simp] theorem State.setDir_pwr (d : Nat) (x : Dir) : (s.setDir d x).pwr = s.pwr := (rfl)
@[simp] theorem State.setDir_boot (d : Nat) (x : Dir) : (s.setDir d x).boot = s.boot := (rfl)
@[simp] theorem State.setDir_fbs (d : Nat) (x : Dir) : (s.setDir d x).fbs = s.fbs := (rfl)
@[simp] theorem State.setDir_pwms (d : Nat) (x : Dir) : (s.setDir d x).pwms = s.pwms := (rfl)
@[simp] theorem State.setDir_pwmFlt (d : Nat) (x : Dir) : (s.setDir d x).pwmFlt = s.pwmFlt := (rfl)
@[simp] theorem State.setDir_bgTo (d : Nat) (x : Dir) : (s.setDir d x).bgTo = s.bgTo := (rfl)
@[simp] theorem State.setDir_axes (d : Nat) (x : Dir) : (s.setDir d x).axes = s.axes := (rfl)
@[simp] theorem State.setDir_mss (d : Nat) (x : Dir) : (s.setDir d x).mss = s.mss := (rfl)
@[simp] theorem State.setDir_cams (d : Nat) (x : Dir) : (s.setDir d x).cams = s.cams := (rfl)
@[simp] theorem State.setDir_grps (d : Nat) (x : Dir) : (s.setDir d x).grps = s.grps := (rfl)
@[simp] theorem State.setDir_evs (d : Nat) (x : Dir) : (s.setDir d x).evs = s.evs := (rfl)
@[simp] theorem State.setDir_go (d : Nat) (x : Dir) : (s.setDir d x).go = s.go := (rfl)
@[simp] theorem State.setDir_rings (d : Nat) (x : Dir) : (s.setDir d x).rings = s.rings := (rfl)
@[simp] theorem State.setDir_twin (d : Nat) (x : Dir) : (s.setDir d x).twin = s.twin := (rfl)
@[simp] theorem State.setDir_gA (d : Nat) (x : Dir) : (s.setDir d x).gA = s.gA := (rfl)
@[simp] theorem State.setDir_gB (d : Nat) (x : Dir) : (s.setDir d x).gB = s.gB := (rfl)
@[simp] theorem State.setDir_seals (d : Nat) (x : Dir) : (s.setDir d x).seals = s.seals := (rfl)
@[simp] theorem State.setDir_acqs (d : Nat) (x : Dir) : (s.setDir d x).acqs = s.acqs := (rfl)
@[simp] theorem State.setDir_trig (d : Nat) (x : Dir) : (s.setDir d x).trig = s.trig := (rfl)
@[simp] theorem State.setDir_cab (d : Nat) (x : Dir) : (s.setDir d x).cab = s.cab := (rfl)
@[simp] theorem State.setDir_outputs (d : Nat) (x : Dir) : (s.setDir d x).outputs = s.outputs := (rfl)
@[simp] theorem State.setDir_free (d : Nat) (x : Dir) : (s.setDir d x).free = s.free := (rfl)
@[simp] theorem State.setDir_rg (d : Nat) (x : Dir) (q : Reg) (j : Nat) :
    (s.setDir d x).rg q j = s.rg q j := (rfl)
@[simp] theorem State.setDir_ax (d : Nat) (x : Dir) (j : Nat) :
    (s.setDir d x).ax j = s.ax j := (rfl)
@[simp] theorem State.setDir_fb (d : Nat) (x : Dir) (j : Nat) :
    (s.setDir d x).fb j = s.fb j := (rfl)
@[simp] theorem State.setDir_pwm (d : Nat) (x : Dir) (j : Nat) :
    (s.setDir d x).pwm j = s.pwm j := (rfl)
@[simp] theorem State.setDir_grp (d : Nat) (x : Dir) (j : Nat) :
    (s.setDir d x).grp j = s.grp j := (rfl)
@[simp] theorem State.setDir_ev (d : Nat) (x : Dir) (j : Nat) :
    (s.setDir d x).ev j = s.ev j := (rfl)
@[simp] theorem State.setDir_ms (d : Nat) (x : Dir) (j : Nat) :
    (s.setDir d x).ms j = s.ms j := (rfl)
@[simp] theorem State.setDir_acq (d : Nat) (x : Dir) (j : Nat) :
    (s.setDir d x).acq j = s.acq j := (rfl)
@[simp] theorem State.setDir_dom (d : Nat) (x : Dir) (j : Nat) :
    (s.setDir d x).dom j = s.dom j := (rfl)
@[simp] theorem State.setDir_isOn (d : Nat) (x : Dir) (j : Nat) :
    (s.setDir d x).isOn j = s.isOn j := (rfl)
@[simp] theorem State.setDir_cq (d : Nat) (x : Dir) (j : Nat) :
    (s.setDir d x).cq j = s.cq j := (rfl)
@[simp] theorem State.setDir_sq (d : Nat) (x : Dir) (j : Nat) :
    (s.setDir d x).sq j = s.sq j := (rfl)
@[simp] theorem State.setDir_strm (d : Nat) (x : Dir) (j : Nat) :
    (s.setDir d x).strm j = s.strm j := (rfl)
@[simp] theorem State.setDir_ctx (d : Nat) (x : Dir) (j : Nat) :
    (s.setDir d x).ctx j = s.ctx j := (rfl)
@[simp] theorem State.setDir_eng (d : Nat) (x : Dir) (j : Nat) :
    (s.setDir d x).eng j = s.eng j := (rfl)
@[simp] theorem State.setDir_run (d : Nat) (x : Dir) (j : Nat) :
    (s.setDir d x).run j = s.run j := (rfl)
@[simp] theorem State.setDir_flow (d : Nat) (x : Dir) (j : Nat) :
    (s.setDir d x).flow j = s.flow j := (rfl)
@[simp] theorem State.setDir_blk (d : Nat) (x : Dir) (j : Nat) :
    (s.setDir d x).blk j = s.blk j := (rfl)
@[simp] theorem State.setDir_port (d : Nat) (x : Dir) (j : Nat) :
    (s.setDir d x).port j = s.port j := (rfl)
@[simp] theorem State.setDir_ring (d : Nat) (x : Dir) (j : Nat) :
    (s.setDir d x).ring j = s.ring j := (rfl)
@[simp] theorem State.setDir_cabByte (d : Nat) (x : Dir) (j : Nat) :
    (s.setDir d x).cabByte j = s.cabByte j := (rfl)
@[simp] theorem State.setDir_bt32 (d : Nat) (x : Dir) :
    (s.setDir d x).bt32 = s.bt32 := (rfl)
@[simp] theorem State.setDir_guard (d : Nat) (x : Dir) (j : Bool) :
    (s.setDir d x).guard j = s.guard j := (rfl)
@[simp] theorem State.setDir_dir_self (d : Nat) (x : Dir) : (s.setDir d x).dir d = x := by
  simp [State.setDir, State.dir]
theorem State.setDir_dir_ne (d : Nat) (x : Dir) (j : Nat) (h : j ≠ d) :
    (s.setDir d x).dir j = s.dir j := by
  simp [State.setDir, State.dir, tget_tset, h]

/-! ### setRing -/

@[simp] theorem State.setRing_pending (r : Nat) (x : Ring) : (s.setRing r x).pending = s.pending := (rfl)
@[simp] theorem State.setRing_bt (r : Nat) (x : Ring) : (s.setRing r x).bt = s.bt := (rfl)
@[simp] theorem State.setRing_frac (r : Nat) (x : Ring) : (s.setRing r x).frac = s.frac := (rfl)
@[simp] theorem State.setRing_regs (r : Nat) (x : Ring) : (s.setRing r x).regs = s.regs := (rfl)
@[simp] theorem State.setRing_stage (r : Nat) (x : Ring) : (s.setRing r x).stage = s.stage := (rfl)
@[simp] theorem State.setRing_blks (r : Nat) (x : Ring) : (s.setRing r x).blks = s.blks := (rfl)
@[simp] theorem State.setRing_tm (r : Nat) (x : Ring) : (s.setRing r x).tm = s.tm := (rfl)
@[simp] theorem State.setRing_cyc (r : Nat) (x : Ring) : (s.setRing r x).cyc = s.cyc := (rfl)
@[simp] theorem State.setRing_ctxs (r : Nat) (x : Ring) : (s.setRing r x).ctxs = s.ctxs := (rfl)
@[simp] theorem State.setRing_runs (r : Nat) (x : Ring) : (s.setRing r x).runs = s.runs := (rfl)
@[simp] theorem State.setRing_flows (r : Nat) (x : Ring) : (s.setRing r x).flows = s.flows := (rfl)
@[simp] theorem State.setRing_disp (r : Nat) (x : Ring) : (s.setRing r x).disp = s.disp := (rfl)
@[simp] theorem State.setRing_engs (r : Nat) (x : Ring) : (s.setRing r x).engs = s.engs := (rfl)
@[simp] theorem State.setRing_host (r : Nat) (x : Ring) : (s.setRing r x).host = s.host := (rfl)
@[simp] theorem State.setRing_fw (r : Nat) (x : Ring) : (s.setRing r x).fw = s.fw := (rfl)
@[simp] theorem State.setRing_streams (r : Nat) (x : Ring) : (s.setRing r x).streams = s.streams := (rfl)
@[simp] theorem State.setRing_recd (r : Nat) (x : Ring) : (s.setRing r x).recd = s.recd := (rfl)
@[simp] theorem State.setRing_pwr (r : Nat) (x : Ring) : (s.setRing r x).pwr = s.pwr := (rfl)
@[simp] theorem State.setRing_boot (r : Nat) (x : Ring) : (s.setRing r x).boot = s.boot := (rfl)
@[simp] theorem State.setRing_fbs (r : Nat) (x : Ring) : (s.setRing r x).fbs = s.fbs := (rfl)
@[simp] theorem State.setRing_pwms (r : Nat) (x : Ring) : (s.setRing r x).pwms = s.pwms := (rfl)
@[simp] theorem State.setRing_pwmFlt (r : Nat) (x : Ring) : (s.setRing r x).pwmFlt = s.pwmFlt := (rfl)
@[simp] theorem State.setRing_bgTo (r : Nat) (x : Ring) : (s.setRing r x).bgTo = s.bgTo := (rfl)
@[simp] theorem State.setRing_axes (r : Nat) (x : Ring) : (s.setRing r x).axes = s.axes := (rfl)
@[simp] theorem State.setRing_mss (r : Nat) (x : Ring) : (s.setRing r x).mss = s.mss := (rfl)
@[simp] theorem State.setRing_cams (r : Nat) (x : Ring) : (s.setRing r x).cams = s.cams := (rfl)
@[simp] theorem State.setRing_grps (r : Nat) (x : Ring) : (s.setRing r x).grps = s.grps := (rfl)
@[simp] theorem State.setRing_evs (r : Nat) (x : Ring) : (s.setRing r x).evs = s.evs := (rfl)
@[simp] theorem State.setRing_go (r : Nat) (x : Ring) : (s.setRing r x).go = s.go := (rfl)
@[simp] theorem State.setRing_lnk (r : Nat) (x : Ring) : (s.setRing r x).lnk = s.lnk := (rfl)
@[simp] theorem State.setRing_twin (r : Nat) (x : Ring) : (s.setRing r x).twin = s.twin := (rfl)
@[simp] theorem State.setRing_gA (r : Nat) (x : Ring) : (s.setRing r x).gA = s.gA := (rfl)
@[simp] theorem State.setRing_gB (r : Nat) (x : Ring) : (s.setRing r x).gB = s.gB := (rfl)
@[simp] theorem State.setRing_seals (r : Nat) (x : Ring) : (s.setRing r x).seals = s.seals := (rfl)
@[simp] theorem State.setRing_acqs (r : Nat) (x : Ring) : (s.setRing r x).acqs = s.acqs := (rfl)
@[simp] theorem State.setRing_trig (r : Nat) (x : Ring) : (s.setRing r x).trig = s.trig := (rfl)
@[simp] theorem State.setRing_cab (r : Nat) (x : Ring) : (s.setRing r x).cab = s.cab := (rfl)
@[simp] theorem State.setRing_outputs (r : Nat) (x : Ring) : (s.setRing r x).outputs = s.outputs := (rfl)
@[simp] theorem State.setRing_free (r : Nat) (x : Ring) : (s.setRing r x).free = s.free := (rfl)
@[simp] theorem State.setRing_rg (r : Nat) (x : Ring) (q : Reg) (j : Nat) :
    (s.setRing r x).rg q j = s.rg q j := (rfl)
@[simp] theorem State.setRing_ax (r : Nat) (x : Ring) (j : Nat) :
    (s.setRing r x).ax j = s.ax j := (rfl)
@[simp] theorem State.setRing_fb (r : Nat) (x : Ring) (j : Nat) :
    (s.setRing r x).fb j = s.fb j := (rfl)
@[simp] theorem State.setRing_pwm (r : Nat) (x : Ring) (j : Nat) :
    (s.setRing r x).pwm j = s.pwm j := (rfl)
@[simp] theorem State.setRing_grp (r : Nat) (x : Ring) (j : Nat) :
    (s.setRing r x).grp j = s.grp j := (rfl)
@[simp] theorem State.setRing_ev (r : Nat) (x : Ring) (j : Nat) :
    (s.setRing r x).ev j = s.ev j := (rfl)
@[simp] theorem State.setRing_ms (r : Nat) (x : Ring) (j : Nat) :
    (s.setRing r x).ms j = s.ms j := (rfl)
@[simp] theorem State.setRing_acq (r : Nat) (x : Ring) (j : Nat) :
    (s.setRing r x).acq j = s.acq j := (rfl)
@[simp] theorem State.setRing_dom (r : Nat) (x : Ring) (j : Nat) :
    (s.setRing r x).dom j = s.dom j := (rfl)
@[simp] theorem State.setRing_isOn (r : Nat) (x : Ring) (j : Nat) :
    (s.setRing r x).isOn j = s.isOn j := (rfl)
@[simp] theorem State.setRing_cq (r : Nat) (x : Ring) (j : Nat) :
    (s.setRing r x).cq j = s.cq j := (rfl)
@[simp] theorem State.setRing_sq (r : Nat) (x : Ring) (j : Nat) :
    (s.setRing r x).sq j = s.sq j := (rfl)
@[simp] theorem State.setRing_strm (r : Nat) (x : Ring) (j : Nat) :
    (s.setRing r x).strm j = s.strm j := (rfl)
@[simp] theorem State.setRing_ctx (r : Nat) (x : Ring) (j : Nat) :
    (s.setRing r x).ctx j = s.ctx j := (rfl)
@[simp] theorem State.setRing_eng (r : Nat) (x : Ring) (j : Nat) :
    (s.setRing r x).eng j = s.eng j := (rfl)
@[simp] theorem State.setRing_run (r : Nat) (x : Ring) (j : Nat) :
    (s.setRing r x).run j = s.run j := (rfl)
@[simp] theorem State.setRing_flow (r : Nat) (x : Ring) (j : Nat) :
    (s.setRing r x).flow j = s.flow j := (rfl)
@[simp] theorem State.setRing_blk (r : Nat) (x : Ring) (j : Nat) :
    (s.setRing r x).blk j = s.blk j := (rfl)
@[simp] theorem State.setRing_port (r : Nat) (x : Ring) (j : Nat) :
    (s.setRing r x).port j = s.port j := (rfl)
@[simp] theorem State.setRing_dir (r : Nat) (x : Ring) (j : Nat) :
    (s.setRing r x).dir j = s.dir j := (rfl)
@[simp] theorem State.setRing_cabByte (r : Nat) (x : Ring) (j : Nat) :
    (s.setRing r x).cabByte j = s.cabByte j := (rfl)
@[simp] theorem State.setRing_bt32 (r : Nat) (x : Ring) :
    (s.setRing r x).bt32 = s.bt32 := (rfl)
@[simp] theorem State.setRing_guard (r : Nat) (x : Ring) (j : Bool) :
    (s.setRing r x).guard j = s.guard j := (rfl)
@[simp] theorem State.setRing_ring_self (r : Nat) (x : Ring) : (s.setRing r x).ring r = x := by
  simp [State.setRing, State.ring]
theorem State.setRing_ring_ne (r : Nat) (x : Ring) (j : Nat) (h : j ≠ r) :
    (s.setRing r x).ring j = s.ring j := by
  simp [State.setRing, State.ring, tget_tset, h]

/-! ### out -/

@[simp] theorem State.out_pending (o : Output) : (s.out o).pending = s.pending := (rfl)
@[simp] theorem State.out_bt (o : Output) : (s.out o).bt = s.bt := (rfl)
@[simp] theorem State.out_frac (o : Output) : (s.out o).frac = s.frac := (rfl)
@[simp] theorem State.out_regs (o : Output) : (s.out o).regs = s.regs := (rfl)
@[simp] theorem State.out_stage (o : Output) : (s.out o).stage = s.stage := (rfl)
@[simp] theorem State.out_blks (o : Output) : (s.out o).blks = s.blks := (rfl)
@[simp] theorem State.out_tm (o : Output) : (s.out o).tm = s.tm := (rfl)
@[simp] theorem State.out_cyc (o : Output) : (s.out o).cyc = s.cyc := (rfl)
@[simp] theorem State.out_ctxs (o : Output) : (s.out o).ctxs = s.ctxs := (rfl)
@[simp] theorem State.out_runs (o : Output) : (s.out o).runs = s.runs := (rfl)
@[simp] theorem State.out_flows (o : Output) : (s.out o).flows = s.flows := (rfl)
@[simp] theorem State.out_disp (o : Output) : (s.out o).disp = s.disp := (rfl)
@[simp] theorem State.out_engs (o : Output) : (s.out o).engs = s.engs := (rfl)
@[simp] theorem State.out_host (o : Output) : (s.out o).host = s.host := (rfl)
@[simp] theorem State.out_fw (o : Output) : (s.out o).fw = s.fw := (rfl)
@[simp] theorem State.out_streams (o : Output) : (s.out o).streams = s.streams := (rfl)
@[simp] theorem State.out_recd (o : Output) : (s.out o).recd = s.recd := (rfl)
@[simp] theorem State.out_pwr (o : Output) : (s.out o).pwr = s.pwr := (rfl)
@[simp] theorem State.out_boot (o : Output) : (s.out o).boot = s.boot := (rfl)
@[simp] theorem State.out_fbs (o : Output) : (s.out o).fbs = s.fbs := (rfl)
@[simp] theorem State.out_pwms (o : Output) : (s.out o).pwms = s.pwms := (rfl)
@[simp] theorem State.out_pwmFlt (o : Output) : (s.out o).pwmFlt = s.pwmFlt := (rfl)
@[simp] theorem State.out_bgTo (o : Output) : (s.out o).bgTo = s.bgTo := (rfl)
@[simp] theorem State.out_axes (o : Output) : (s.out o).axes = s.axes := (rfl)
@[simp] theorem State.out_mss (o : Output) : (s.out o).mss = s.mss := (rfl)
@[simp] theorem State.out_cams (o : Output) : (s.out o).cams = s.cams := (rfl)
@[simp] theorem State.out_grps (o : Output) : (s.out o).grps = s.grps := (rfl)
@[simp] theorem State.out_evs (o : Output) : (s.out o).evs = s.evs := (rfl)
@[simp] theorem State.out_go (o : Output) : (s.out o).go = s.go := (rfl)
@[simp] theorem State.out_lnk (o : Output) : (s.out o).lnk = s.lnk := (rfl)
@[simp] theorem State.out_rings (o : Output) : (s.out o).rings = s.rings := (rfl)
@[simp] theorem State.out_twin (o : Output) : (s.out o).twin = s.twin := (rfl)
@[simp] theorem State.out_gA (o : Output) : (s.out o).gA = s.gA := (rfl)
@[simp] theorem State.out_gB (o : Output) : (s.out o).gB = s.gB := (rfl)
@[simp] theorem State.out_seals (o : Output) : (s.out o).seals = s.seals := (rfl)
@[simp] theorem State.out_acqs (o : Output) : (s.out o).acqs = s.acqs := (rfl)
@[simp] theorem State.out_trig (o : Output) : (s.out o).trig = s.trig := (rfl)
@[simp] theorem State.out_cab (o : Output) : (s.out o).cab = s.cab := (rfl)
@[simp] theorem State.out_free (o : Output) : (s.out o).free = s.free := (rfl)
@[simp] theorem State.out_rg (o : Output) (q : Reg) (j : Nat) :
    (s.out o).rg q j = s.rg q j := (rfl)
@[simp] theorem State.out_ax (o : Output) (j : Nat) :
    (s.out o).ax j = s.ax j := (rfl)
@[simp] theorem State.out_fb (o : Output) (j : Nat) :
    (s.out o).fb j = s.fb j := (rfl)
@[simp] theorem State.out_pwm (o : Output) (j : Nat) :
    (s.out o).pwm j = s.pwm j := (rfl)
@[simp] theorem State.out_grp (o : Output) (j : Nat) :
    (s.out o).grp j = s.grp j := (rfl)
@[simp] theorem State.out_ev (o : Output) (j : Nat) :
    (s.out o).ev j = s.ev j := (rfl)
@[simp] theorem State.out_ms (o : Output) (j : Nat) :
    (s.out o).ms j = s.ms j := (rfl)
@[simp] theorem State.out_acq (o : Output) (j : Nat) :
    (s.out o).acq j = s.acq j := (rfl)
@[simp] theorem State.out_dom (o : Output) (j : Nat) :
    (s.out o).dom j = s.dom j := (rfl)
@[simp] theorem State.out_isOn (o : Output) (j : Nat) :
    (s.out o).isOn j = s.isOn j := (rfl)
@[simp] theorem State.out_cq (o : Output) (j : Nat) :
    (s.out o).cq j = s.cq j := (rfl)
@[simp] theorem State.out_sq (o : Output) (j : Nat) :
    (s.out o).sq j = s.sq j := (rfl)
@[simp] theorem State.out_strm (o : Output) (j : Nat) :
    (s.out o).strm j = s.strm j := (rfl)
@[simp] theorem State.out_ctx (o : Output) (j : Nat) :
    (s.out o).ctx j = s.ctx j := (rfl)
@[simp] theorem State.out_eng (o : Output) (j : Nat) :
    (s.out o).eng j = s.eng j := (rfl)
@[simp] theorem State.out_run (o : Output) (j : Nat) :
    (s.out o).run j = s.run j := (rfl)
@[simp] theorem State.out_flow (o : Output) (j : Nat) :
    (s.out o).flow j = s.flow j := (rfl)
@[simp] theorem State.out_blk (o : Output) (j : Nat) :
    (s.out o).blk j = s.blk j := (rfl)
@[simp] theorem State.out_port (o : Output) (j : Nat) :
    (s.out o).port j = s.port j := (rfl)
@[simp] theorem State.out_dir (o : Output) (j : Nat) :
    (s.out o).dir j = s.dir j := (rfl)
@[simp] theorem State.out_ring (o : Output) (j : Nat) :
    (s.out o).ring j = s.ring j := (rfl)
@[simp] theorem State.out_cabByte (o : Output) (j : Nat) :
    (s.out o).cabByte j = s.cabByte j := (rfl)
@[simp] theorem State.out_bt32 (o : Output) :
    (s.out o).bt32 = s.bt32 := (rfl)
@[simp] theorem State.out_guard (o : Output) (j : Bool) :
    (s.out o).guard j = s.guard j := (rfl)

end Sys2Proof.Machine
end

