-- ==== Sys2Proof/Laws/Beat.lean ====
section
/-! SUPPORT. Only the commands of the cycle, a power failure and a reset move the beat of the control cycle. -/

namespace Sys2Proof.Machine

@[simp] theorem Cyc.beat_mk (a b : Bool) (p : Phase) (n : W32) (t u : W64) (h : List ExtTok) (c d e f : Bool)
    (l : W64) (g i j : Bool) (k : Nat) (m : Table Nat) (o : Table Bool) (q : List Nat) :
    (Cyc.mk a b p n t u h c d e f l g i j k m o q).beat = ⟨a, b, p, n, t, g, i, j⟩ := (rfl)
@[simp] theorem Beat.eta (c : Cyc) :
    Beat.mk c.running c.stopPend c.phase c.count c.t0 c.checked c.sampled c.trainSent = c.beat := (rfl)
@[simp] theorem ite_beat (c : Prop) [Decidable c] (a b : State) :
    (if c then a else b).cyc.beat = if c then a.cyc.beat else b.cyc.beat := by split <;> rfl
@[simp] theorem foldl_beat {β : Type} (f : State → β → State)
    (h : ∀ s b, (f s b).cyc.beat = s.cyc.beat) (l : List β) (s : State) :
    (l.foldl f s).cyc.beat = s.cyc.beat := by
  induction l generalizing s with
  | nil => rfl
  | cons b l ih => simp [ih, h]
@[simp] theorem foldl_fst_beat {α β : Type} (f : State × α → β → State × α)
    (h : ∀ p b, (f p b).1.cyc.beat = p.1.cyc.beat) (l : List β) (p : State × α) :
    (l.foldl f p).1.cyc.beat = p.1.cyc.beat := by
  induction l generalizing p with
  | nil => rfl
  | cons b l ih => simp [ih, h]

@[simp] theorem State.setRg_beat (s : State) (r : Reg) (sel : Nat) (v : W32) :
    (s.setRg r sel v).cyc.beat = s.cyc.beat := by
  simp [State.setRg]
@[simp] theorem State.bump_beat (s : State) (r : Reg) (sel : optParam Nat 0) (n : optParam Nat 1) :
    (s.bump r sel n).cyc.beat = s.cyc.beat := by
  simp [State.bump]
@[simp] theorem State.keepMax_beat (s : State) (r : Reg) (sel : Nat) (n : Nat) :
    (s.keepMax r sel n).cyc.beat = s.cyc.beat := by
  simp [State.keepMax]
@[simp] theorem State.upTo_beat (s : State) (t : W64) :
    (s.upTo t).cyc.beat = s.cyc.beat := by
  simp [State.upTo]
@[simp] theorem State.clockEdge_beat (s : State) :
    (s.clockEdge).cyc.beat = s.cyc.beat := by
  simp [State.clockEdge]
@[simp] theorem State.draw_beat (s : State) :
    (s.draw).2.cyc.beat = s.cyc.beat := by
  simp [State.draw]
@[simp] theorem State.out_beat (s : State) (o : Output) :
    (s.out o).cyc.beat = s.cyc.beat := by
  simp [State.out]
@[simp] theorem State.markDirty_beat (s : State) (a : Nat) :
    (s.markDirty a).cyc.beat = s.cyc.beat := by
  unfold State.markDirty
  repeat' split
  all_goals simp
@[simp] theorem State.setCabByte_beat (s : State) (a : Nat) (v : Byte) :
    (s.setCabByte a v).cyc.beat = s.cyc.beat := by
  simp [State.setCabByte]
@[simp] theorem State.setCabWord_beat (s : State) (a : Nat) (v : W32) :
    (s.setCabWord a v).cyc.beat = s.cyc.beat := by
  simp [State.setCabWord]
@[simp] theorem State.setDom_beat (s : State) (d : Nat) (x : Dom) :
    (s.setDom d x).cyc.beat = s.cyc.beat := by
  simp [State.setDom]
@[simp] theorem State.signal_beat (s : State) (v : Nat) :
    (s.signal v).cyc.beat = s.cyc.beat := by
  simp [State.signal]
@[simp] theorem State.recBump_beat (s : State) (off : Nat) :
    (s.recBump off).cyc.beat = s.cyc.beat := by
  simp [State.recBump]
@[simp] theorem State.askFlush_beat (s : State) (cause : Nat) (cmds : List Cmd) :
    (s.askFlush cause cmds).cyc.beat = s.cyc.beat := by
  unfold State.askFlush
  repeat' split
  all_goals simp
@[simp] theorem State.logEvent_beat (s : State) (code : BitVec 16) (src : Nat) (sev : Sev) (pay : Payload) :
    (s.logEvent code src sev pay).cyc.beat = s.cyc.beat := by
  simp [State.logEvent]
@[simp] theorem State.setCq_beat (s : State) (n : Nat) (c : Cq) :
    (s.setCq n c).cyc.beat = s.cyc.beat := by
  simp [State.setCq]
@[simp] theorem State.setSq_beat (s : State) (n : Nat) (q : Sq) :
    (s.setSq n q).cyc.beat = s.cyc.beat := by
  simp [State.setSq]
@[simp] theorem State.postEntry_beat (s : State) (n : Nat) (e : CqEntry) :
    (s.postEntry n e).cyc.beat = s.cyc.beat := by
  simp [State.postEntry]
@[simp] theorem State.post_beat (s : State) (code : BitVec 16) (sev : Sev) (src : Nat) (pay : optParam Payload 0) :
    (s.post code sev src pay).cyc.beat = s.cyc.beat := by
  simp [State.post]
@[simp] theorem State.complete_beat (s : State) (c : Option Cmd) (status : BitVec 16) (pay : optParam Payload 0) :
    (s.complete c status pay).cyc.beat = s.cyc.beat := by
  unfold State.complete
  repeat' split
  all_goals simp
@[simp] theorem State.setStrm_beat (s : State) (k : Nat) (x : Stream) :
    (s.setStrm k x).cyc.beat = s.cyc.beat := by
  simp [State.setStrm]
@[simp] theorem State.fillStrm_beat (s : State) (k : Nat) :
    (s.fillStrm k).cyc.beat = s.cyc.beat := by
  simp [State.fillStrm]
@[simp] theorem State.countPage_beat (s : State) (k : Nat) :
    (s.countPage k).cyc.beat = s.cyc.beat := by
  simp [State.countPage]
@[simp] theorem State.closePage_beat (s : State) (k : Nat) :
    (s.closePage k).cyc.beat = s.cyc.beat := by
  simp [State.closePage]
@[simp] theorem State.putRec_beat (s : State) (k : Nat) (r : Rec) :
    (s.putRec k r).cyc.beat = s.cyc.beat := by
  simp [State.putRec]
@[simp] theorem State.setCtx_beat (s : State) (c : Nat) (x : CtxSt) :
    (s.setCtx c x).cyc.beat = s.cyc.beat := by
  simp [State.setCtx]
@[simp] theorem State.setEng_beat (s : State) (e : Nat) (x : Engine) :
    (s.setEng e x).cyc.beat = s.cyc.beat := by
  simp [State.setEng]
@[simp] theorem State.wakeDom_beat (s : State) (d : Nat) (cmds : List (Option Cmd)) :
    (s.wakeDom d cmds).cyc.beat = s.cyc.beat := by
  simp only [State.wakeDom]
  repeat' split
  all_goals simp_all
@[simp] theorem State.touchBank_beat (s : State) (a : Nat) :
    (s.touchBank a).cyc.beat = s.cyc.beat := by
  simp [State.touchBank]
@[simp] theorem State.setDrawer_beat (s : State) (c : Nat) (w : Nat) (v : W24) :
    (s.setDrawer c w v).cyc.beat = s.cyc.beat := by
  unfold State.setDrawer
  repeat' split
  all_goals simp
@[simp] theorem State.setRun_beat (s : State) (c : Nat) (r : CtxRun) :
    (s.setRun c r).cyc.beat = s.cyc.beat := by
  simp [State.setRun]
@[simp] theorem State.setStage_beat (s : State) (c : Nat) (i : Nat) (x : StageRun) :
    (s.setStage c i x).cyc.beat = s.cyc.beat := by
  unfold State.setStage
  repeat' split
  all_goals simp
@[simp] theorem State.trace_beat (s : State) (ty : TrcTy) (ctx : Nat) (stage : Nat) (flags : Nat) (eng : Nat) (arg0 : Nat) (arg1 : Nat) :
    (s.trace ty ctx stage flags eng arg0 arg1).cyc.beat = s.cyc.beat := by
  simp [State.trace]
@[simp] theorem State.issue_beat (s : State) (n : Nat) :
    (s.issue n).cyc.beat = s.cyc.beat := by
  simp [State.issue]
@[simp] theorem State.retire_beat (s : State) (n : Nat) :
    (s.retire n).cyc.beat = s.cyc.beat := by
  simp [State.retire]
@[simp] theorem State.dropTok_beat (s : State) (n : Nat) :
    (s.dropTok n).cyc.beat = s.cyc.beat := by
  simp [State.dropTok]
@[simp] theorem State.retireStage_beat (s : State) (c : Nat) (i : Nat) (x : StageRun) :
    (s.retireStage c i x).cyc.beat = s.cyc.beat := by
  simp [State.retireStage]
@[simp] theorem State.strayTok_beat (s : State) (c : Nat) (i : Nat) (kind : Nat) (src : Nat) :
    (s.strayTok c i kind src).cyc.beat = s.cyc.beat := by
  simp [State.strayTok]
@[simp] theorem State.setFlow_beat (s : State) (f : Nat) (x : Flow) :
    (s.setFlow f x).cyc.beat = s.cyc.beat := by
  simp [State.setFlow]
@[simp] theorem State.loseRun_beat (s : State) (c : Nat) :
    (s.loseRun c).cyc.beat = s.cyc.beat := by
  unfold State.loseRun
  repeat' split
  all_goals simp
@[simp] theorem State.holeSlot_beat (s : State) (f : Nat) (t : Nat) :
    (s.holeSlot f t).cyc.beat = s.cyc.beat := by
  simp only [State.holeSlot]
  repeat' split
  all_goals simp_all
@[simp] theorem State.holeEmpty_beat (s : State) (c : Nat) (i : Nat) (x : StageRun) :
    (s.holeEmpty c i x).cyc.beat = s.cyc.beat := by
  simp [State.holeEmpty]
@[simp] theorem State.putItem_beat (s : State) (c : Nat) (i : Nat) (bytes : List Byte) :
    (s.putItem c i bytes).cyc.beat = s.cyc.beat := by
  simp only [State.putItem]
  repeat' split
  all_goals simp_all
@[simp] theorem State.makeReady_beat (s : State) (c : Nat) (i : Nat) (x : StageRun) :
    (s.makeReady c i x).cyc.beat = s.cyc.beat := by
  simp [State.makeReady]
@[simp] theorem State.markCancelled_beat (s : State) (c : Nat) (i : Nat) (x : StageRun) :
    (s.markCancelled c i x).cyc.beat = s.cyc.beat := by
  simp [State.markCancelled]
@[simp] theorem State.token_beat (a : Nat) (u1 : State) (u2 : Nat) (u3 : Nat) (u4 : Bool) :
    (State.token a u1 u2 u3 u4).cyc.beat = u1.cyc.beat := by
  induction a generalizing u1 u2 u3 u4 with
  | zero => rfl
  | succ n ih =>
    simp only [State.token]
    repeat' split
    all_goals simp [ih]
@[simp] theorem State.cancelStage_beat (s : State) (c : Nat) (i : Nat) (x : StageRun) :
    (s.cancelStage c i x).cyc.beat = s.cyc.beat := by
  simp [State.cancelStage]
@[simp] theorem State.extStage_beat (s : State) (c : Nat) (i : Nat) (kind : Nat) :
    (s.extStage c i kind).cyc.beat = s.cyc.beat := by
  unfold State.extStage
  repeat' split
  all_goals simp
@[simp] theorem State.extTok_beat (s : State) (c : Nat) (kind : Nat) :
    (s.extTok c kind).cyc.beat = s.cyc.beat := by
  unfold State.extTok
  repeat' split
  all_goals simp
@[simp] theorem State.extArrive_beat (s : State) (c : Nat) (kind : Nat) :
    (s.extArrive c kind).cyc.beat = s.cyc.beat := by
  simp [State.extArrive]
@[simp] theorem State.endStage_beat (s : State) (c : Nat) (i : Nat) (mask : BitVec 16) :
    (s.endStage c i mask).cyc.beat = s.cyc.beat := by
  unfold State.endStage
  repeat' split
  all_goals simp
@[simp] theorem State.putDuty_beat (s : State) (r : EngRun) (ws : List W24) :
    (s.putDuty r ws).cyc.beat = s.cyc.beat := by
  unfold State.putDuty
  repeat' split
  all_goals simp
@[simp] theorem State.afterWord_beat (s : State) (e : Nat) (r : EngRun) (me : MemEff) :
    (s.afterWord e r me).cyc.beat = s.cyc.beat := by
  unfold State.afterWord
  repeat' split
  all_goals simp
@[simp] theorem State.runWord_beat (s : State) (x : Engine) (r : EngRun) (io : Issue) (w : W64) (bk : Bool) :
    (s.runWord x r io w bk).cyc.beat = s.cyc.beat := by
  unfold State.runWord
  repeat' split
  all_goals simp
@[simp] theorem State.fetchWord_beat (s : State) (x : Engine) (r : EngRun) (io : Issue) (w : W64) :
    (s.fetchWord x r io w).cyc.beat = s.cyc.beat := by
  unfold State.fetchWord
  repeat' split
  all_goals simp
@[simp] theorem issueWord_beat (io : Issue) (w : W64) (s : State) :
    (issueWord io w s).cyc.beat = s.cyc.beat := by
  simp only [issueWord]
  repeat' split
  all_goals simp_all
@[simp] theorem xferOut_beat (x : Engine) (t : Xfer) (s : State) (i : Nat) :
    (xferOut x t s i).cyc.beat = s.cyc.beat := by
  simp [xferOut]
@[simp] theorem State.xferEnd_beat (s : State) (e : Nat) (t : Xfer) :
    (s.xferEnd e t).cyc.beat = s.cyc.beat := by
  simp [State.xferEnd]
@[simp] theorem State.setAx_beat (s : State) (c : Nat) (x : Axis) :
    (s.setAx c x).cyc.beat = s.cyc.beat := by
  simp [State.setAx]
@[simp] theorem State.setFb_beat (s : State) (n : Nat) (x : Fb) :
    (s.setFb n x).cyc.beat = s.cyc.beat := by
  simp [State.setFb]
@[simp] theorem State.setPwm_beat (s : State) (m : Nat) (x : Pwm) :
    (s.setPwm m x).cyc.beat = s.cyc.beat := by
  simp [State.setPwm]
@[simp] theorem State.setGrp_beat (s : State) (g : Nat) (x : Grp) :
    (s.setGrp g x).cyc.beat = s.cyc.beat := by
  simp [State.setGrp]
@[simp] theorem State.setEv_beat (s : State) (k : Nat) (x : Ev) :
    (s.setEv k x).cyc.beat = s.cyc.beat := by
  simp [State.setEv]
@[simp] theorem State.completeMotion_beat (s : State) (c : Nat) (cmd : Option Cmd) (status : BitVec 16) :
    (s.completeMotion c cmd status).cyc.beat = s.cyc.beat := by
  simp [State.completeMotion]
@[simp] theorem State.reply_beat (s : State) (c : Nat) (cmd : Option Cmd) (status : BitVec 16) :
    (s.reply c cmd status).cyc.beat = s.cyc.beat := by
  simp [State.reply]
@[simp] theorem State.answer_beat (s : State) (c : Nat) (cmd : Option Cmd) (st : BitVec 16) :
    (s.answer c cmd st).cyc.beat = s.cyc.beat := by
  simp [State.answer]
@[simp] theorem State.endMotion_beat (s : State) (c : Nat) (status : BitVec 16) :
    (s.endMotion c status).cyc.beat = s.cyc.beat := by
  simp only [State.endMotion]
  repeat' split
  all_goals simp_all
@[simp] theorem State.endSeg_beat (s : State) (c : Nat) (g : PvtSeg) (status : BitVec 16) :
    (s.endSeg c g status).cyc.beat = s.cyc.beat := by
  unfold State.endSeg
  repeat' split
  all_goals simp
@[simp] theorem State.endAllMotion_beat (s : State) (c : Nat) (status : BitVec 16) :
    (s.endAllMotion c status).cyc.beat = s.cyc.beat := by
  simp only [State.endAllMotion]
  repeat' split
  all_goals simp_all
@[simp] theorem State.hmResult_beat (s : State) (c : Nat) (cause : Nat) (st : Nat) :
    (s.hmResult c cause st).cyc.beat = s.cyc.beat := by
  simp [State.hmResult]
@[simp] theorem State.setHomed_beat (s : State) (c : Nat) (b : Bool) :
    (s.setHomed c b).cyc.beat = s.cyc.beat := by
  simp [State.setHomed]
@[simp] theorem State.homingEnd_beat (s : State) (c : Nat) (cause : Nat) :
    (s.homingEnd c cause).cyc.beat = s.cyc.beat := by
  simp [State.homingEnd]
@[simp] theorem State.stopAt_beat (s : State) (c : Nat) (d : Rat) :
    (s.stopAt c d).cyc.beat = s.cyc.beat := by
  simp [State.stopAt]
@[simp] theorem State.homingFail_beat (s : State) (c : Nat) (cause : Nat) :
    (s.homingFail c cause).cyc.beat = s.cyc.beat := by
  simp [State.homingFail]
@[simp] theorem State.withRate_beat (s : State) (tm : TimeSt) :
    (s.withRate tm).cyc.beat = s.cyc.beat := by
  simp [State.withRate]
@[simp] theorem State.pwmLeave_beat (s : State) (m : Nat) (t : PwmSt) :
    (s.pwmLeave m t).cyc.beat = s.cyc.beat := by
  simp [State.pwmLeave]
@[simp] theorem State.pwmOff_beat (s : State) (m : Nat) :
    (s.pwmOff m).cyc.beat = s.cyc.beat := by
  unfold State.pwmOff
  repeat' split
  all_goals simp
@[simp] theorem State.disarm_beat (s : State) (k : Nat) :
    (s.disarm k).cyc.beat = s.cyc.beat := by
  simp [State.disarm]
@[simp] theorem State.disarmAll_beat (s : State) (c : Nat) :
    (s.disarmAll c).cyc.beat = s.cyc.beat := by
  simp [State.disarmAll]
@[simp] theorem State.axisOff_beat (s : State) (c : Nat) :
    (s.axisOff c).cyc.beat = s.cyc.beat := by
  simp only [State.axisOff]
  repeat' split
  all_goals simp_all
@[simp] theorem State.axisQstop_beat (s : State) (c : Nat) :
    (s.axisQstop c).cyc.beat = s.cyc.beat := by
  simp [State.axisQstop]
@[simp] theorem State.groupFault_beat (s : State) (g : Nat) (c : Nat) :
    (s.groupFault g c).cyc.beat = s.cyc.beat := by
  simp only [State.groupFault]
  repeat' split
  all_goals simp_all
@[simp] theorem State.react_beat (s : State) (c : Nat) (off : Bool) :
    (s.react c off).cyc.beat = s.cyc.beat := by
  simp only [State.react]
  repeat' split
  all_goals simp_all
@[simp] theorem State.stopReact_beat (s : State) (c : Nat) :
    (s.stopReact c).cyc.beat = s.cyc.beat := by
  simp [State.stopReact]
@[simp] theorem State.torqueOff_beat (s : State) (c : Nat) :
    (s.torqueOff c).cyc.beat = s.cyc.beat := by
  simp [State.torqueOff]
@[simp] theorem State.fbSticky_beat (s : State) (n : Nat) (bit : Nat) :
    (s.fbSticky n bit).cyc.beat = s.cyc.beat := by
  simp [State.fbSticky]
@[simp] theorem State.fbFault_beat (s : State) (code : BitVec 16) (n : Nat) (used : Bool) (pay : Payload) :
    (s.fbFault code n used pay).cyc.beat = s.cyc.beat := by
  simp [State.fbFault]
@[simp] theorem State.indexAgain_beat (s : State) (n : Nat) (r : W32) :
    (s.indexAgain n r).cyc.beat = s.cyc.beat := by
  simp [State.indexAgain]
@[simp] theorem State.index_beat (s : State) (n : Nat) :
    (s.index n).cyc.beat = s.cyc.beat := by
  simp only [State.index]
  repeat' split
  all_goals simp_all
@[simp] theorem State.turnDir_beat (s : State) (n : Nat) (up : Bool) :
    (s.turnDir n up).cyc.beat = s.cyc.beat := by
  simp [State.turnDir]
@[simp] theorem State.countEdge_beat (s : State) (n : Nat) (up : Bool) (t : W64) :
    (s.countEdge n up t).cyc.beat = s.cyc.beat := by
  simp [State.countEdge]
@[simp] theorem State.acceptEdge_beat (s : State) (n : Nat) (up : Bool) (a : Bool) (b : Bool) (z : Bool) (t : W64) :
    (s.acceptEdge n up a b z t).cyc.beat = s.cyc.beat := by
  simp [State.acceptEdge]
@[simp] theorem State.acceptQuar_beat (s : State) (n : Nat) (q : QEdge) (z : Bool) :
    (s.acceptQuar n q z).cyc.beat = s.cyc.beat := by
  simp [State.acceptQuar]
@[simp] theorem State.testEdge_beat (s : State) (n : Nat) (lineB : Bool) (a : Bool) (b : Bool) (z : Bool) :
    (s.testEdge n lineB a b z).cyc.beat = s.cyc.beat := by
  simp [State.testEdge]
@[simp] theorem State.glitch_beat (s : State) (n : Nat) (a : Bool) (b : Bool) :
    (s.glitch n a b).cyc.beat = s.cyc.beat := by
  simp [State.glitch]
@[simp] theorem State.quadErr_beat (s : State) (n : Nat) (a : Bool) (b : Bool) (z : Bool) :
    (s.quadErr n a b z).cyc.beat = s.cyc.beat := by
  unfold State.quadErr
  repeat' split
  all_goals simp
@[simp] theorem State.quadEdge_beat (s : State) (n : Nat) (a : Bool) (b : Bool) (z : Bool) :
    (s.quadEdge n a b z).cyc.beat = s.cyc.beat := by
  simp only [State.quadEdge]
  repeat' split
  all_goals simp_all
@[simp] theorem State.idxArm_beat (s : State) (v : W32) :
    (s.idxArm v).cyc.beat = s.cyc.beat := by
  simp [State.idxArm]
@[simp] theorem State.cntSet_beat (s : State) (v : W32) :
    (s.cntSet v).cyc.beat = s.cyc.beat := by
  simp [State.cntSet]
@[simp] theorem State.fbLatch_beat (s : State) (v : W32) :
    (s.fbLatch v).cyc.beat = s.cyc.beat := by
  simp [State.fbLatch]
@[simp] theorem State.fbStatusClear_beat (s : State) (v : W32) :
    (s.fbStatusClear v).cyc.beat = s.cyc.beat := by
  simp [State.fbStatusClear]
@[simp] theorem State.ssiPulse_beat (s : State) (n : Fin 8) (tclk : Nat) (t : W64) :
    (s.ssiPulse n tclk t).cyc.beat = s.cyc.beat := by
  simp [State.ssiPulse]
@[simp] theorem State.ssiClock_beat (s : State) (n : Fin 8) (nb : Nat) (tclk : Nat) (t : W64) :
    (s.ssiClock n nb tclk t).cyc.beat = s.cyc.beat := by
  simp [State.ssiClock]
@[simp] theorem State.sdWrite_beat (s : State) (n : Nat) (c : Nat) (r0 : Int) (r1 : Int) (r2 : Int) (ctr : Int) (settle : Bool) :
    (s.sdWrite n c r0 r1 r2 ctr settle).cyc.beat = s.cyc.beat := by
  simp [State.sdWrite]
@[simp] theorem State.sdFrameReady_beat (s : State) (n : Fin 8) (r0 : Int) (r1 : Int) (r2 : Int) (edge : Int) :
    (s.sdFrameReady n r0 r1 r2 edge).cyc.beat = s.cyc.beat := by
  simp [State.sdFrameReady]
@[simp] theorem State.latchNear_beat (s : State) (n : Nat) :
    (s.latchNear n).cyc.beat = s.cyc.beat := by
  simp [State.latchNear]
@[simp] theorem State.chatter_beat (s : State) (c : Nat) (k : Nat) :
    (s.chatter c k).cyc.beat = s.cyc.beat := by
  simp [State.chatter]
@[simp] theorem State.sampleInput_beat (s : State) (c : Nat) (k : Nat) (raw : Bool) (need : Nat) (cnt : W32) :
    (s.sampleInput c k raw need cnt).cyc.beat = s.cyc.beat := by
  simp [State.sampleInput]
@[simp] theorem State.axisInputSample_beat (s : State) (n : Fin 8) (limp : Bool) (limn : Bool) (home : Bool) :
    (s.axisInputSample n limp limn home).cyc.beat = s.cyc.beat := by
  simp [State.axisInputSample]
@[simp] theorem State.farInputs_beat (s : State) (c : Nat) (nst : BitVec 16) (pos : W32) :
    (s.farInputs c nst pos).cyc.beat = s.cyc.beat := by
  simp [State.farInputs]
@[simp] theorem State.setWb_beat (s : State) (c : Nat) (k : Nat) (wb : Bool) :
    (s.setWb c k wb).cyc.beat = s.cyc.beat := by
  simp [State.setWb]
@[simp] theorem State.writeAxin_beat (s : State) (c : Nat) :
    (s.writeAxin c).cyc.beat = s.cyc.beat := by
  simp [State.writeAxin]
@[simp] theorem State.setPort_beat (s : State) (p : Nat) (x : Port) :
    (s.setPort p x).cyc.beat = s.cyc.beat := by
  simp [State.setPort]
@[simp] theorem State.setDir_beat (s : State) (d : Nat) (x : Dir) :
    (s.setDir d x).cyc.beat = s.cyc.beat := by
  simp [State.setDir]
@[simp] theorem State.setRing_beat (s : State) (r : Nat) (x : Ring) :
    (s.setRing r x).cyc.beat = s.cyc.beat := by
  simp [State.setRing]
@[simp] theorem State.driveTxdis_beat (s : State) (p : Nat) :
    (s.driveTxdis p).cyc.beat = s.cyc.beat := by
  simp [State.driveTxdis]
@[simp] theorem State.driveVioc_beat (s : State) :
    (s.driveVioc).cyc.beat = s.cyc.beat := by
  simp [State.driveVioc]
@[simp] theorem State.sendAt_beat (s : State) (d : Nat) (at10 : Nat) (c : Cell) :
    (s.sendAt d at10 c).cyc.beat = s.cyc.beat := by
  simp [State.sendAt]
@[simp] theorem State.sendCell_beat (s : State) (d : Nat) (c : Cell) :
    (s.sendCell d c).cyc.beat = s.cyc.beat := by
  simp [State.sendCell]
@[simp] theorem State.sendTrain_beat (s : State) (d : Nat) (from10 : Nat) (cs : List Cell) :
    (s.sendTrain d from10 cs).cyc.beat = s.cyc.beat := by
  simp [State.sendTrain]
@[simp] theorem State.sendMarks_beat (s : State) :
    (s.sendMarks).cyc.beat = s.cyc.beat := by
  simp [State.sendMarks]
@[simp] theorem State.noteCarrier_beat (s : State) (d : Nat) (n : Nat) :
    (s.noteCarrier d n).cyc.beat = s.cyc.beat := by
  unfold State.noteCarrier
  repeat' split
  all_goals simp
@[simp] theorem State.sendTrains_beat (s : State) (d : Nat) :
    (s.sendTrains d).cyc.beat = s.cyc.beat := by
  simp [State.sendTrains]
@[simp] theorem State.countLate_beat (s : State) (c : Nat) :
    (s.countLate c).cyc.beat = s.cyc.beat := by
  simp [State.countLate]
@[simp] theorem State.noteAge_beat (s : State) (d : Nat) (q : TxItem) (k : Cell) :
    (s.noteAge d q k).cyc.beat = s.cyc.beat := by
  simp [State.noteAge]
@[simp] theorem State.startItem_beat (s : State) (d : Nat) (q : TxItem) :
    (s.startItem d q).cyc.beat = s.cyc.beat := by
  unfold State.startItem
  repeat' split
  all_goals simp
@[simp] theorem State.startCells_beat (s : State) (d : Nat) :
    (s.startCells d).cyc.beat = s.cyc.beat := by
  simp [State.startCells]
@[simp] theorem State.acceptItem_beat (s : State) (d : Nat) (cell : Option Cell) (bytes : List Byte) (ctx : Nat) (first : Bool) :
    (s.acceptItem d cell bytes ctx first).cyc.beat = s.cyc.beat := by
  simp [State.acceptItem]
@[simp] theorem State.startAll_beat (s : State) :
    (s.startAll).cyc.beat = s.cyc.beat := by
  simp [State.startAll]
@[simp] theorem State.refillCredits_beat (s : State) :
    (s.refillCredits).cyc.beat = s.cyc.beat := by
  simp [State.refillCredits]
@[simp] theorem State.pushAcyc_beat (s : State) (d : Nat) (a : Acyc) :
    (s.pushAcyc d a).cyc.beat = s.cyc.beat := by
  simp [State.pushAcyc]
@[simp] theorem State.nextSeq_beat (s : State) :
    (s.nextSeq).2.cyc.beat = s.cyc.beat := by
  simp [State.nextSeq]
@[simp] theorem State.startAdm_beat (s : State) (r : Nat) (n : Nat) (point : Nat) (count : Nat) (wr : Bool) (vals : List W32) (what : AdmFor) :
    (s.startAdm r n point count wr vals what).cyc.beat = s.cyc.beat := by
  simp [State.startAdm]
@[simp] theorem State.ageAdm_beat (s : State) :
    (s.ageAdm).cyc.beat = s.cyc.beat := by
  simp only [State.ageAdm]
  rw [foldl_beat _ (fun s d => ?_)]
  · rw [foldl_beat _ (fun s a => by simp)]
  · rw [foldl_beat _ (fun s n => ?_)]
    rw [foldl_beat _ (fun s n => by simp)]
@[simp] theorem State.startAcyc_beat (s : State) (d : Nat) :
    (s.startAcyc d).cyc.beat = s.cyc.beat := by
  simp only [State.startAcyc]
  repeat' split
  all_goals simp_all
@[simp] theorem State.checkRx_beat (s : State) (p : Nat) (r : RxCell) :
    (s.checkRx p r).1.cyc.beat = s.cyc.beat := by
  unfold State.checkRx
  repeat' split
  all_goals simp
@[simp] theorem State.extendPos_beat (s : State) (c : Nat) :
    (s.extendPos c).cyc.beat = s.cyc.beat := by
  simp [State.extendPos]
@[simp] theorem State.shiftAxis_beat (s : State) (c : Nat) (d : Rat) :
    (s.shiftAxis c d).cyc.beat = s.cyc.beat := by
  simp [State.shiftAxis]
@[simp] theorem State.setMs_beat (s : State) (k : Nat) (x : Ms) :
    (s.setMs k x).cyc.beat = s.cyc.beat := by
  simp [State.setMs]
@[simp] theorem State.produce_beat (s : State) (kind : Nat) (src : Nat) (p : Rat) (v : Rat) (t : Int) :
    (s.produce kind src p v t).cyc.beat = s.cyc.beat := by
  simp [State.produce]
@[simp] theorem State.produceNear_beat (s : State) (n : Nat) :
    (s.produceNear n).cyc.beat = s.cyc.beat := by
  simp [State.produceNear]
@[simp] theorem State.moveVirtual_beat (s : State) (k : Nat) :
    (s.moveVirtual k).cyc.beat = s.cyc.beat := by
  simp [State.moveVirtual]
@[simp] theorem State.freezeOne_beat (s : State) (k : Nat) :
    (s.freezeOne k).cyc.beat = s.cyc.beat := by
  simp [State.freezeOne]
@[simp] theorem State.freezeMs_beat (s : State) :
    (s.freezeMs).cyc.beat = s.cyc.beat := by
  simp [State.freezeMs]
@[simp] theorem State.msLook_beat (s : State) (c : Nat) (k : Nat) :
    (s.msLook c k).1.cyc.beat = s.cyc.beat := by
  simp only [State.msLook]
  repeat' split
  all_goals simp_all
@[simp] theorem State.advance_beat (s : State) (c : Nat) :
    (s.advance c).cyc.beat = s.cyc.beat := by
  simp only [State.advance]
  repeat' split
  all_goals simp_all
@[simp] theorem State.advanceAll_beat (s : State) :
    (s.advanceAll).cyc.beat = s.cyc.beat := by
  simp [State.advanceAll]
@[simp] theorem State.runPvt_beat (s : State) (c : Nat) :
    (s.runPvt c).cyc.beat = s.cyc.beat := by
  simp only [State.runPvt]
  repeat' split
  all_goals simp_all
@[simp] theorem State.runStep_beat (s : State) (c : Nat) :
    (s.runStep c).cyc.beat = s.cyc.beat := by
  simp [State.runStep]
@[simp] theorem State.runGear_beat (s : State) (c : Nat) (t : Int) :
    (s.runGear c t).cyc.beat = s.cyc.beat := by
  simp [State.runGear]
@[simp] theorem State.runCam_beat (s : State) (c : Nat) (t : Int) :
    (s.runCam c t).cyc.beat = s.cyc.beat := by
  simp [State.runCam]
@[simp] theorem State.recap_beat (s : State) (c : Nat) :
    (s.recap c).cyc.beat = s.cyc.beat := by
  simp only [State.recap]
  repeat' split
  all_goals simp_all
@[simp] theorem State.swlVel_beat (s : State) (c : Nat) :
    (s.swlVel c).cyc.beat = s.cyc.beat := by
  simp only [State.swlVel]
  repeat' split
  all_goals simp_all
@[simp] theorem State.limitHit_beat (s : State) (c : Nat) (v : Rat) :
    (s.limitHit c v).cyc.beat = s.cyc.beat := by
  simp only [State.limitHit]
  repeat' split
  all_goals simp_all
@[simp] theorem State.swlFollow_beat (s : State) (c : Nat) :
    (s.swlFollow c).cyc.beat = s.cyc.beat := by
  simp only [State.swlFollow]
  repeat' split
  all_goals simp_all
@[simp] theorem State.homeStop_beat (s : State) (c : Nat) (st : HmSt) :
    (s.homeStop c st).cyc.beat = s.cyc.beat := by
  simp [State.homeStop]
@[simp] theorem State.homeRamp_beat (s : State) (c : Nat) :
    (s.homeRamp c).cyc.beat = s.cyc.beat := by
  simp [State.homeRamp]
@[simp] theorem State.reference_beat (s : State) (c : Nat) (at_ : Rat) :
    (s.reference c at_).cyc.beat = s.cyc.beat := by
  simp [State.reference]
@[simp] theorem State.homeFound_beat (s : State) (c : Nat) (at_ : Rat) :
    (s.homeFound c at_).cyc.beat = s.cyc.beat := by
  simp [State.homeFound]
@[simp] theorem State.homeDone_beat (s : State) (c : Nat) :
    (s.homeDone c).cyc.beat = s.cyc.beat := by
  simp [State.homeDone]
@[simp] theorem State.homePush_beat (s : State) (c : Nat) :
    (s.homePush c).cyc.beat = s.cyc.beat := by
  simp [State.homePush]
@[simp] theorem State.homeGo_beat (s : State) (c : Nat) (st : HmSt) :
    (s.homeGo c st).cyc.beat = s.cyc.beat := by
  simp [State.homeGo]
@[simp] theorem State.homeReverse_beat (s : State) (c : Nat) :
    (s.homeReverse c).cyc.beat = s.cyc.beat := by
  simp [State.homeReverse]
theorem State.homeEvent_beat (s t : State) (c : Nat) (h : s.homeEvent c = some t) :
    t.cyc.beat = s.cyc.beat := by
  unfold State.homeEvent at h
  dsimp only at h
  repeat' split at h
  all_goals first | (cases h; done) | (cases h; simp; done) | (obtain ⟨a, -, rfl⟩ := Option.map_eq_some_iff.mp h; simp)
@[simp] theorem State.homeStep_beat (s : State) (c : Nat) (rest : Bool) :
    (s.homeStep c rest).cyc.beat = s.cyc.beat := by
  unfold State.homeStep
  dsimp only
  repeat' split
  all_goals first | (simp; done) | exact State.homeEvent_beat _ _ _ ‹_›
@[simp] theorem State.runHoming_beat (s : State) (c : Nat) (t : Int) :
    (s.runHoming c t).cyc.beat = s.cyc.beat := by
  unfold State.runHoming
  repeat' split
  all_goals simp
@[simp] theorem State.genRun_beat (s : State) (c : Nat) :
    (s.genRun c).1.cyc.beat = s.cyc.beat := by
  simp only [State.genRun]
  repeat' split
  all_goals simp_all
@[simp] theorem State.delaySet_beat (s : State) (r : Nat) (n : Nat) (second : Bool) (repeat_ : Bool) (seq : BitVec 16) :
    (s.delaySet r n second repeat_ seq).cyc.beat = s.cyc.beat := by
  simp [State.delaySet]
@[simp] theorem State.applyPend_beat (s : State) (r : Nat) (n : Nat) :
    (s.applyPend r n).cyc.beat = s.cyc.beat := by
  simp only [State.applyPend]
  repeat' split
  all_goals simp_all
@[simp] theorem State.applyPends_beat (s : State) :
    (s.applyPends).cyc.beat = s.cyc.beat := by
  simp [State.applyPends]
@[simp] theorem State.enterIntake_beat (s : State) (r : Nat) :
    (s.enterIntake r).cyc.beat = s.cyc.beat := by
  simp [State.enterIntake]
@[simp] theorem State.ringDown_beat (s : State) (r : Nat) :
    (s.ringDown r).cyc.beat = s.cyc.beat := by
  simp [State.ringDown]
@[simp] theorem State.joinReceive_beat (s : State) (p : Fin 4) (rx : RxCell) :
    (s.joinReceive p rx).cyc.beat = s.cyc.beat := by
  simp [State.joinReceive]
@[simp] theorem State.sendProbe_beat (s : State) (r : Nat) (dir : Nat) :
    (s.sendProbe r dir).cyc.beat = s.cyc.beat := by
  simp [State.sendProbe]
@[simp] theorem State.enterEnum_beat (s : State) (r : Nat) :
    (s.enterEnum r).cyc.beat = s.cyc.beat := by
  simp [State.enterEnum]
@[simp] theorem State.enumMismatch_beat (s : State) (r : Nat) :
    (s.enumMismatch r).cyc.beat = s.cyc.beat := by
  simp [State.enumMismatch]
@[simp] theorem State.nextEcho_beat (s : State) (r : Nat) (what : EchoFor) (done : State → State)
    (hd : ∀ t, (done t).cyc.beat = t.cyc.beat) :
    (s.nextEcho r what done).cyc.beat = s.cyc.beat := by
  simp only [State.nextEcho]
  split
  · simp [hd]
  · simp
@[simp] theorem State.endMeasure_beat (s : State) (r : Nat) :
    (s.endMeasure r).cyc.beat = s.cyc.beat := by
  simp [State.endMeasure]
@[simp] theorem State.enterMeasure_beat (s : State) (r : Nat) :
    (s.enterMeasure r).cyc.beat = s.cyc.beat := by
  simp [State.enterMeasure]
@[simp] theorem State.judgeEnum_beat (s : State) (r : Nat) (assoc : List (BitVec 16)) :
    (s.judgeEnum r assoc).cyc.beat = s.cyc.beat := by
  simp [State.judgeEnum]
@[simp] theorem State.enumProbeReturn_beat (s : State) (p : Fin 4) (rx : RxCell) (assoc : List (BitVec 16)) :
    (s.enumProbeReturn p rx assoc).cyc.beat = s.cyc.beat := by
  simp [State.enumProbeReturn]
@[simp] theorem State.enumProbeTimeout_beat (s : State) (r : Fin 2) (assoc : List (BitVec 16)) :
    (s.enumProbeTimeout r assoc).cyc.beat = s.cyc.beat := by
  simp [State.enumProbeTimeout]
@[simp] theorem State.restored_beat (s : State) (r : Nat) :
    (s.restored r).cyc.beat = s.cyc.beat := by
  simp [State.restored]
@[simp] theorem State.tailDelay_beat (s : State) (r : Nat) (n : Nat) (pd : W32) :
    (s.tailDelay r n pd).cyc.beat = s.cyc.beat := by
  simp [State.tailDelay]
@[simp] theorem State.echoResponse_beat (s : State) (p : Fin 4) (rx : RxCell) :
    (s.echoResponse p rx).cyc.beat = s.cyc.beat := by
  simp only [State.echoResponse]
  repeat' split
  all_goals simp_all
@[simp] theorem State.breakRing_beat (s : State) (r : Nat) (keep0 : Option Nat) (keep1 : Option Nat) :
    (s.breakRing r keep0 keep1).cyc.beat = s.cyc.beat := by
  simp [State.breakRing]
@[simp] theorem State.loseNode_beat (s : State) (r : Nat) (n : Nat) :
    (s.loseNode r n).cyc.beat = s.cyc.beat := by
  simp [State.loseNode]
@[simp] theorem State.located_beat (s : State) (r : Nat) (mx : Nat) (mn : Nat) :
    (s.located r mx mn).cyc.beat = s.cyc.beat := by
  simp [State.located]
@[simp] theorem State.locateEnd_beat (s : State) (r : Nat) (second : Bool) (v : Nat) :
    (s.locateEnd r second v).cyc.beat = s.cyc.beat := by
  simp only [State.locateEnd]
  repeat' split
  all_goals simp_all
@[simp] theorem State.cycleMarkTimeout_beat (s : State) (r : Fin 2) :
    (s.cycleMarkTimeout r).cyc.beat = s.cyc.beat := by
  simp [State.cycleMarkTimeout]
@[simp] theorem State.locateTimeout_beat (s : State) (r : Fin 2) (second : Bool) :
    (s.locateTimeout r second).cyc.beat = s.cyc.beat := by
  simp only [State.locateTimeout]
  repeat' split
  all_goals simp_all
@[simp] theorem State.sendUnfold_beat (s : State) (r : Nat) :
    (s.sendUnfold r).cyc.beat = s.cyc.beat := by
  simp [State.sendUnfold]
@[simp] theorem State.gapState_beat (s : State) (r : Nat) (n : Nat) (v : Nat) :
    (s.gapState r n v).cyc.beat = s.cyc.beat := by
  simp [State.gapState]
@[simp] theorem State.ringsAtT0_beat (s : State) :
    (State.ringsAtT0 s).cyc.beat = s.cyc.beat := by
  simp [State.ringsAtT0]
@[simp] theorem State.healEchoes_beat (s : State) :
    (s.healEchoes).cyc.beat = s.cyc.beat := by
  simp [State.healEchoes]
@[simp] theorem State.ringIntake_beat (s : State) :
    (s.ringIntake).cyc.beat = s.cyc.beat := by
  simp only [State.ringIntake]
  repeat' split
  all_goals simp_all
@[simp] theorem State.ringClose_beat (s : State) :
    (s.ringClose).cyc.beat = s.cyc.beat := by
  simp [State.ringClose]
@[simp] theorem State.ringRestore_beat (s : State) :
    (s.ringRestore).cyc.beat = s.cyc.beat := by
  simp [State.ringRestore]
@[simp] theorem State.autoIntake_beat (s : State) (r : Fin 2) :
    (s.autoIntake r).cyc.beat = s.cyc.beat := by
  simp [State.autoIntake]
@[simp] theorem State.ringPortLost_beat (s : State) (p : Nat) :
    (s.ringPortLost p).cyc.beat = s.cyc.beat := by
  simp only [State.ringPortLost]
  repeat' split
  all_goals simp_all
@[simp] theorem State.setLines_beat (s : State) (p : Nat) (x : Port) :
    (s.setLines p x).cyc.beat = s.cyc.beat := by
  simp [State.setLines]
@[simp] theorem State.portLockLoss_beat (s : State) (p : Fin 5) (lock : Bool) (los : Bool) (hiBer : Bool) :
    (s.portLockLoss p lock los hiBer).cyc.beat = s.cyc.beat := by
  simp [State.portLockLoss]
@[simp] theorem State.moduleAbsent_beat (s : State) (p : Fin 5) (absent : Bool) :
    (s.moduleAbsent p absent).cyc.beat = s.cyc.beat := by
  simp [State.moduleAbsent]
@[simp] theorem State.fetchCmd_beat (s : State) (op : BitVec 8) (d : Desc) :
    (s.fetchCmd op d).2.cyc.beat = s.cyc.beat := by
  simp [State.fetchCmd]
@[simp] theorem State.countGate_beat (s : State) (op : BitVec 8) (st : BitVec 16) :
    (s.countGate op st).cyc.beat = s.cyc.beat := by
  simp [State.countGate]
@[simp] theorem State.breakSeg_beat (s : State) (op : BitVec 8) (d : Desc) (g : Nat) :
    (s.breakSeg op d g).cyc.beat = s.cyc.beat := by
  unfold State.breakSeg
  repeat' split
  all_goals simp
@[simp] theorem State.breakSegs_beat (s : State) (op : BitVec 8) (d : Desc) :
    (s.breakSegs op d).cyc.beat = s.cyc.beat := by
  simp [State.breakSegs]
@[simp] theorem State.atHinge_beat (s : State) (op : BitVec 8) (d : Desc) (c : Option Cmd)
    (apply : Desc → Option Cmd → State → State)
    (ha : ∀ d c s, (apply d c s).cyc.beat = s.cyc.beat) :
    (s.atHinge op d c apply).cyc.beat = s.cyc.beat := by
  have hb := State.breakSegs_beat s op d
  unfold State.atHinge
  generalize s.breakSegs op d = t at hb
  dsimp only
  split
  · simp [hb]
  · exact (ha _ _ _).trans hb
@[simp] theorem State.runDesc_beat (s : State) (op : BitVec 8) (d : Desc)
    (apply : Desc → Option Cmd → State → State)
    (ha : ∀ d c s, (apply d c s).cyc.beat = s.cyc.beat) :
    (s.runDesc op d apply).cyc.beat = s.cyc.beat := by
  unfold State.runDesc
  split
  · rfl
  · dsimp only
    split <;> simp [ha]
@[simp] theorem State.checkSrc_beat (s : State) :
    (s.checkSrc).cyc.beat = s.cyc.beat := by
  simp [State.checkSrc]
@[simp] theorem State.endSlew_beat (s : State) :
    (s.endSlew).cyc.beat = s.cyc.beat := by
  simp [State.endSlew]
@[simp] theorem State.jump_beat (s : State) (amount : Int) :
    (s.jump amount).cyc.beat = s.cyc.beat := by
  simp [State.jump]
@[simp] theorem State.askStep_beat (s : State) (amount : Int) :
    (s.askStep amount).cyc.beat = s.cyc.beat := by
  simp [State.askStep]
@[simp] theorem State.timeStepApply_beat (s : State) :
    (s.timeStepApply).cyc.beat = s.cyc.beat := by
  unfold State.timeStepApply
  repeat' split
  all_goals simp
@[simp] theorem State.accepted_beat (s : State) (eff : Int) :
    (s.accepted eff).cyc.beat = s.cyc.beat := by
  unfold State.accepted
  repeat' split
  all_goals simp
@[simp] theorem State.servoAccept_beat (s : State) (eff : Int) :
    (s.servoAccept eff).cyc.beat = s.cyc.beat := by
  simp [State.servoAccept]
@[simp] theorem State.servoRefuse_beat (s : State) (eff : Int) :
    (s.servoRefuse eff).cyc.beat = s.cyc.beat := by
  simp [State.servoRefuse]
@[simp] theorem State.measure_beat (s : State) (theta : Int) :
    (s.measure theta).cyc.beat = s.cyc.beat := by
  simp [State.measure]
@[simp] theorem State.intoHoldover_beat (s : State) :
    (s.intoHoldover).cyc.beat = s.cyc.beat := by
  simp [State.intoHoldover]
@[simp] theorem State.holdoverTimeout_beat (s : State) :
    (s.holdoverTimeout).cyc.beat = s.cyc.beat := by
  simp [State.holdoverTimeout]
@[simp] theorem State.newMaster_beat (s : State) (gm : W64) :
    (s.newMaster gm).cyc.beat = s.cyc.beat := by
  simp [State.newMaster]
@[simp] theorem State.ptpStamp_beat (s : State) :
    (s.ptpStamp).2.cyc.beat = s.cyc.beat := by
  simp [State.ptpStamp]
@[simp] theorem State.syncTimed_beat (s : State) (took : Int) :
    (s.syncTimed took).cyc.beat = s.cyc.beat := by
  simp [State.syncTimed]
@[simp] theorem State.newMpd_beat (s : State) (twice : Int) :
    (s.newMpd twice).cyc.beat = s.cyc.beat := by
  simp [State.newMpd]
@[simp] theorem State.askDelay_beat (s : State) :
    (s.askDelay).cyc.beat = s.cyc.beat := by
  simp [State.askDelay]
@[simp] theorem State.answerPdelay_beat (s : State) (q : BitVec 16) :
    (s.answerPdelay q).cyc.beat = s.cyc.beat := by
  simp [State.answerPdelay]
@[simp] theorem State.ptp_beat (s : State) (m : PtpMsg) :
    (s.ptp m).cyc.beat = s.cyc.beat := by
  simp only [State.ptp]
  repeat' split
  all_goals simp_all
@[simp] theorem applyTimeSlew_beat (d : Desc) (c : Option Cmd) (s : State) :
    (applyTimeSlew d c s).cyc.beat = s.cyc.beat := by
  simp [applyTimeSlew]
@[simp] theorem applyTimeStep_beat (d : Desc) (c : Option Cmd) (s : State) :
    (applyTimeStep d c s).cyc.beat = s.cyc.beat := by
  simp only [applyTimeStep]
  repeat' split
  all_goals simp_all
@[simp] theorem State.btWrap_beat (s : State) :
    (s.btWrap).cyc.beat = s.cyc.beat := by
  simp [State.btWrap]
@[simp] theorem State.timeInfoBroadcast_beat (s : State) :
    (s.timeInfoBroadcast).cyc.beat = s.cyc.beat := by
  simp [State.timeInfoBroadcast]
@[simp] theorem State.noteWritten_beat (s : State) (c : Nat) (ws : List Nat) :
    (s.noteWritten c ws).cyc.beat = s.cyc.beat := by
  simp [State.noteWritten]
@[simp] theorem applyParamWrite_beat (d : Desc) (cmd : Option Cmd) (s : State) :
    (applyParamWrite d cmd s).cyc.beat = s.cyc.beat := by
  simp only [applyParamWrite]
  repeat' split
  all_goals simp_all
@[simp] theorem applyParamRead_beat (d : Desc) (cmd : Option Cmd) (s : State) :
    (applyParamRead d cmd s).cyc.beat = s.cyc.beat := by
  simp [applyParamRead]
@[simp] theorem State.sendTwin_beat (s : State) (c : Cell) :
    (s.sendTwin c).cyc.beat = s.cyc.beat := by
  simp [State.sendTwin]
@[simp] theorem State.enterTwin_beat (s : State) (t : TwinSt) (cause : Nat) :
    (s.enterTwin t cause).cyc.beat = s.cyc.beat := by
  simp [State.enterTwin]
@[simp] theorem State.enterJoining_beat (s : State) :
    (s.enterJoining).cyc.beat = s.cyc.beat := by
  simp [State.enterJoining]
@[simp] theorem State.diverge_beat (s : State) (cause : Nat) (ctx : Nat) :
    (s.diverge cause ctx).cyc.beat = s.cyc.beat := by
  simp [State.diverge]
@[simp] theorem State.mirrorOut_beat (s : State) (op : BitVec 8) (d : Desc) (seq : BitVec 16) :
    (s.mirrorOut op d seq).cyc.beat = s.cyc.beat := by
  simp [State.mirrorOut]
@[simp] theorem State.sendHeart_beat (s : State) :
    (s.sendHeart).cyc.beat = s.cyc.beat := by
  simp [State.sendHeart]
@[simp] theorem State.sendCopy_beat (s : State) (kind : Nat) (n : Nat) (first : Nat) (ws : List W24) :
    (s.sendCopy kind n first ws).cyc.beat = s.cyc.beat := by
  simp [State.sendCopy]
@[simp] theorem State.sendCopies_beat (s : State) :
    (s.sendCopies).cyc.beat = s.cyc.beat := by
  simp [State.sendCopies]
@[simp] theorem State.joinBy_beat (s : State) (m : BitVec 16) :
    (s.joinBy m).cyc.beat = s.cyc.beat := by
  simp [State.joinBy]
@[simp] theorem State.takeTable_beat (s : State) (t : NodeTable) :
    (s.takeTable t).cyc.beat = s.cyc.beat := by
  simp [State.takeTable]
@[simp] theorem State.twHeartReceive_beat (s : State) (rx : RxCell) (tables : List NodeTable) :
    (s.twHeartReceive rx tables).cyc.beat = s.cyc.beat := by
  simp [State.twHeartReceive]
@[simp] theorem State.heartbeatMiss_beat (s : State) :
    (s.heartbeatMiss).cyc.beat = s.cyc.beat := by
  simp [State.heartbeatMiss]
@[simp] theorem State.mirrorIn_beat (s : State) (m : Mirror) :
    (s.mirrorIn m).cyc.beat = s.cyc.beat := by
  simp [State.mirrorIn]
@[simp] theorem State.twDescReceive_beat (s : State) (rx : RxCell) :
    (s.twDescReceive rx).cyc.beat = s.cyc.beat := by
  simp only [State.twDescReceive]
  repeat' split
  all_goals simp_all
@[simp] theorem State.ownDigest_beat (s : State) (ctx : Nat) (c : Cell) :
    (s.ownDigest ctx c).cyc.beat = s.cyc.beat := by
  simp [State.ownDigest]
@[simp] theorem State.sendDigests_beat (s : State) :
    (s.sendDigests).cyc.beat = s.cyc.beat := by
  simp [State.sendDigests]
@[simp] theorem State.compareDigest_beat (s : State) (ctx : Nat) (theirs : W32) :
    (s.compareDigest ctx theirs).cyc.beat = s.cyc.beat := by
  unfold State.compareDigest
  repeat' split
  all_goals simp
@[simp] theorem State.copyDrawer_beat (s : State) (ctx : Nat) (w : Nat) (v : W24) :
    (s.copyDrawer ctx w v).cyc.beat = s.cyc.beat := by
  simp [State.copyDrawer]
@[simp] theorem State.twCopyReceive_beat (s : State) (rx : RxCell) (enabled : Bool) :
    (s.twCopyReceive rx enabled).cyc.beat = s.cyc.beat := by
  simp [State.twCopyReceive]
@[simp] theorem State.syncCopied_beat (s : State) :
    (s.syncCopied).cyc.beat = s.cyc.beat := by
  simp [State.syncCopied]
@[simp] theorem State.partnerGap_beat (s : State) :
    (s.partnerGap).cyc.beat = s.cyc.beat := by
  simp [State.partnerGap]
@[simp] theorem State.switchOver_beat (s : State) (claim : BitVec 8) :
    (s.switchOver claim).cyc.beat = s.cyc.beat := by
  simp [State.switchOver]
@[simp] theorem State.applySwitch_beat (s : State) :
    (s.applySwitch).cyc.beat = s.cyc.beat := by
  unfold State.applySwitch
  repeat' split
  all_goals simp
@[simp] theorem State.twinAtT0_beat (s : State) :
    (State.twinAtT0 s).cyc.beat = s.cyc.beat := by
  simp [State.twinAtT0]
@[simp] theorem applyTwinSwitch_beat (x : Desc) (c : Option Cmd) (s : State) :
    (applyTwinSwitch x c s).cyc.beat = s.cyc.beat := by
  simp [applyTwinSwitch]
@[simp] theorem applyTwinClaim_beat (d : Desc) (c : Option Cmd) (s : State) :
    (applyTwinClaim d c s).cyc.beat = s.cyc.beat := by
  simp [applyTwinClaim]
@[simp] theorem applyTwinRejoin_beat (x : Desc) (c : Option Cmd) (s : State) :
    (applyTwinRejoin x c s).cyc.beat = s.cyc.beat := by
  simp [applyTwinRejoin]
@[simp] theorem State.noteMix_beat (s : State) :
    (s.noteMix).cyc.beat = s.cyc.beat := by
  simp [State.noteMix]
@[simp] theorem State.mixPoll_beat (s : State) :
    (s.mixPoll).cyc.beat = s.cyc.beat := by
  simp [State.mixPoll]
@[simp] theorem State.mixCount_beat (s : State) (r : Nat) (n : Nat) (v : W32) :
    (s.mixCount r n v).cyc.beat = s.cyc.beat := by
  simp [State.mixCount]
@[simp] theorem State.mixSlots_beat (s : State) (r : Nat) (n : Nat) (v : W32) :
    (s.mixSlots r n v).cyc.beat = s.cyc.beat := by
  simp [State.mixSlots]
@[simp] theorem State.enableRefused_beat (s : State) (m : Nat) :
    (s.enableRefused m).cyc.beat = s.cyc.beat := by
  simp [State.enableRefused]
@[simp] theorem State.pwmTrip_beat (s : State) (m : Nat) :
    (s.pwmTrip m).cyc.beat = s.cyc.beat := by
  simp [State.pwmTrip]
@[simp] theorem State.tripAll_beat (s : State) :
    (s.tripAll).cyc.beat = s.cyc.beat := by
  simp [State.tripAll]
@[simp] theorem State.landDuty_beat (s : State) (m : Nat) (ws : List W24) :
    (s.landDuty m ws).cyc.beat = s.cyc.beat := by
  unfold State.landDuty
  repeat' split
  all_goals simp
@[simp] theorem State.reload_beat (s : State) (m : Nat) (t : Rat) :
    (s.reload m t).1.cyc.beat = s.cyc.beat := by
  simp [State.reload]
@[simp] theorem State.satCarry_beat (s : State) (m : Nat) (k : Nat) (p : PwmPhase) (arg : Int) :
    (s.satCarry m k p arg).cyc.beat = s.cyc.beat := by
  simp [State.satCarry]
@[simp] theorem State.decideZero_beat (s : State) (m : Nat) (k : Nat) :
    (s.decideZero m k).cyc.beat = s.cyc.beat := by
  simp [State.decideZero]
@[simp] theorem State.decideCentre_beat (s : State) (m : Nat) (k : Nat) :
    (s.decideCentre m k).cyc.beat = s.cyc.beat := by
  simp [State.decideCentre]
@[simp] theorem State.beginPeriod_beat (s : State) (m : Nat) (t : Rat) :
    (s.beginPeriod m t).cyc.beat = s.cyc.beat := by
  simp [State.beginPeriod]
@[simp] theorem State.pwmCentre_beat (s : State) (m : Fin 8) :
    (s.pwmCentre m).cyc.beat = s.cyc.beat := by
  simp [State.pwmCentre]
@[simp] theorem State.pwmSync_beat (s : State) (m : Nat) (now : Rat) :
    (s.pwmSync m now).cyc.beat = s.cyc.beat := by
  simp [State.pwmSync]
@[simp] theorem State.pwmEnter_beat (s : State) (m : Nat) :
    (s.pwmEnter m).cyc.beat = s.cyc.beat := by
  simp [State.pwmEnter]
@[simp] theorem State.pwmEnters_beat (s : State) :
    (s.pwmEnters).cyc.beat = s.cyc.beat := by
  simp [State.pwmEnters]
@[simp] theorem State.pwmHinge_beat (s : State) :
    (s.pwmHinge).cyc.beat = s.cyc.beat := by
  simp [State.pwmHinge]
@[simp] theorem State.pwmFaultTrip_beat (s : State) (flt : BitVec 8) :
    (s.pwmFaultTrip flt).cyc.beat = s.cyc.beat := by
  simp [State.pwmFaultTrip]
@[simp] theorem State.pwmEnable_beat (s : State) :
    (s.pwmEnable).cyc.beat = s.cyc.beat := by
  simp [State.pwmEnable]
@[simp] theorem State.pwmDisable_beat (s : State) :
    (s.pwmDisable).cyc.beat = s.cyc.beat := by
  simp [State.pwmDisable]
@[simp] theorem State.fltLatchClear_beat (s : State) (v : W32) :
    (s.fltLatchClear v).cyc.beat = s.cyc.beat := by
  simp [State.fltLatchClear]
@[simp] theorem State.pwmLatch_beat (s : State) (v : W32) :
    (s.pwmLatch v).cyc.beat = s.cyc.beat := by
  simp [State.pwmLatch]
@[simp] theorem State.supersede_beat (s : State) (c : Nat) :
    (s.supersede c).cyc.beat = s.cyc.beat := by
  simp [State.supersede]
@[simp] theorem State.begin_beat (s : State) (c : Nat) (m : AxMode) (pl : Plan) (cmd : Option Cmd) :
    (s.begin c m pl cmd).cyc.beat = s.cyc.beat := by
  simp [State.begin]
@[simp] theorem State.enter_beat (s : State) (c : Nat) (m : AxMode) (cmd : Option Cmd) :
    (s.enter c m cmd).cyc.beat = s.cyc.beat := by
  simp [State.enter]
@[simp] theorem State.clearNotches_beat (s : State) (c : Nat) :
    (s.clearNotches c).cyc.beat = s.cyc.beat := by
  simp [State.clearNotches]
@[simp] theorem State.initLaw_beat (s : State) (c : Nat) :
    (s.initLaw c).cyc.beat = s.cyc.beat := by
  simp [State.initLaw]
@[simp] theorem State.leaveGroup_beat (s : State) (c : Nat) :
    (s.leaveGroup c).cyc.beat = s.cyc.beat := by
  unfold State.leaveGroup
  repeat' split
  all_goals simp
@[simp] theorem State.enableAxis_beat (s : State) (c : Nat) :
    (s.enableAxis c).cyc.beat = s.cyc.beat := by
  simp [State.enableAxis]
@[simp] theorem applyAxEnable_beat (d : Desc) (cmd : Option Cmd) (s : State) :
    (applyAxEnable d cmd s).cyc.beat = s.cyc.beat := by
  simp [applyAxEnable]
@[simp] theorem State.move_beat (s : State) (c : Nat) (d : Desc) (cmd : Option Cmd) (k : Kin) (t : Int) :
    (s.move c d cmd k t).cyc.beat = s.cyc.beat := by
  unfold State.move
  repeat' split
  all_goals simp
@[simp] theorem State.moveVel_beat (s : State) (c : Nat) (d : Desc) (cmd : Option Cmd) (k : Kin) (t : Int) :
    (s.moveVel c d cmd k t).cyc.beat = s.cyc.beat := by
  rw [State.moveVel]
  split
  · simp
  · extract_lets
    split <;> simp
@[simp] theorem State.moveCam_beat (s : State) (c : Nat) (d : Desc) (cmd : Option Cmd) (k : Kin) (t : Int) :
    (s.moveCam c d cmd k t).cyc.beat = s.cyc.beat := by
  simp [State.moveCam]
@[simp] theorem State.hold_beat (s : State) (c : Nat) (op : BitVec 8) (d : Desc) (cmd : Option Cmd) :
    (s.hold c op d cmd).cyc.beat = s.cyc.beat := by
  unfold State.hold
  repeat' split
  all_goals simp
@[simp] theorem State.moveOrHold_beat (s : State) (op : BitVec 8) (d : Desc) (cmd : Option Cmd)
    (go : Nat → Desc → Option Cmd → Kin → Int → State)
    (hg : ∀ a b c d e, (go a b c d e).cyc.beat = s.cyc.beat) :
    (s.moveOrHold op d cmd go).cyc.beat = s.cyc.beat := by
  simp only [State.moveOrHold]
  split
  · simp
  · split
    · simp
    · exact hg _ _ _ _ _
@[simp] theorem applyAxMove_beat (d : Desc) (cmd : Option Cmd) (s : State) :
    (applyAxMove d cmd s).cyc.beat = s.cyc.beat := by
  simp [applyAxMove]
@[simp] theorem applyAxVel_beat (d : Desc) (cmd : Option Cmd) (s : State) :
    (applyAxVel d cmd s).cyc.beat = s.cyc.beat := by
  simp [applyAxVel]
@[simp] theorem applyAxCam_beat (d : Desc) (cmd : Option Cmd) (s : State) :
    (applyAxCam d cmd s).cyc.beat = s.cyc.beat := by
  simp [applyAxCam]
@[simp] theorem applyAxPvt_beat (d : Desc) (cmd : Option Cmd) (s : State) :
    (applyAxPvt d cmd s).cyc.beat = s.cyc.beat := by
  simp only [applyAxPvt]
  repeat' split
  all_goals simp_all
@[simp] theorem applyAxStep_beat (d : Desc) (cmd : Option Cmd) (s : State) :
    (applyAxStep d cmd s).cyc.beat = s.cyc.beat := by
  simp only [applyAxStep]
  repeat' split
  all_goals simp_all
@[simp] theorem applyAxGear_beat (d : Desc) (cmd : Option Cmd) (s : State) :
    (applyAxGear d cmd s).cyc.beat = s.cyc.beat := by
  simp only [applyAxGear]
  repeat' split
  all_goals simp_all
@[simp] theorem applyAxStop_beat (d : Desc) (cmd : Option Cmd) (s : State) :
    (applyAxStop d cmd s).cyc.beat = s.cyc.beat := by
  simp only [applyAxStop]
  repeat' split
  all_goals simp_all
@[simp] theorem applyHmStart_beat (d : Desc) (cmd : Option Cmd) (s : State) :
    (applyHmStart d cmd s).cyc.beat = s.cyc.beat := by
  simp only [applyHmStart]
  repeat' split
  all_goals simp_all
@[simp] theorem applyHmSet_beat (d : Desc) (cmd : Option Cmd) (s : State) :
    (applyHmSet d cmd s).cyc.beat = s.cyc.beat := by
  simp only [applyHmSet]
  repeat' split
  all_goals simp_all
@[simp] theorem applyLimClear_beat (d : Desc) (cmd : Option Cmd) (s : State) :
    (applyLimClear d cmd s).cyc.beat = s.cyc.beat := by
  simp only [applyLimClear]
  repeat' split
  all_goals simp_all
@[simp] theorem applyCtLoad_beat (d : Desc) (cmd : Option Cmd) (s : State) :
    (applyCtLoad d cmd s).cyc.beat = s.cyc.beat := by
  simp [applyCtLoad]
@[simp] theorem applyCtCommit_beat (d : Desc) (cmd : Option Cmd) (s : State) :
    (applyCtCommit d cmd s).cyc.beat = s.cyc.beat := by
  simp [applyCtCommit]
@[simp] theorem applyVmSet_beat (d : Desc) (cmd : Option Cmd) (s : State) :
    (applyVmSet d cmd s).cyc.beat = s.cyc.beat := by
  simp [applyVmSet]
@[simp] theorem State.drawerUe_beat (s : State) (c : Nat) (w : Nat) :
    (s.drawerUe c w).cyc.beat = s.cyc.beat := by
  unfold State.drawerUe
  repeat' split
  all_goals simp
@[simp] theorem State.drawerBad_beat (s : State) (c : Nat) (w : Nat) :
    (s.drawerBad c w).cyc.beat = s.cyc.beat := by
  simp [State.drawerBad]
@[simp] theorem State.foundMarked_beat (s : State) (c : Nat) :
    (s.foundMarked c).cyc.beat = s.cyc.beat := by
  unfold State.foundMarked
  repeat' split
  all_goals simp
@[simp] theorem State.evict_beat (s : State) (e : Nat) (k : Nat) :
    (s.evict e k).cyc.beat = s.cyc.beat := by
  simp [State.evict]
@[simp] theorem State.bringDrawer_beat (s : State) (c : Nat) (e : Nat) :
    (s.bringDrawer c e).1.cyc.beat = s.cyc.beat := by
  unfold State.bringDrawer
  repeat' split
  all_goals simp
@[simp] theorem State.flagsSeen_beat (s : State) (c : Nat) :
    (s.flagsSeen c).cyc.beat = s.cyc.beat := by
  simp [State.flagsSeen]
@[simp] theorem State.dispatchTo_beat (s : State) (e : Nat) (k : Nat) (c : Nat) (i : Nat) (x : StageRun) (ecc : Option (Fin 1024)) :
    (s.dispatchTo e k c i x ecc).cyc.beat = s.cyc.beat := by
  simp [State.dispatchTo]
@[simp] theorem State.readyOnCredit_beat (s : State) (c : Nat) (i : Nat) :
    (s.readyOnCredit c i).cyc.beat = s.cyc.beat := by
  unfold State.readyOnCredit
  repeat' split
  all_goals simp
@[simp] theorem State.shelfCredit_beat (s : State) :
    (s.shelfCredit).cyc.beat = s.cyc.beat := by
  simp [State.shelfCredit]
@[simp] theorem State.markTok_beat (s : State) (c : Nat) (j : Nat) :
    (s.markTok c j).cyc.beat = s.cyc.beat := by
  unfold State.markTok
  repeat' split
  all_goals simp
@[simp] theorem State.waive_beat (s : State) (c : Nat) (i : Nat) :
    (s.waive c i).cyc.beat = s.cyc.beat := by
  unfold State.waive
  repeat' split
  all_goals simp
@[simp] theorem State.settle_beat (s : State) (c : Nat) (i : Nat) :
    (s.settle c i).cyc.beat = s.cyc.beat := by
  unfold State.settle
  repeat' split
  all_goals simp
@[simp] theorem State.cancelRun_beat (s : State) (c : Nat) :
    (s.cancelRun c).cyc.beat = s.cyc.beat := by
  unfold State.cancelRun
  repeat' split
  all_goals simp
@[simp] theorem State.tokLatch_beat (s : State) :
    (s.tokLatch).cyc.beat = s.cyc.beat := by
  simp [State.tokLatch]
@[simp] theorem State.assignHome_beat (s : State) (c : Nat) :
    (s.assignHome c).cyc.beat = s.cyc.beat := by
  simp only [State.assignHome]
  repeat' split
  all_goals simp_all
@[simp] theorem State.countWindow_beat (s : State) :
    (s.countWindow).cyc.beat = s.cyc.beat := by
  simp [State.countWindow]
@[simp] theorem State.planMoves_beat (s : State) (plan : List (List Move)) (h : Nat) (diff : Nat) :
    (s.planMoves plan h diff).cyc.beat = s.cyc.beat := by
  simp [State.planMoves]
@[simp] theorem State.compareLoads_beat (s : State) (plan : List (List Move)) :
    (s.compareLoads plan).cyc.beat = s.cyc.beat := by
  unfold State.compareLoads
  repeat' split
  all_goals simp
@[simp] theorem State.wakeCluster_beat (s : State) :
    (s.wakeCluster).cyc.beat = s.cyc.beat := by
  unfold State.wakeCluster
  repeat' split
  all_goals simp
@[simp] theorem State.placement_beat (s : State) (plan : List (List Move)) (empty : Option Nat) :
    (s.placement plan empty).cyc.beat = s.cyc.beat := by
  unfold State.placement
  repeat' split
  all_goals simp
@[simp] theorem State.migrate_beat (s : State) (m : Move) :
    (s.migrate m).cyc.beat = s.cyc.beat := by
  simp [State.migrate]
@[simp] theorem State.dropSegs_beat (s : State) (g : Nat) (st : BitVec 16) :
    (s.dropSegs g st).cyc.beat = s.cyc.beat := by
  simp [State.dropSegs]
@[simp] theorem State.toRest_beat (s : State) (c : Nat) (rest : AxMode) (move : AxMode) (g : Option Nat) :
    (s.toRest c rest move g).cyc.beat = s.cyc.beat := by
  simp [State.toRest]
@[simp] theorem State.release_beat (s : State) (c : Nat) :
    (s.release c).cyc.beat = s.cyc.beat := by
  simp [State.release]
@[simp] theorem State.joinGroup_beat (s : State) (g : Nat) (c : Nat) :
    (s.joinGroup g c).cyc.beat = s.cyc.beat := by
  simp [State.joinGroup]
@[simp] theorem applyGrpDefine_beat (d : Desc) (cmd : Option Cmd) (s : State) :
    (applyGrpDefine d cmd s).cyc.beat = s.cyc.beat := by
  simp [applyGrpDefine]
@[simp] theorem State.startPath_beat (s : State) (g : Nat) (t : Int) :
    (s.startPath g t).cyc.beat = s.cyc.beat := by
  simp [State.startPath]
@[simp] theorem State.stopPath_beat (s : State) (g : Nat) (st : GrpSt) :
    (s.stopPath g st).cyc.beat = s.cyc.beat := by
  simp [State.stopPath]
@[simp] theorem State.passSegs_beat (a : Nat) (u1 : State) (u2 : Nat) (u3 : Kin) (u4 : Bool) :
    (State.passSegs a u1 u2 u3 u4).cyc.beat = u1.cyc.beat := by
  induction a generalizing u1 u2 u3 u4 with
  | zero => rfl
  | succ n ih =>
    simp only [State.passSegs]
    repeat' split
    all_goals simp [ih]
@[simp] theorem State.moveMembers_beat (s : State) (g : Nat) (k : Kin) :
    (s.moveMembers g k).cyc.beat = s.cyc.beat := by
  simp only [State.moveMembers]
  repeat' split
  all_goals simp_all
@[simp] theorem State.capPath_beat (s : State) (g : Nat) :
    (s.capPath g).cyc.beat = s.cyc.beat := by
  simp only [State.capPath]
  repeat' split
  all_goals simp_all
@[simp] theorem State.groupRun_beat (s : State) (g : Nat) :
    (s.groupRun g).cyc.beat = s.cyc.beat := by
  simp only [State.groupRun]
  repeat' split
  all_goals simp_all
@[simp] theorem State.queueSeg_beat (s : State) (g : Nat) (q : Seg) :
    (s.queueSeg g q).cyc.beat = s.cyc.beat := by
  simp only [State.queueSeg]
  repeat' split
  all_goals simp_all
@[simp] theorem State.openSeg_beat (s : State) (g : Nat) (sq : BitVec 6) (q : Seg) :
    (s.openSeg g sq q).cyc.beat = s.cyc.beat := by
  simp only [State.openSeg]
  repeat' split
  all_goals simp_all
@[simp] theorem applyGrpLine_beat (d : Desc) (cmd : Option Cmd) (s : State) :
    (applyGrpLine d cmd s).cyc.beat = s.cyc.beat := by
  simp [applyGrpLine]
@[simp] theorem applyGrpArc_beat (d : Desc) (cmd : Option Cmd) (s : State) :
    (applyGrpArc d cmd s).cyc.beat = s.cyc.beat := by
  simp [applyGrpArc]
@[simp] theorem applyGrpPos_beat (d : Desc) (cmd : Option Cmd) (s : State) :
    (applyGrpPos d cmd s).cyc.beat = s.cyc.beat := by
  simp only [applyGrpPos]
  repeat' split
  all_goals simp_all
@[simp] theorem applyGrpHold_beat (d : Desc) (cmd : Option Cmd) (s : State) :
    (applyGrpHold d cmd s).cyc.beat = s.cyc.beat := by
  simp only [applyGrpHold]
  repeat' split
  all_goals simp_all
@[simp] theorem applyGrpResume_beat (d : Desc) (cmd : Option Cmd) (s : State) :
    (applyGrpResume d cmd s).cyc.beat = s.cyc.beat := by
  simp only [applyGrpResume]
  repeat' split
  all_goals simp_all
@[simp] theorem State.flushGroup_beat (s : State) (g : Nat) :
    (s.flushGroup g).cyc.beat = s.cyc.beat := by
  simp [State.flushGroup]
@[simp] theorem applyGrpFlush_beat (d : Desc) (cmd : Option Cmd) (s : State) :
    (applyGrpFlush d cmd s).cyc.beat = s.cyc.beat := by
  simp [applyGrpFlush]
@[simp] theorem State.setGuard_beat (s : State) (b : Bool) (g : Guard) :
    (s.setGuard b g).cyc.beat = s.cyc.beat := by
  simp [State.setGuard]
@[simp] theorem State.putSw_beat (s : State) (b : Bool) (n : Nat) (x : BrkSw) :
    (s.putSw b n x).cyc.beat = s.cyc.beat := by
  simp [State.putSw]
@[simp] theorem State.driveBrakes_beat (s : State) :
    (s.driveBrakes).cyc.beat = s.cyc.beat := by
  simp [State.driveBrakes]
@[simp] theorem State.putMap2_beat (s : State) (v : W32) (st : W32) :
    (State.putMap2 s v st).cyc.beat = s.cyc.beat := by
  simp [State.putMap2]
@[simp] theorem State.mapToEn_beat (s : State) :
    (s.mapToEn).cyc.beat = s.cyc.beat := by
  simp [State.mapToEn]
@[simp] theorem State.putDemands_beat (s : State) :
    (s.putDemands).cyc.beat = s.cyc.beat := by
  simp [State.putDemands]
@[simp] theorem State.driveTo_beat (s : State) :
    (s.driveTo).cyc.beat = s.cyc.beat := by
  simp [State.driveTo]
@[simp] theorem State.engaged_beat (s : State) (c : Nat) :
    (s.engaged c).cyc.beat = s.cyc.beat := by
  simp [State.engaged]
@[simp] theorem State.setGrants_beat (s : State) (b : Bool) (grants : List Nat) (blocked : List Nat) :
    (s.setGrants b grants blocked).cyc.beat = s.cyc.beat := by
  simp [State.setGrants]
@[simp] theorem State.regrant_beat (s : State) (b : Bool) :
    (s.regrant b).cyc.beat = s.cyc.beat := by
  simp [State.regrant]
@[simp] theorem State.logGuard_beat (s : State) (b : Bool) (sealed_ : Bool) (op : Nat) (id : Nat) (v : W32) :
    (s.logGuard b sealed_ op id v).cyc.beat = s.cyc.beat := by
  simp [State.logGuard]
@[simp] theorem State.takeWrite_beat (s : State) (b : Bool) (w : GWrite) :
    (s.takeWrite b w).cyc.beat = s.cyc.beat := by
  simp [State.takeWrite]
@[simp] theorem State.takeWrites_beat (s : State) (b : Bool) :
    (s.takeWrites b).cyc.beat = s.cyc.beat := by
  simp [State.takeWrites]
@[simp] theorem State.sbtTorque_beat (s : State) (c : Nat) (t : Option Rat) :
    (s.sbtTorque c t).cyc.beat = s.cyc.beat := by
  simp [State.sbtTorque]
@[simp] theorem State.sbtFail_beat (s : State) :
    (s.sbtFail).cyc.beat = s.cyc.beat := by
  unfold State.sbtFail
  repeat' split
  all_goals simp
@[simp] theorem State.sbtCheck_beat (s : State) :
    (s.sbtCheck).cyc.beat = s.cyc.beat := by
  unfold State.sbtCheck
  repeat' split
  all_goals simp
@[simp] theorem State.guardMode_beat (s : State) (b : Bool) (t : GuardSt) :
    (s.guardMode b t).cyc.beat = s.cyc.beat := by
  simp [State.guardMode]
@[simp] theorem State.guardSeal_beat (s : State) (b : Bool) :
    (s.guardSeal b).cyc.beat = s.cyc.beat := by
  simp [State.guardSeal]
@[simp] theorem State.guardSafe_beat (s : State) (b : Bool) (cause : Nat) :
    (s.guardSafe b cause).cyc.beat = s.cyc.beat := by
  unfold State.guardSafe
  repeat' split
  all_goals simp
@[simp] theorem State.followSeals_beat (s : State) (b : Bool) :
    (s.followSeals b).cyc.beat = s.cyc.beat := by
  simp [State.followSeals]
@[simp] theorem State.sealChange_beat (s : State) (a : Bool) (b : Bool) :
    (s.sealChange a b).cyc.beat = s.cyc.beat := by
  simp [State.sealChange]
@[simp] theorem State.safeInputFilter_beat (s : State) (b : Bool) (k : Fin 8) (demand : Bool) :
    (s.safeInputFilter b k demand).cyc.beat = s.cyc.beat := by
  simp [State.safeInputFilter]
@[simp] theorem State.siDiscrepancy_beat (s : State) (k : Fin 8) :
    (s.siDiscrepancy k).cyc.beat = s.cyc.beat := by
  simp [State.siDiscrepancy]
@[simp] theorem State.swFault_beat (s : State) (b : Bool) (n : Nat) (bit : Nat) (code : BitVec 16) (present : Bool) :
    (s.swFault b n bit code present).cyc.beat = s.cyc.beat := by
  simp [State.swFault]
@[simp] theorem State.brakeOverload_beat (s : State) (present : Bool) :
    (s.brakeOverload present).cyc.beat = s.cyc.beat := by
  simp [State.brakeOverload]
@[simp] theorem State.judgePulse_beat (s : State) (b : Bool) (pass : Bool) :
    (s.judgePulse b pass).cyc.beat = s.cyc.beat := by
  simp [State.judgePulse]
@[simp] theorem State.checkMap_beat (s : State) (b : Bool) :
    (s.checkMap b).cyc.beat = s.cyc.beat := by
  simp [State.checkMap]
@[simp] theorem State.sendGuards_beat (s : State) :
    (s.sendGuards).cyc.beat = s.cyc.beat := by
  simp [State.sendGuards]
@[simp] theorem State.guardAtT0_beat (s : State) :
    (State.guardAtT0 s).cyc.beat = s.cyc.beat := by
  simp [State.guardAtT0]
@[simp] theorem State.guardPowerFail_beat (s : State) :
    (s.guardPowerFail).cyc.beat = s.cyc.beat := by
  simp [State.guardPowerFail]
@[simp] theorem State.setAcq_beat (s : State) (u : Nat) (x : AcqU) :
    (s.setAcq u x).cyc.beat = s.cyc.beat := by
  simp [State.setAcq]
@[simp] theorem State.takeRecs_beat (s : State) (u : Nat) (rs : List Rec) :
    (s.takeRecs u rs).1.cyc.beat = s.cyc.beat := by
  simp only [State.takeRecs]
  repeat' split
  all_goals simp_all
@[simp] theorem State.withholdRow_beat (s : State) (u : Nat) (at_ : W32) (n : Nat) :
    (s.withholdRow u at_ n).cyc.beat = s.cyc.beat := by
  simp [State.withholdRow]
@[simp] theorem State.writeRow_beat (s : State) (u : Nat) (dec : Bool) (at_ : W64) (vals : List (W24 × Bool)) :
    (s.writeRow u dec at_ vals).cyc.beat = s.cyc.beat := by
  simp [State.writeRow]
@[simp] theorem State.fireUnit_beat (s : State) (u : Nat) (f : Fire) :
    (s.fireUnit u f).cyc.beat = s.cyc.beat := by
  simp [State.fireUnit]
@[simp] theorem State.trigLow_beat (s : State) :
    (s.trigLow).cyc.beat = s.cyc.beat := by
  simp [State.trigLow]
@[simp] theorem State.detect_beat (s : State) (u : Nat) (f : Fire) :
    (s.detect u f).cyc.beat = s.cyc.beat := by
  simp only [State.detect]
  repeat' split
  all_goals simp_all
@[simp] theorem State.resolve_beat (s : State) (u : Nat) :
    (s.resolve u).cyc.beat = s.cyc.beat := by
  unfold State.resolve
  repeat' split
  all_goals simp
@[simp] theorem State.groupFire_beat (s : State) (g : Fire) (u : Nat) :
    (s.groupFire g u).cyc.beat = s.cyc.beat := by
  unfold State.groupFire
  repeat' split
  all_goals simp
@[simp] theorem State.resolveGroup_beat (s : State) (m : Nat) :
    (s.resolveGroup m).cyc.beat = s.cyc.beat := by
  simp only [State.resolveGroup]
  repeat' split
  all_goals simp_all
@[simp] theorem State.resolveGroups_beat (s : State) :
    (s.resolveGroups).cyc.beat = s.cyc.beat := by
  simp [State.resolveGroups]
@[simp] theorem State.levelRow_beat (s : State) (u : Nat) (k : Nat) (r : Row) :
    (s.levelRow u k r).cyc.beat = s.cyc.beat := by
  simp only [State.levelRow]
  repeat' split
  all_goals simp_all
@[simp] theorem State.triggers_beat (s : State) (u : Nat) (r : Row) :
    (s.triggers u r).cyc.beat = s.cyc.beat := by
  simp [State.triggers]
@[simp] theorem State.decRow_beat (s : State) (u : Nat) (r : Row) :
    (s.decRow u r).cyc.beat = s.cyc.beat := by
  simp [State.decRow]
@[simp] theorem State.acqRow_beat (s : State) (u : Nat) (r : Row) :
    (s.acqRow u r).cyc.beat = s.cyc.beat := by
  simp [State.acqRow]
@[simp] theorem State.sampleRows_beat (s : State) (lines : List (Nat × Bool)) :
    (s.sampleRows lines).cyc.beat = s.cyc.beat := by
  simp [State.sampleRows]
@[simp] theorem State.endRows_beat (s : State) :
    (s.endRows).cyc.beat = s.cyc.beat := by
  simp [State.endRows]
@[simp] theorem State.acqStage_beat (s : State) (u : Nat) :
    (s.acqStage u).cyc.beat = s.cyc.beat := by
  simp only [State.acqStage]
  repeat' split
  all_goals simp_all
@[simp] theorem applyAcqStart_beat (d : Desc) (cmd : Option Cmd) (s : State) :
    (applyAcqStart d cmd s).cyc.beat = s.cyc.beat := by
  simp [applyAcqStart]
@[simp] theorem applyAcqStop_beat (d : Desc) (cmd : Option Cmd) (s : State) :
    (applyAcqStop d cmd s).cyc.beat = s.cyc.beat := by
  simp [applyAcqStop]
@[simp] theorem applyAcqArm_beat (d : Desc) (cmd : Option Cmd) (s : State) :
    (applyAcqArm d cmd s).cyc.beat = s.cyc.beat := by
  simp [applyAcqArm]
@[simp] theorem applyAcqDisarm_beat (d : Desc) (cmd : Option Cmd) (s : State) :
    (applyAcqDisarm d cmd s).cyc.beat = s.cyc.beat := by
  simp [applyAcqDisarm]
@[simp] theorem applyAcqForce_beat (d : Desc) (cmd : Option Cmd) (s : State) :
    (applyAcqForce d cmd s).cyc.beat = s.cyc.beat := by
  simp [applyAcqForce]
@[simp] theorem State.acqEvent_beat (s : State) (u : Nat) (slot : Nat) (stamp : Nat) :
    (s.acqEvent u slot stamp).cyc.beat = s.cyc.beat := by
  simp [State.acqEvent]
@[simp] theorem State.trigIoPulseEnd_beat (s : State) :
    (s.trigIoPulseEnd).cyc.beat = s.cyc.beat := by
  unfold State.trigIoPulseEnd
  repeat' split
  all_goals simp
@[simp] theorem State.acqLatch_beat (s : State) (v : BitVec 32) :
    (s.acqLatch v).cyc.beat = s.cyc.beat := by
  simp [State.acqLatch]
@[simp] theorem State.schedule_beat (s : State) (k : Nat) (t : Int) (late : Bool) :
    (s.schedule k t late).cyc.beat = s.cyc.beat := by
  simp [State.schedule]
@[simp] theorem State.firstCheck_beat (s : State) (k : Nat) (v : Rat) (above : Bool) :
    (s.firstCheck k v above).1.cyc.beat = s.cyc.beat := by
  simp only [State.firstCheck]
  repeat' split
  all_goals simp_all
@[simp] theorem State.evalSlot_beat (s : State) (k : Nat) :
    (s.evalSlot k).cyc.beat = s.cyc.beat := by
  simp only [State.evalSlot]
  repeat' split
  all_goals simp_all
@[simp] theorem State.evalSlots_beat (s : State) (c : Nat) :
    (s.evalSlots c).cyc.beat = s.cyc.beat := by
  simp [State.evalSlots]
@[simp] theorem State.farSets_beat (s : State) (c : Nat) (i : Nat) :
    (s.farSets c i).cyc.beat = s.cyc.beat := by
  simp [State.farSets]
@[simp] theorem State.driveGo_beat (s : State) (n : Nat) :
    (s.driveGo n).cyc.beat = s.cyc.beat := by
  simp [State.driveGo]
@[simp] theorem State.effectGo_beat (s : State) (t : State) :
    (s.effectGo t).cyc.beat = t.cyc.beat := by
  simp [State.effectGo]
@[simp] theorem State.goPulse_beat (s : State) (k : Nat) (n : Nat) (until_ : W64) :
    (s.goPulse k n until_).cyc.beat = s.cyc.beat := by
  simp [State.goPulse]
@[simp] theorem State.goToggle_beat (s : State) (n : Nat) :
    (s.goToggle n).cyc.beat = s.cyc.beat := by
  simp [State.goToggle]
@[simp] theorem State.startHeld_beat (s : State) (c : Nat) (k : Nat) (t : Int) (cam : Bool) :
    (s.startHeld c k t cam).cyc.beat = s.cyc.beat := by
  simp only [State.startHeld]
  repeat' split
  all_goals simp_all
@[simp] theorem State.goEdge_beat (s : State) (g : GoEdge) :
    (s.goEdge g).cyc.beat = s.cyc.beat := by
  unfold State.goEdge
  repeat' split
  all_goals simp
@[simp] theorem State.fireAction_beat (s : State) (k : Nat) (e : Ev) (t : W64) :
    (s.fireAction k e t).cyc.beat = s.cyc.beat := by
  unfold State.fireAction
  repeat' split
  all_goals simp
@[simp] theorem State.fire_beat (s : State) (n : Nat) (e : Ev) (f : EvFire) :
    (s.fire n e f).cyc.beat = s.cyc.beat := by
  simp [State.fire]
@[simp] theorem State.edgeAfter_beat (s : State) (g : Option GoEdge) :
    (s.edgeAfter g).cyc.beat = s.cyc.beat := by
  unfold State.edgeAfter
  repeat' split
  all_goals simp
@[simp] theorem State.edgeNow_beat (s : State) (g : GoEdge) :
    (s.edgeNow g).cyc.beat = s.cyc.beat := by
  simp [State.edgeNow]
@[simp] theorem State.fireNow_beat (s : State) (n : Nat) (e : Ev) (f : EvFire) :
    (s.fireNow n e f).cyc.beat = s.cyc.beat := by
  unfold State.fireNow
  repeat' split
  all_goals simp
@[simp] theorem State.eventFire_beat (s : State) (n : Nat) :
    (s.eventFire n).cyc.beat = s.cyc.beat := by
  simp only [State.eventFire]
  repeat' split
  all_goals simp_all
@[simp] theorem applyEvArm_beat (d : Desc) (cmd : Option Cmd) (s : State) :
    (applyEvArm d cmd s).cyc.beat = s.cyc.beat := by
  simp [applyEvArm]
@[simp] theorem applyEvDisarm_beat (d : Desc) (cmd : Option Cmd) (s : State) :
    (applyEvDisarm d cmd s).cyc.beat = s.cyc.beat := by
  simp [applyEvDisarm]
@[simp] theorem State.ringErr_beat (s : State) (code : Nat) (kind : Nat) (n : Nat) :
    (s.ringErr code kind n).cyc.beat = s.cyc.beat := by
  simp [State.ringErr]
@[simp] theorem State.ringBusy_beat (s : State) (kind : Nat) (n : Nat) :
    (s.ringBusy kind n).cyc.beat = s.cyc.beat := by
  simp [State.ringBusy]
@[simp] theorem State.writeBase_beat (s : State) (r : Reg) (v : W32) :
    (s.writeBase r v).cyc.beat = s.cyc.beat := by
  simp [State.writeBase]
@[simp] theorem State.startRing_beat (s : State) (kind : Nat) (n : Nat) :
    (s.startRing kind n).cyc.beat = s.cyc.beat := by
  simp [State.startRing]
@[simp] theorem State.writeRingCfg_beat (s : State) (v : W32) :
    (s.writeRingCfg v).cyc.beat = s.cyc.beat := by
  simp [State.writeRingCfg]
@[simp] theorem State.ringOff_beat (s : State) (kind : Nat) (n : Nat) :
    (s.ringOff kind n).cyc.beat = s.cyc.beat := by
  simp [State.ringOff]
@[simp] theorem State.writeHostCtl_beat (s : State) (v : W32) :
    (s.writeHostCtl v).cyc.beat = s.cyc.beat := by
  simp [State.writeHostCtl]
@[simp] theorem State.hostLatch_beat (s : State) (v : BitVec 32) :
    (s.hostLatch v).cyc.beat = s.cyc.beat := by
  simp [State.hostLatch]
@[simp] theorem State.dbBad_beat (s : State) (kind : Nat) (n : Nat) (w : Nat) :
    (s.dbBad kind n w).cyc.beat = s.cyc.beat := by
  simp [State.dbBad]
@[simp] theorem State.judge_beat (s : State) (page : List (Nat × Byte)) (kind : Nat) (n : Nat) :
    (s.judge page kind n).cyc.beat = s.cyc.beat := by
  simp [State.judge]
@[simp] theorem State.seeAlive_beat (s : State) (v : W32) :
    (s.seeAlive v).cyc.beat = s.cyc.beat := by
  simp [State.seeAlive]
@[simp] theorem State.fetchOne_beat (s : State) (n : Nat) (r : RawDesc) :
    (s.fetchOne n r).cyc.beat = s.cyc.beat := by
  simp only [State.fetchOne]
  repeat' split
  all_goals simp_all
@[simp] theorem State.fetchTurn_beat (s : State) (descs : List (Nat × RawDesc)) :
    (s.fetchTurn descs).cyc.beat = s.cyc.beat := by
  simp [State.fetchTurn]
@[simp] theorem State.fetchTurns_beat (a : Nat) (u1 : State) (u2 : List (Nat × RawDesc)) :
    (State.fetchTurns a u1 u2).cyc.beat = u1.cyc.beat := by
  induction a generalizing u1 with
  | zero => rfl
  | succ n ih =>
    unfold State.fetchTurns
    split <;> simp [ih]
@[simp] theorem State.writeHeads_beat (s : State) :
    (s.writeHeads).cyc.beat = s.cyc.beat := by
  simp [State.writeHeads]
@[simp] theorem State.doorbellPoll_beat (s : State) (page : List (Nat × BitVec 8)) (descs : List (Nat × RawDesc)) :
    (s.doorbellPoll page descs).cyc.beat = s.cyc.beat := by
  simp [State.doorbellPoll]
@[simp] theorem State.cqSignal_beat (s : State) (n : Nat) :
    (s.cqSignal n).cyc.beat = s.cyc.beat := by
  simp [State.cqSignal]
@[simp] theorem State.countWritten_beat (s : State) (e : CqEntry) :
    (s.countWritten e).cyc.beat = s.cyc.beat := by
  simp [State.countWritten]
@[simp] theorem State.countDiscard_beat (s : State) (e : CqEntry) :
    (s.countDiscard e).cyc.beat = s.cyc.beat := by
  simp [State.countDiscard]
@[simp] theorem State.msixFlush_beat (s : State) :
    (s.msixFlush).cyc.beat = s.cyc.beat := by
  simp [State.msixFlush]
@[simp] theorem State.msixUnmask_beat (s : State) (v : Fin 64) :
    (s.msixUnmask v).cyc.beat = s.cyc.beat := by
  simp [State.msixUnmask]
@[simp] theorem State.dmaError_beat (s : State) (kind : Fin 4) (n : Fin 64) (entry : Bool) :
    (s.dmaError kind n entry).cyc.beat = s.cyc.beat := by
  simp only [State.dmaError]
  repeat' split
  all_goals simp_all
@[simp] theorem State.bar2Write_beat (s : State) (a : BitVec 24) (v : BitVec 32) :
    (State.bar2Write s a v).cyc.beat = s.cyc.beat := by
  simp [State.bar2Write]
@[simp] theorem State.configRequest_beat (s : State) (q : CfgReq) :
    (s.configRequest q).cyc.beat = s.cyc.beat := by
  unfold State.configRequest
  repeat' split
  all_goals simp
@[simp] theorem applyNop_beat (x : Desc) (cmd : Option Cmd) (s : State) :
    (applyNop x cmd s).cyc.beat = s.cyc.beat := by
  simp [applyNop]
@[simp] theorem applyFwWrite_beat (d : Desc) (cmd : Option Cmd) (s : State) :
    (applyFwWrite d cmd s).cyc.beat = s.cyc.beat := by
  simp [applyFwWrite]
@[simp] theorem applyFwVerify_beat (x : Desc) (cmd : Option Cmd) (s : State) :
    (applyFwVerify x cmd s).cyc.beat = s.cyc.beat := by
  simp [applyFwVerify]
@[simp] theorem applyFwActivate_beat (x : Desc) (cmd : Option Cmd) (s : State) :
    (applyFwActivate x cmd s).cyc.beat = s.cyc.beat := by
  simp [applyFwActivate]
@[simp] theorem applyFwInfo_beat (x : Desc) (cmd : Option Cmd) (s : State) :
    (applyFwInfo x cmd s).cyc.beat = s.cyc.beat := by
  simp [applyFwInfo]
@[simp] theorem applyLpLoad_beat (d : Desc) (cmd : Option Cmd) (s : State) :
    (applyLpLoad d cmd s).cyc.beat = s.cyc.beat := by
  simp [applyLpLoad]
@[simp] theorem applyLpCommit_beat (d : Desc) (cmd : Option Cmd) (s : State) :
    (applyLpCommit d cmd s).cyc.beat = s.cyc.beat := by
  simp [applyLpCommit]
@[simp] theorem State.chestFail_beat (s : State) (k : Nat) (cause : Nat) :
    (s.chestFail k cause).cyc.beat = s.cyc.beat := by
  simp [State.chestFail]
@[simp] theorem State.chestCheck_beat (s : State) (k : Nat) (retire : Nat) (fault : Bool) :
    (s.chestCheck k retire fault).cyc.beat = s.cyc.beat := by
  simp [State.chestCheck]
@[simp] theorem State.startEntry_beat (s : State) (cause : Nat) (pages : List Nat) (cmds : List Cmd) :
    (s.startEntry cause pages cmds).cyc.beat = s.cyc.beat := by
  simp [State.startEntry]
@[simp] theorem State.nextEntry_beat (s : State) (cause : Nat) (cmds : List Cmd) :
    (s.nextEntry cause cmds).cyc.beat = s.cyc.beat := by
  simp [State.nextEntry]
@[simp] theorem State.abandonFlush_beat (s : State) :
    (s.abandonFlush).cyc.beat = s.cyc.beat := by
  unfold State.abandonFlush
  repeat' split
  all_goals simp
@[simp] theorem State.powerFlush_beat (s : State) (cause : Nat) :
    (s.powerFlush cause).cyc.beat = s.cyc.beat := by
  simp [State.powerFlush]
@[simp] theorem State.flushStart_beat (s : State) :
    (s.flushStart).cyc.beat = s.cyc.beat := by
  unfold State.flushStart
  repeat' split
  all_goals simp
@[simp] theorem State.commitEntry_beat (s : State) (f : Flush) :
    (s.commitEntry f).cyc.beat = s.cyc.beat := by
  simp [State.commitEntry]
@[simp] theorem State.enterHold_beat (s : State) :
    (s.enterHold).cyc.beat = s.cyc.beat := by
  simp [State.enterHold]
@[simp] theorem State.flushCommit_beat (s : State) (retire0 : Nat) (retire1 : Nat) (fault0 : Bool) (fault1 : Bool) :
    (s.flushCommit retire0 retire1 fault0 fault1).cyc.beat = s.cyc.beat := by
  unfold State.flushCommit
  repeat' split
  all_goals simp
@[simp] theorem State.opMinuteTick_beat (s : State) :
    (s.opMinuteTick).cyc.beat = s.cyc.beat := by
  simp [State.opMinuteTick]
@[simp] theorem State.extreme_beat (s : State) (off : Nat) (v : W32) (first : Bool) (better : Bool) :
    (s.extreme off v first better).cyc.beat = s.cyc.beat := by
  simp [State.extreme]
@[simp] theorem State.vinTaken_beat (s : State) (vin : BitVec 16) :
    (s.vinTaken vin).cyc.beat = s.cyc.beat := by
  simp [State.vinTaken]
@[simp] theorem State.loadMax_beat (s : State) :
    (s.loadMax).cyc.beat = s.cyc.beat := by
  simp [State.loadMax]
@[simp] theorem State.countCauses_beat (s : State) :
    (s.countCauses).cyc.beat = s.cyc.beat := by
  simp [State.countCauses]
@[simp] theorem State.rebuild_beat (s : State) (a : Chest) (b : Chest) :
    (s.rebuild a b).cyc.beat = s.cyc.beat := by
  simp [State.rebuild]
@[simp] theorem State.restoreTime_beat (s : State) :
    (s.restoreTime).cyc.beat = s.cyc.beat := by
  simp [State.restoreTime]
@[simp] theorem State.reportRecovery_beat (s : State) (a : Chest) (b : Chest) (lost : List Nat) (top : Nat) :
    (s.reportRecovery a b lost top).cyc.beat = s.cyc.beat := by
  simp [State.reportRecovery]
@[simp] theorem State.recRecovery_beat (s : State) (bad0 : List Nat) (bad1 : List Nat) (fault0 : Bool) (fault1 : Bool) :
    (s.recRecovery bad0 bad1 fault0 fault1).cyc.beat = s.cyc.beat := by
  simp [State.recRecovery]
@[simp] theorem applyRecFlush_beat (x : Desc) (cmd : Option Cmd) (s : State) :
    (applyRecFlush x cmd s).cyc.beat = s.cyc.beat := by
  simp [applyRecFlush]
@[simp] theorem applyRecRead_beat (d : Desc) (cmd : Option Cmd) (s : State) :
    (applyRecRead d cmd s).cyc.beat = s.cyc.beat := by
  unfold applyRecRead
  repeat' split
  all_goals simp
@[simp] theorem State.histBump_beat (s : State) (n : Nat) (base : Nat) (bin : Nat) :
    (s.histBump n base bin).cyc.beat = s.cyc.beat := by
  simp [State.histBump]
@[simp] theorem State.axExtreme_beat (s : State) (n : Nat) (off : Nat) (v : W32) :
    (s.axExtreme n off v).cyc.beat = s.cyc.beat := by
  simp [State.axExtreme]
@[simp] theorem State.recordRun_beat (s : State) (n : Nat) (ep : Nat) (i : Rat) (v : Rat) (rated : Rat) :
    (s.recordRun n ep i v rated).cyc.beat = s.cyc.beat := by
  simp [State.recordRun]
@[simp] theorem State.setLaw_beat (s : State) (c : Nat) (l : Law) :
    (s.setLaw c l).cyc.beat = s.cyc.beat := by
  simp [State.setLaw]
@[simp] theorem State.setPh_beat (s : State) (c : Nat) (vs : List (Nat × W24)) :
    (s.setPh c vs).cyc.beat = s.cyc.beat := by
  simp [State.setPh]
@[simp] theorem State.lawFeedback_beat (s : State) (c : Nat) :
    (s.lawFeedback c).cyc.beat = s.cyc.beat := by
  simp [State.lawFeedback]
@[simp] theorem State.lawObserver_beat (s : State) (c : Nat) :
    (s.lawObserver c).cyc.beat = s.cyc.beat := by
  simp [State.lawObserver]
@[simp] theorem State.notch_beat (s : State) (c : Nat) (n : Nat) (x : Rat) :
    (s.notch c n x).1.cyc.beat = s.cyc.beat := by
  simp only [State.notch]
  repeat' split
  all_goals simp_all
@[simp] theorem State.notchChain_beat (s : State) (c : Nat) (x : Rat) :
    (s.notchChain c x).1.cyc.beat = s.cyc.beat := by
  simp [State.notchChain]
@[simp] theorem State.notchCoefs_beat (s : State) (c : Nat) (n : Nat) :
    (s.notchCoefs c n).cyc.beat = s.cyc.beat := by
  simp [State.notchCoefs]
@[simp] theorem State.cascadePh_beat (s : State) (c : Nat) (v : Rat) (a : Rat) :
    (s.cascadePh c v a).cyc.beat = s.cyc.beat := by
  simp [State.cascadePh]
@[simp] theorem State.loops_beat (s : State) (c : Nat) (k : Kin) :
    (s.loops c k).cyc.beat = s.cyc.beat := by
  simp [State.loops]
@[simp] theorem State.writeMode_beat (s : State) (c : Nat) :
    (s.writeMode c).cyc.beat = s.cyc.beat := by
  simp [State.writeMode]
@[simp] theorem State.markRan_beat (s : State) (c : Nat) :
    (s.markRan c).cyc.beat = s.cyc.beat := by
  simp [State.markRan]
@[simp] theorem State.lawCascade_beat (s : State) (c : Nat) :
    (s.lawCascade c).cyc.beat = s.cyc.beat := by
  simp [State.lawCascade]
@[simp] theorem State.lawFault_beat (s : State) (c : Nat) (i : Nat) (bit : Nat) (code : BitVec 16) (sev : Sev) (pay : optParam Payload 0) :
    (s.lawFault c i bit code sev pay).cyc.beat = s.cyc.beat := by
  simp only [State.lawFault]
  repeat' split
  all_goals simp_all
@[simp] theorem State.currentTrips_beat (s : State) (c : Nat) (i : Nat) (vsn : Nat) (oc : Nat) (cs : Nat) :
    (s.currentTrips c i vsn oc cs).cyc.beat = s.cyc.beat := by
  simp [State.currentTrips]
@[simp] theorem State.lawCurrent_beat (s : State) (c : Nat) (i : Nat) :
    (s.lawCurrent c i).cyc.beat = s.cyc.beat := by
  simp [State.lawCurrent]
@[simp] theorem State.lawEmit_beat (s : State) (c : Nat) (i : Nat) :
    (s.lawEmit c i).cyc.beat = s.cyc.beat := by
  unfold State.lawEmit
  repeat' split
  all_goals simp
@[simp] theorem State.checkLoops_beat (s : State) (c : Nat) (i : Nat) (a : Asks) :
    (s.checkLoops c i a).1.cyc.beat = s.cyc.beat := by
  simp [State.checkLoops]
@[simp] theorem State.checkPlausible_beat (s : State) (c : Nat) (i : Nat) (a : Asks) :
    (s.checkPlausible c i a).1.cyc.beat = s.cyc.beat := by
  unfold State.checkPlausible
  dsimp only
  split <;> simp
@[simp] theorem State.takeStep_beat (s : State) (c : Nat) (i : Nat) (o : Osc) (a : Asks) :
    (s.takeStep c i o a).1.cyc.beat = s.cyc.beat := by
  unfold State.takeStep
  repeat' split
  all_goals simp
@[simp] theorem State.moveN3_beat (s : State) (c : Nat) (o : Osc) :
    (State.moveN3 s c o).cyc.beat = s.cyc.beat := by
  simp [State.moveN3]
@[simp] theorem State.oscWatch_beat (s : State) (c : Nat) (i : Nat) (o : Osc) (hit : Bool) (a : Asks) :
    (s.oscWatch c i o hit a).1.cyc.beat = s.cyc.beat := by
  simp only [State.oscWatch]
  repeat' split
  all_goals simp_all
@[simp] theorem State.oscAct_beat (s : State) (c : Nat) (i : Nat) (o : Osc) (hit : Bool) (a : Asks) :
    (s.oscAct c i o hit a).1.cyc.beat = s.cyc.beat := by
  simp only [State.oscAct]
  repeat' split
  all_goals simp_all
@[simp] theorem State.oscBlock_beat (s : State) (c : Nat) (i : Nat) (o : Osc) (a : Asks) :
    (s.oscBlock c i o a).1.cyc.beat = s.cyc.beat := by
  simp only [State.oscBlock]
  repeat' split
  all_goals simp_all
@[simp] theorem State.oscillation_beat (s : State) (c : Nat) (i : Nat) (a : Asks) :
    (s.oscillation c i a).1.cyc.beat = s.cyc.beat := by
  simp only [State.oscillation]
  repeat' split
  all_goals simp_all
@[simp] theorem State.checkRange_beat (s : State) (c : Nat) (i : Nat) :
    (s.checkRange c i).cyc.beat = s.cyc.beat := by
  simp [State.checkRange]
@[simp] theorem State.checkFlags_beat (s : State) (c : Nat) (i : Nat) :
    (s.checkFlags c i).cyc.beat = s.cyc.beat := by
  simp [State.checkFlags]
@[simp] theorem State.stopLate_beat (s : State) (c : Nat) (i : Nat) (since : W64) (a : Asks) :
    (s.stopLate c i since a).1.cyc.beat = s.cyc.beat := by
  unfold State.stopLate
  repeat' split
  all_goals simp
@[simp] theorem State.stopStep_beat (s : State) (c : Nat) (i : Nat) (a : Asks) :
    (s.stopStep c i a).1.cyc.beat = s.cyc.beat := by
  simp only [State.stopStep]
  repeat' split
  all_goals simp_all
@[simp] theorem State.lawSupervise_beat (s : State) (c : Nat) (i : Nat) :
    (s.lawSupervise c i).cyc.beat = s.cyc.beat := by
  simp only [State.lawSupervise]
  repeat' split
  all_goals simp_all
@[simp] theorem State.lawRecord_beat (s : State) (c : Nat) (cancel : Bool) :
    (s.lawRecord c cancel).cyc.beat = s.cyc.beat := by
  simp [State.lawRecord]
@[simp] theorem State.newLibState_beat (s : State) (c : Nat) :
    (s.newLibState c).cyc.beat = s.cyc.beat := by
  simp [State.newLibState]
@[simp] theorem State.library_beat (s : State) (c : Nat) (i : Nat) (cancel : Bool) :
    (s.library c i cancel).cyc.beat = s.cyc.beat := by
  unfold State.library
  repeat' split
  all_goals simp
@[simp] theorem State.endFlags_beat (s : State) (e : Nat) (c : Nat) :
    (s.endFlags e c).cyc.beat = s.cyc.beat := by
  simp [State.endFlags]
@[simp] theorem State.fatalLog_beat (s : State) (e : Nat) (c : Nat) (i : Nat) :
    (s.fatalLog e c i).cyc.beat = s.cyc.beat := by
  simp [State.fatalLog]
@[simp] theorem State.landStage_beat (s : State) (c : Nat) (i : Nat) (fatal : Bool) :
    (s.landStage c i fatal).cyc.beat = s.cyc.beat := by
  unfold State.landStage
  repeat' split
  all_goals simp
@[simp] theorem State.keepOwn_beat (s : State) (r : EngRun) :
    (s.keepOwn r).cyc.beat = s.cyc.beat := by
  simp [State.keepOwn]
@[simp] theorem State.freeEngine_beat (s : State) (e : Nat) (r : EngRun) :
    (s.freeEngine e r).cyc.beat = s.cyc.beat := by
  simp [State.freeEngine]
@[simp] theorem State.stageDone_beat (s : State) (e : Nat) (r : EngRun) (fin : EngEnd) :
    (s.stageDone e r fin).cyc.beat = s.cyc.beat := by
  simp [State.stageDone]
@[simp] theorem State.noteLostOf_beat (s : State) (c : Nat) :
    (s.noteLostOf c).cyc.beat = s.cyc.beat := by
  unfold State.noteLostOf
  repeat' split
  all_goals simp
@[simp] theorem State.noteLost_beat (s : State) :
    (s.noteLost).cyc.beat = s.cyc.beat := by
  simp [State.noteLost]
@[simp] theorem State.i2cCtl_beat (s : State) (v : W32) :
    (State.i2cCtl s v).cyc.beat = s.cyc.beat := by
  simp [State.i2cCtl]
@[simp] theorem State.ownBack_beat (s : State) (p : Nat) (c : Cell) :
    (s.ownBack p c).cyc.beat = s.cyc.beat := by
  simp [State.ownBack]
@[simp] theorem State.ownRx_beat (s : State) (p : Nat) (rx : RxCell) :
    (s.ownRx p rx).1.cyc.beat = s.cyc.beat := by
  simp only [State.ownRx]
  repeat' split
  all_goals simp_all
@[simp] theorem State.ownCellReturn_beat (s : State) (p : Fin 4) (rx : RxCell) :
    (s.ownCellReturn p rx).cyc.beat = s.cyc.beat := by
  simp [State.ownCellReturn]
@[simp] theorem State.cellForward_beat (s : State) (p : Fin 4) (rx : RxCell) :
    (s.cellForward p rx).cyc.beat = s.cyc.beat := by
  simp [State.cellForward]
@[simp] theorem State.nodeFaults_beat (s : State) (ctx : Nat) (r : Nat) (n : Nat) (nst : BitVec 16) :
    (s.nodeFaults ctx r n nst).cyc.beat = s.cyc.beat := by
  simp [State.nodeFaults]
@[simp] theorem State.takeRecord_beat (s : State) (c : Cell) (r : Nat) (n : Nat) (ctx : Nat) (o : Nat) :
    (s.takeRecord c r n ctx o).cyc.beat = s.cyc.beat := by
  simp only [State.takeRecord]
  repeat' split
  all_goals simp_all
@[simp] theorem State.confirmDir_beat (s : State) (r : Nat) (n : Nat) :
    (s.confirmDir r n).cyc.beat = s.cyc.beat := by
  simp only [State.confirmDir]
  repeat' split
  all_goals simp_all
@[simp] theorem State.takeNext_beat (c : Cell) (r n : Nat) (t : State × Nat) (ctx : Nat) :
    (State.takeNext c r n t ctx).1.cyc.beat = t.1.cyc.beat := by
  simp [State.takeNext]
@[simp] theorem State.takeUp_beat (s : State) (c : Cell) (r : Nat) (k : Carrier) :
    (s.takeUp c r k).cyc.beat = s.cyc.beat := by
  simp [State.takeUp]
@[simp] theorem State.lateUp_beat (s : State) (c : Cell) (r : Nat) (crcBad : Bool) :
    (s.lateUp c r crcBad).cyc.beat = s.cyc.beat := by
  simp [State.lateUp]
@[simp] theorem State.dropAdm_beat (s : State) (a : Adm) :
    (s.dropAdm a).cyc.beat = s.cyc.beat := by
  simp [State.dropAdm]
@[simp] theorem State.enumRead_beat (s : State) (r : Nat) (n : Nat) (v : Nat) :
    (s.enumRead r n v).cyc.beat = s.cyc.beat := by
  simp [State.enumRead]
@[simp] theorem State.admDone_beat (s : State) (a : Adm) (c : Cell) :
    (s.admDone a c).cyc.beat = s.cyc.beat := by
  unfold State.admDone
  repeat' split
  all_goals simp
@[simp] theorem State.adminTimeout_beat (s : State) :
    (s.adminTimeout).cyc.beat = s.cyc.beat := by
  unfold State.adminTimeout
  repeat' split
  all_goals simp
@[simp] theorem State.tunDrop_beat (s : State) (key : Nat) (t : Tun) :
    (s.tunDrop key t).cyc.beat = s.cyc.beat := by
  simp [State.tunDrop]
@[simp] theorem State.tunnelSegment_beat (s : State) (p : Fin 4) (rx : RxCell) :
    (s.tunnelSegment p rx).cyc.beat = s.cyc.beat := by
  simp [State.tunnelSegment]
@[simp] theorem applySigRead_beat (d : Desc) (cmd : Option Cmd) (s : State) :
    (applySigRead d cmd s).cyc.beat = s.cyc.beat := by
  simp only [applySigRead]
  repeat' split
  all_goals simp_all
@[simp] theorem applySigWrite_beat (d : Desc) (cmd : Option Cmd) (s : State) :
    (applySigWrite d cmd s).cyc.beat = s.cyc.beat := by
  simp only [applySigWrite]
  repeat' split
  all_goals simp_all
@[simp] theorem State.pwMismatch_beat (s : State) (b : Bool) :
    (s.pwMismatch b).cyc.beat = s.cyc.beat := by
  simp [State.pwMismatch]
@[simp] theorem State.checkPassword_beat (s : State) (b : Bool) (p : BitVec 128) :
    (s.checkPassword b p).1.cyc.beat = s.cyc.beat := by
  simp only [State.checkPassword]
  repeat' split
  all_goals simp_all
@[simp] theorem State.protected__beat (s : State) (b : Bool) (p : BitVec 128) (cmd : Option Cmd)
    (k : State → State) (hk : ∀ t, (k t).cyc.beat = t.cyc.beat) :
    (s.protected_ b p cmd k).cyc.beat = s.cyc.beat := by
  have hc := State.checkPassword_beat s b p
  simp only [State.protected_]
  split
  · simp
  · split <;> next h => rw [h] at hc; simpa [hk] using hc
@[simp] theorem applyGWrite_beat (b : Bool) (d : Desc) (cmd : Option Cmd) (s : State) :
    (applyGWrite b d cmd s).cyc.beat = s.cyc.beat := by
  simp [applyGWrite]
@[simp] theorem applyGRead_beat (b : Bool) (d : Desc) (cmd : Option Cmd) (s : State) :
    (applyGRead b d cmd s).cyc.beat = s.cyc.beat := by
  simp [applyGRead]
@[simp] theorem applyGConfirm_beat (b : Bool) (d : Desc) (cmd : Option Cmd) (s : State) :
    (applyGConfirm b d cmd s).cyc.beat = s.cyc.beat := by
  simp [applyGConfirm]
@[simp] theorem applyGPassword_beat (b : Bool) (d : Desc) (cmd : Option Cmd) (s : State) :
    (applyGPassword b d cmd s).cyc.beat = s.cyc.beat := by
  simp [applyGPassword]
@[simp] theorem applyGFaultClear_beat (b : Bool) (d : Desc) (cmd : Option Cmd) (s : State) :
    (applyGFaultClear b d cmd s).cyc.beat = s.cyc.beat := by
  simp [applyGFaultClear]
@[simp] theorem applyGLogRead_beat (b : Bool) (d : Desc) (cmd : Option Cmd) (s : State) :
    (applyGLogRead b d cmd s).cyc.beat = s.cyc.beat := by
  unfold applyGLogRead
  repeat' split
  all_goals simp
@[simp] theorem applyGReset_beat (b : Bool) (d : Desc) (cmd : Option Cmd) (s : State) :
    (applyGReset b d cmd s).cyc.beat = s.cyc.beat := by
  simp [applyGReset]
@[simp] theorem applyGaSbt_beat (d : Desc) (cmd : Option Cmd) (s : State) :
    (applyGaSbt d cmd s).cyc.beat = s.cyc.beat := by
  simp [applyGaSbt]
@[simp] theorem State.hostStop_beat (s : State) (c : Nat) :
    (s.hostStop c).cyc.beat = s.cyc.beat := by
  simp [State.hostStop]
@[simp] theorem State.hostLost_beat (s : State) (cause : Nat) :
    (s.hostLost cause).cyc.beat = s.cyc.beat := by
  simp [State.hostLost]
@[simp] theorem State.emptyCq_beat (s : State) (n : Nat) :
    (s.emptyCq n).cyc.beat = s.cyc.beat := by
  simp [State.emptyCq]
@[simp] theorem State.emptyCqs_beat (s : State) :
    (s.emptyCqs).cyc.beat = s.cyc.beat := by
  simp [State.emptyCqs]
@[simp] theorem State.cmdRingsOff_beat (s : State) :
    (s.cmdRingsOff).cyc.beat = s.cyc.beat := by
  simp [State.cmdRingsOff]
@[simp] theorem State.strmRingsOff_beat (s : State) :
    (s.strmRingsOff).cyc.beat = s.cyc.beat := by
  simp [State.strmRingsOff]
@[simp] theorem State.clearSqs_beat (s : State) :
    (s.clearSqs).cyc.beat = s.cyc.beat := by
  simp [State.clearSqs]
@[simp] theorem State.resetHostIf_beat (s : State) :
    (s.resetHostIf).cyc.beat = s.cyc.beat := by
  simp [State.resetHostIf]
@[simp] theorem State.supply_beat (s : State) (code : BitVec 16) (sev : Sev) :
    (s.supply code sev).cyc.beat = s.cyc.beat := by
  simp [State.supply]
@[simp] theorem State.restDom_beat (s : State) (d : Nat) (t : DomTgt) (cmds : List (Option Cmd)) :
    (s.restDom d t cmds).cyc.beat = s.cyc.beat := by
  simp only [State.restDom]
  repeat' split
  all_goals simp_all
@[simp] theorem applyPwrSet_beat (d : Desc) (cmd : Option Cmd) (s : State) :
    (applyPwrSet d cmd s).cyc.beat = s.cyc.beat := by
  simp only [applyPwrSet]
  repeat' split
  all_goals simp_all
@[simp] theorem State.autoRet_beat (s : State) (d : Nat) :
    (s.autoRet d).cyc.beat = s.cyc.beat := by
  simp [State.autoRet]
@[simp] theorem State.clearCluster_beat (s : State) (q : Nat) :
    (s.clearCluster q).cyc.beat = s.cyc.beat := by
  simp [State.clearCluster]
@[simp] theorem State.beginEntry_beat (s : State) (d : Nat) :
    (s.beginEntry d).cyc.beat = s.cyc.beat := by
  simp [State.beginEntry]
@[simp] theorem State.retentionEntry_beat (s : State) :
    (s.retentionEntry).cyc.beat = s.cyc.beat := by
  simp [State.retentionEntry]
@[simp] theorem State.replay_beat (s : State) (d : Nat) :
    (s.replay d).cyc.beat = s.cyc.beat := by
  simp only [State.replay]
  repeat' split
  all_goals simp_all
@[simp] theorem State.zeroBank_beat (s : State) (d : Nat) :
    (s.zeroBank d).cyc.beat = s.cyc.beat := by
  simp [State.zeroBank]
@[simp] theorem State.reloadIm_beat (s : State) (p : Nat → Bool) :
    (s.reloadIm p).cyc.beat = s.cyc.beat := by
  simp [State.reloadIm]
@[simp] theorem State.loseMemories_beat (s : State) (d : Nat) (lost : BitVec 12) :
    (s.loseMemories d lost).cyc.beat = s.cyc.beat := by
  simp [State.loseMemories]
@[simp] theorem State.domOn_beat (s : State) (d : Nat) (lost : BitVec 12) :
    (s.domOn d lost).cyc.beat = s.cyc.beat := by
  simp [State.domOn]
@[simp] theorem State.wakeComplete_beat (s : State) (d : Fin 23) (lost : BitVec 12) :
    (s.wakeComplete d lost).cyc.beat = s.cyc.beat := by
  simp [State.wakeComplete]
@[simp] theorem State.clearLatched_beat (s : State) (rs : List Reg) (n : Nat) :
    (s.clearLatched rs n).cyc.beat = s.cyc.beat := by
  simp [State.clearLatched]
@[simp] theorem State.coldLinks_beat (s : State) (ps : List Nat) :
    (s.coldLinks ps).cyc.beat = s.cyc.beat := by
  simp [State.coldLinks]
@[simp] theorem State.coldNear_beat (s : State) :
    (s.coldNear).cyc.beat = s.cyc.beat := by
  simp [State.coldNear]
@[simp] theorem State.coldAcq_beat (s : State) :
    (s.coldAcq).cyc.beat = s.cyc.beat := by
  simp [State.coldAcq]
@[simp] theorem State.coldDomain_beat (s : State) (d : Nat) :
    (s.coldDomain d).cyc.beat = s.cyc.beat := by
  simp [State.coldDomain]
@[simp] theorem State.domHinge_beat (s : State) :
    (s.domHinge).cyc.beat = s.cyc.beat := by
  simp [State.domHinge]
@[simp] theorem State.cut_beat (s : State) (ds : List Nat) :
    (s.cut ds).cyc.beat = s.cyc.beat := by
  simp [State.cut]
@[simp] theorem State.dropOutputs_beat (s : State) (r : State) :
    (s.dropOutputs r).cyc.beat = r.cyc.beat := by
  simp [State.dropOutputs]
@[simp] theorem State.bankOff_beat (s : State) (b : Nat) (c : Nat) :
    (s.bankOff b c).cyc.beat = s.cyc.beat := by
  unfold State.bankOff
  repeat' split
  all_goals simp
@[simp] theorem State.commitAll_beat (a : Nat) (u1 : State) :
    (State.commitAll a u1).cyc.beat = u1.cyc.beat := by
  induction a generalizing u1 with
  | zero => rfl
  | succ n ih =>
    simp only [State.commitAll]
    repeat' split
    all_goals simp [ih]
@[simp] theorem State.countWatchdog_beat (s : State) (n : Nat) :
    (s.countWatchdog n).cyc.beat = s.cyc.beat := by
  simp [State.countWatchdog]
@[simp] theorem State.loadPrograms_beat (s : State) :
    (s.loadPrograms).cyc.beat = s.cyc.beat := by
  simp [State.loadPrograms]
@[simp] theorem State.enablePorts_beat (s : State) :
    (s.enablePorts).cyc.beat = s.cyc.beat := by
  simp [State.enablePorts]
@[simp] theorem State.bootImage_beat (s : State) (b : Bool) :
    (s.bootImage b).cyc.beat = s.cyc.beat := by
  simp [State.bootImage]
@[simp] theorem State.setBlk_beat (s : State) (b : Nat) (x : Blk) :
    (s.setBlk b x).cyc.beat = s.cyc.beat := by
  simp [State.setBlk]
@[simp] theorem State.refuseStaged_beat (s : State) (b : Fin 18) :
    (s.refuseStaged b).cyc.beat = s.cyc.beat := by
  simp [State.refuseStaged]
@[simp] theorem State.discard_beat (s : State) (b : Fin 18) :
    (s.discard b).cyc.beat = s.cyc.beat := by
  simp [State.discard]
@[simp] theorem State.commit_beat (s : State) (b : Fin 18) :
    (s.commit b).cyc.beat = s.cyc.beat := by
  simp [State.commit]
@[simp] theorem State.writeCommit_beat (s : State) (b : Fin 18) (v : W32) :
    (s.writeCommit b v).cyc.beat = s.cyc.beat := by
  simp [State.writeCommit]
@[simp] theorem State.commitAllBlocks_beat (s : State) (v : W32) :
    (s.commitAllBlocks v).cyc.beat = s.cyc.beat := by
  simp [State.commitAllBlocks]
@[simp] theorem State.applied_beat (s : State) (bs : List Nat) :
    (s.applied bs).cyc.beat = s.cyc.beat := by
  simp [State.applied]
@[simp] theorem State.checkSet_beat (s : State) (bs : List Nat) :
    (s.checkSet bs).cyc.beat = s.cyc.beat := by
  unfold State.checkSet
  repeat' split
  all_goals simp
@[simp] theorem State.firstIndex_beat (s : State) (n : Nat) :
    (s.firstIndex n).cyc.beat = s.cyc.beat := by
  simp [State.firstIndex]
@[simp] theorem State.firstIndexOf_beat (t : State) (c : Nat) :
    (State.firstIndexOf t c).cyc.beat = t.cyc.beat := by
  unfold State.firstIndexOf
  repeat' split
  all_goals simp
@[simp] theorem State.effectDisp_beat (s : State) (t : State) :
    (s.effectDisp t).cyc.beat = t.cyc.beat := by
  simp [State.effectDisp]
@[simp] theorem State.effectFb_beat (s : State) (t : State) :
    (s.effectFb t).cyc.beat = t.cyc.beat := by
  simp [State.effectFb]
@[simp] theorem State.effectPwm_beat (t : State) :
    (State.effectPwm t).cyc.beat = t.cyc.beat := by
  simp [State.effectPwm]
@[simp] theorem State.effectPrf_beat (s : State) (t : State) :
    (s.effectPrf t).cyc.beat = t.cyc.beat := by
  simp [State.effectPrf]
@[simp] theorem State.effectLnk_beat (s : State) (t : State) :
    (s.effectLnk t).cyc.beat = t.cyc.beat := by
  simp [State.effectLnk]
@[simp] theorem State.effectRing_beat (s : State) (t : State) :
    (s.effectRing t).cyc.beat = t.cyc.beat := by
  simp [State.effectRing]
@[simp] theorem State.effectTwin_beat (s : State) (t : State) :
    (s.effectTwin t).cyc.beat = t.cyc.beat := by
  simp [State.effectTwin]
@[simp] theorem State.applySet_beat (s : State) (bs : List Nat) :
    (s.applySet bs).cyc.beat = s.cyc.beat := by
  simp [State.applySet]
@[simp] theorem State.applyChecked_beat (s : State) :
    (s.applyChecked).cyc.beat = s.cyc.beat := by
  simp only [State.applyChecked]
  repeat' split
  all_goals simp_all
@[simp] theorem State.badItem_beat (s : State) (f : Nat) (sl : ShelfSlot) :
    (s.badItem f sl).cyc.beat = s.cyc.beat := by
  simp [State.badItem]
@[simp] theorem State.releaseCell_beat (s : State) (f : Nat) (sl : ShelfSlot) (bs : List Byte) :
    (s.releaseCell f sl bs).cyc.beat = s.cyc.beat := by
  simp [State.releaseCell]
@[simp] theorem State.releaseItem_beat (s : State) (f : Nat) (sl : ShelfSlot) (bs : List Byte) :
    (s.releaseItem f sl bs).cyc.beat = s.cyc.beat := by
  simp [State.releaseItem]
@[simp] theorem State.releaseRec_beat (s : State) (u : Nat) (bs : List Byte) :
    (s.releaseRec u bs).cyc.beat = s.cyc.beat := by
  simp [State.releaseRec]
@[simp] theorem State.consume_beat (s : State) (f : Nat) (sl : ShelfSlot) (bs : List Byte) :
    (s.consume f sl bs).cyc.beat = s.cyc.beat := by
  simp [State.consume]
@[simp] theorem State.setRun1_beat (s : State) (on : Bool) :
    (State.setRun1 s on).cyc.beat = s.cyc.beat := by
  simp [State.setRun1]
@[simp] theorem State.sampleNear_beat (s : State) (n : Nat) :
    (s.sampleNear n).cyc.beat = s.cyc.beat := by
  simp [State.sampleNear]
@[simp] theorem State.dropEngine_beat (s : State) (e : Nat) :
    (s.dropEngine e).cyc.beat = s.cyc.beat := by
  unfold State.dropEngine
  repeat' split
  all_goals simp
@[simp] theorem State.abortStage_beat (s : State) (c : Nat) (i : Nat) (x : StageRun) :
    (s.abortStage c i x).cyc.beat = s.cyc.beat := by
  simp [State.abortStage]
@[simp] theorem State.overrun_beat (s : State) (c : Nat) (stages : List (Nat × StageRun)) :
    (s.overrun c stages).cyc.beat = s.cyc.beat := by
  simp only [State.overrun]
  repeat' split
  all_goals simp_all
@[simp] theorem State.holeAll_beat (s : State) :
    (s.holeAll).cyc.beat = s.cyc.beat := by
  simp [State.holeAll]
@[simp] theorem State.dropTx_beat (s : State) (d : Nat) :
    (s.dropTx d).cyc.beat = s.cyc.beat := by
  simp [State.dropTx]
@[simp] theorem State.dropAllTx_beat (s : State) :
    (s.dropAllTx).cyc.beat = s.cyc.beat := by
  simp [State.dropAllTx]
@[simp] theorem State.endLost_beat (s : State) :
    (s.endLost).cyc.beat = s.cyc.beat := by
  simp [State.endLost]
@[simp] theorem State.abortBg_beat (s : State) (c : Nat) (i : Nat) :
    (s.abortBg c i).cyc.beat = s.cyc.beat := by
  unfold State.abortBg
  repeat' split
  all_goals simp
@[simp] theorem State.abortAllBg_beat (s : State) :
    (s.abortAllBg).cyc.beat = s.cyc.beat := by
  simp [State.abortAllBg]
@[simp] theorem State.sweepDone_beat (s : State) :
    (s.sweepDone).cyc.beat = s.cyc.beat := by
  simp [State.sweepDone]
@[simp] theorem State.countCabEcc_beat (s : State) (ecc : Ecc) (a : Nat) :
    (s.countCabEcc ecc a).cyc.beat = s.cyc.beat := by
  unfold State.countCabEcc
  repeat' split
  all_goals simp
@[simp] theorem State.scrubGrant_beat (s : State) (bank : Fin 8) (ecc : Ecc) (w : Fin 16) :
    (s.scrubGrant bank ecc w).cyc.beat = s.cyc.beat := by
  simp [State.scrubGrant]
@[simp] theorem applyCancelMark_beat (d : Desc) (cmd : Option Cmd) (s : State) :
    (applyCancelMark d cmd s).cyc.beat = s.cyc.beat := by
  simp [applyCancelMark]
@[simp] theorem applyCtxCancel_beat (d : Desc) (cmd : Option Cmd) (s : State) :
    (applyCtxCancel d cmd s).cyc.beat = s.cyc.beat := by
  simp [applyCtxCancel]
@[simp] theorem applyLow_beat (op : Nat) (a : Desc) (u2 : Option Cmd) (u3 : State) :
    (applyLow op a u2 u3).cyc.beat = u3.cyc.beat := by
  unfold applyLow
  repeat' split
  all_goals simp
@[simp] theorem applyGuard_beat (b : Bool) (k : Nat) (a : Desc) (u3 : Option Cmd) (u4 : State) :
    (applyGuard b k a u3 u4).cyc.beat = u4.cyc.beat := by
  unfold applyGuard
  repeat' split
  all_goals simp
@[simp] theorem applyHigh_beat (op : Nat) (a : Desc) (u2 : Option Cmd) (u3 : State) :
    (applyHigh op a u2 u3).cyc.beat = u3.cyc.beat := by
  unfold applyHigh
  repeat' split
  all_goals simp
@[simp] theorem applyOp_beat (op : BitVec 8) (a : Desc) (u2 : Option Cmd) (u3 : State) :
    (applyOp op a u2 u3).cyc.beat = u3.cyc.beat := by
  unfold applyOp
  repeat' split
  all_goals simp
@[simp] theorem State.hingeOne_beat (a : State × List Nat × List Fetched) (f : Fetched) :
    (State.hingeOne a f).1.cyc.beat = a.1.cyc.beat := by
  obtain ⟨s, held, kept⟩ := a
  simp only [State.hingeOne]
  repeat' split
  all_goals simp
@[simp] theorem State.hingeQueue_beat (s : State) :
    (s.hingeQueue).cyc.beat = s.cyc.beat := by
  simp [State.hingeQueue]
@[simp] theorem State.hingeMirror_beat (s : State) (m : Mirror) :
    (s.hingeMirror m).cyc.beat = s.cyc.beat := by
  simp [State.hingeMirror]
@[simp] theorem State.hingeMirrors_beat (s : State) :
    (s.hingeMirrors).cyc.beat = s.cyc.beat := by
  simp [State.hingeMirrors]
@[simp] theorem State.reserve_beat (s : State) (c : Nat) (i : Nat) (x : StageRun) :
    (s.reserve c i x).cyc.beat = s.cyc.beat := by
  simp [State.reserve]
@[simp] theorem State.reserveOf_beat (s : State) (c : Nat) (i : Nat) :
    (s.reserveOf c i).cyc.beat = s.cyc.beat := by
  unfold State.reserveOf
  repeat' split
  all_goals simp
@[simp] theorem State.makeRuns_beat (s : State) :
    (s.makeRuns).cyc.beat = s.cyc.beat := by
  simp [State.makeRuns]
@[simp] theorem State.startStage_beat (s : State) (c : Nat) (i : Nat) :
    (s.startStage c i).cyc.beat = s.cyc.beat := by
  unfold State.startStage
  repeat' split
  all_goals simp
@[simp] theorem State.startRuns_beat (s : State) :
    (s.startRuns).cyc.beat = s.cyc.beat := by
  simp [State.startRuns]
@[simp] theorem State.deliverHeld_beat (s : State) :
    (s.deliverHeld).cyc.beat = s.cyc.beat := by
  simp [State.deliverHeld]
@[simp] theorem State.applyCntSet_beat (s : State) (n : Nat) :
    (s.applyCntSet n).cyc.beat = s.cyc.beat := by
  unfold State.applyCntSet
  repeat' split
  all_goals simp
@[simp] theorem State.applyCntSets_beat (s : State) :
    (s.applyCntSets).cyc.beat = s.cyc.beat := by
  simp [State.applyCntSets]
@[simp] theorem State.disableBad_beat (s : State) :
    (s.disableBad).cyc.beat = s.cyc.beat := by
  simp [State.disableBad]
@[simp] theorem State.hingeSends_beat (s : State) :
    (s.hingeSends).cyc.beat = s.cyc.beat := by
  simp [State.hingeSends]
@[simp] theorem State.clearPosted_beat (s : State) :
    (s.clearPosted).cyc.beat = s.cyc.beat := by
  simp [State.clearPosted]
@[simp] theorem State.writeGo_beat (s : State) (v : W32) :
    (s.writeGo v).cyc.beat = s.cyc.beat := by
  simp [State.writeGo]
@[simp] theorem State.writeStage_beat (s : State) (r : Reg) (sel : Nat) (v : W32) :
    (s.writeStage r sel v).cyc.beat = s.cyc.beat := by
  unfold State.writeStage
  repeat' split
  all_goals simp
@[simp] theorem State.writeRingCmd_beat (s : State) (v : W32) :
    (s.writeRingCmd v).cyc.beat = s.cyc.beat := by
  simp [State.writeRingCmd]
@[simp] theorem State.writeView_beat (s : State) (r : Reg) (v : W32) :
    (s.writeView r v).cyc.beat = s.cyc.beat := by
  simp [State.writeView]

end Sys2Proof.Machine
end

