-- ==== Sys2Proof/Laws/Cabinet.lean ====
section
/-! SUPPORT. Every operation of the block keeps the cabinet in its canonical form. -/

namespace Sys2Proof.Machine

@[simp] theorem ite_cab (c : Prop) [Decidable c] (a b : State) :
    (if c then a else b).cab = if c then a.cab else b.cab := by split <;> rfl
@[simp] theorem ite_CabWf (c : Prop) [Decidable c] (a b : List Host.Cell) :
    CabWf (if c then a else b) = if c then CabWf a else CabWf b := by split <;> rfl
@[simp] theorem foldl_cab_eq {β : Type} (f : State → β → State)
    (h : ∀ s b, (f s b).cab = s.cab) (l : List β) (s : State) : (l.foldl f s).cab = s.cab := by
  induction l generalizing s with
  | nil => rfl
  | cons b l ih => simp [ih, h]
@[simp] theorem foldl_fst_cab_eq {α β : Type} (f : State × α → β → State × α)
    (h : ∀ p b, (f p b).1.cab = p.1.cab) (l : List β) (p : State × α) : (l.foldl f p).1.cab = p.1.cab := by
  induction l generalizing p with
  | nil => rfl
  | cons b l ih => simp [ih, h]
@[simp] theorem foldl_cab {β : Type} (f : State → β → State)
    (h : ∀ s b, CabWf s.cab → CabWf (f s b).cab) (l : List β) (s : State) (hs : CabWf s.cab) :
    CabWf (l.foldl f s).cab := by
  induction l generalizing s with
  | nil => exact hs
  | cons b l ih => exact ih _ (h _ _ hs)
@[simp] theorem foldl_fst_cab {α β : Type} (f : State × α → β → State × α)
    (h : ∀ p b, CabWf p.1.cab → CabWf (f p b).1.cab) (l : List β) (p : State × α) (hp : CabWf p.1.cab) :
    CabWf (l.foldl f p).1.cab := by
  induction l generalizing p with
  | nil => exact hp
  | cons b l ih => exact ih _ (h _ _ hp)
@[simp] theorem tset_CabWf (m : List Host.Cell) (a : Nat) (v : Byte) (h : CabWf m) :
    CabWf (tset 0 m a v) := twf_tset 0 m a v h
@[simp] theorem filter_CabWf (m : List Host.Cell) (f : Host.Cell → Bool) (h : CabWf m) :
    CabWf (m.filter f) := twf_filter 0 m f h
@[simp] theorem nil_CabWf : CabWf [] := rfl

@[simp] theorem State.bump_cab (s : State) (r : Reg) (sel : optParam Nat 0) (n : optParam Nat 1) :
    (s.bump r sel n).cab = s.cab := by
  simp [State.bump]
@[simp] theorem State.keepMax_cab (s : State) (r : Reg) (sel : Nat) (n : Nat) :
    (s.keepMax r sel n).cab = s.cab := by
  simp [State.keepMax]
@[simp] theorem State.upTo_cab (s : State) (t : W64) :
    (s.upTo t).cab = s.cab := by
  simp [State.upTo]
@[simp] theorem State.clockEdge_cab (s : State) :
    (s.clockEdge).cab = s.cab := by
  simp [State.clockEdge]
@[simp] theorem State.draw_cab (s : State) :
    (s.draw).2.cab = s.cab := by
  simp [State.draw]
@[simp] theorem State.markDirty_cab (s : State) (a : Nat) :
    (s.markDirty a).cab = s.cab := by
  unfold State.markDirty
  repeat' split
  all_goals simp
@[simp] theorem State.setCabByte_cab (s : State) (a : Nat) (v : Byte)
    (hw : CabWf s.cab) : CabWf (s.setCabByte a v).cab := by
  simp only [State.setCabByte]
  split
  · exact hw
  · rw [State.markDirty_cab]
    exact tset_CabWf _ _ _ hw
@[simp] theorem State.setCabWord_cab (s : State) (a : Nat) (v : W32)
    (hw : CabWf s.cab) : CabWf (s.setCabWord a v).cab := by
  simp (contextual := true) (maxDischargeDepth := 100) [State.setCabWord, hw]
@[simp] theorem State.signal_cab (s : State) (v : Nat) :
    (s.signal v).cab = s.cab := by
  simp [State.signal]
@[simp] theorem State.recBump_cab (s : State) (off : Nat)
    (hw : CabWf s.cab) : CabWf (s.recBump off).cab := by
  simp (contextual := true) (maxDischargeDepth := 100) [State.recBump, hw]
@[simp] theorem State.askFlush_cab (s : State) (cause : Nat) (cmds : List Cmd) :
    (s.askFlush cause cmds).cab = s.cab := by
  unfold State.askFlush
  repeat' split
  all_goals simp
@[simp] theorem State.logEvent_cab (s : State) (code : BitVec 16) (src : Nat) (sev : Sev) (pay : Payload)
    (hw : CabWf s.cab) : CabWf (s.logEvent code src sev pay).cab := by
  simp (contextual := true) (maxDischargeDepth := 100) [State.logEvent, hw]
@[simp] theorem State.postEntry_cab (s : State) (n : Nat) (e : CqEntry) :
    (s.postEntry n e).cab = s.cab := by
  simp [State.postEntry]
@[simp] theorem State.post_cab (s : State) (code : BitVec 16) (sev : Sev) (src : Nat) (pay : optParam Payload 0)
    (hw : CabWf s.cab) : CabWf (s.post code sev src pay).cab := by
  simp (contextual := true) (maxDischargeDepth := 100) [State.post, hw]
@[simp] theorem State.complete_cab (s : State) (c : Option Cmd) (status : BitVec 16) (pay : optParam Payload 0) :
    (s.complete c status pay).cab = s.cab := by
  unfold State.complete
  repeat' split
  all_goals simp
@[simp] theorem State.fillStrm_cab (s : State) (k : Nat) :
    (s.fillStrm k).cab = s.cab := by
  simp [State.fillStrm]
@[simp] theorem State.countPage_cab (s : State) (k : Nat) :
    (s.countPage k).cab = s.cab := by
  simp [State.countPage]
@[simp] theorem State.closePage_cab (s : State) (k : Nat) :
    (s.closePage k).cab = s.cab := by
  simp [State.closePage]
@[simp] theorem State.putRec_cab (s : State) (k : Nat) (r : Rec) :
    (s.putRec k r).cab = s.cab := by
  simp [State.putRec]
@[simp] theorem State.wakeDom_cab (s : State) (d : Nat) (cmds : List (Option Cmd)) :
    (s.wakeDom d cmds).cab = s.cab := by
  simp only [State.wakeDom]
  repeat' split
  all_goals simp_all
@[simp] theorem State.touchBank_cab (s : State) (a : Nat)
    (hw : CabWf s.cab) : CabWf (s.touchBank a).cab := by
  simp (contextual := true) (maxDischargeDepth := 100) [State.touchBank, hw]
@[simp] theorem State.setDrawer_cab (s : State) (c : Nat) (w : Nat) (v : W24)
    (hw : CabWf s.cab) : CabWf (s.setDrawer c w v).cab := by
  unfold State.setDrawer
  repeat' split
  all_goals simp (contextual := true) (maxDischargeDepth := 100) [hw]
@[simp] theorem State.setStage_cab (s : State) (c : Nat) (i : Nat) (x : StageRun) :
    (s.setStage c i x).cab = s.cab := by
  unfold State.setStage
  repeat' split
  all_goals simp
@[simp] theorem State.trace_cab (s : State) (ty : TrcTy) (ctx : Nat) (stage : Nat) (flags : Nat) (eng : Nat) (arg0 : Nat) (arg1 : Nat) :
    (s.trace ty ctx stage flags eng arg0 arg1).cab = s.cab := by
  simp [State.trace]
@[simp] theorem State.issue_cab (s : State) (n : Nat) :
    (s.issue n).cab = s.cab := by
  simp [State.issue]
@[simp] theorem State.retire_cab (s : State) (n : Nat) :
    (s.retire n).cab = s.cab := by
  simp [State.retire]
@[simp] theorem State.dropTok_cab (s : State) (n : Nat) :
    (s.dropTok n).cab = s.cab := by
  simp [State.dropTok]
@[simp] theorem State.retireStage_cab (s : State) (c : Nat) (i : Nat) (x : StageRun) :
    (s.retireStage c i x).cab = s.cab := by
  simp [State.retireStage]
@[simp] theorem State.strayTok_cab (s : State) (c : Nat) (i : Nat) (kind : Nat) (src : Nat)
    (hw : CabWf s.cab) : CabWf (s.strayTok c i kind src).cab := by
  simp (contextual := true) (maxDischargeDepth := 100) [State.strayTok, hw]
@[simp] theorem State.loseRun_cab (s : State) (c : Nat) :
    (s.loseRun c).cab = s.cab := by
  unfold State.loseRun
  repeat' split
  all_goals simp
@[simp] theorem State.holeSlot_cab (s : State) (f : Nat) (t : Nat) :
    (s.holeSlot f t).cab = s.cab := by
  simp only [State.holeSlot]
  repeat' split
  all_goals simp_all
@[simp] theorem State.holeEmpty_cab (s : State) (c : Nat) (i : Nat) (x : StageRun) :
    (s.holeEmpty c i x).cab = s.cab := by
  simp [State.holeEmpty]
@[simp] theorem State.putItem_cab (s : State) (c : Nat) (i : Nat) (bytes : List Byte)
    (hw : CabWf s.cab) : CabWf (s.putItem c i bytes).cab := by
  simp only [State.putItem]
  repeat' split
  all_goals simp (contextual := true) (maxDischargeDepth := 100) [*]
@[simp] theorem State.makeReady_cab (s : State) (c : Nat) (i : Nat) (x : StageRun) :
    (s.makeReady c i x).cab = s.cab := by
  simp [State.makeReady]
@[simp] theorem State.markCancelled_cab (s : State) (c : Nat) (i : Nat) (x : StageRun) :
    (s.markCancelled c i x).cab = s.cab := by
  simp [State.markCancelled]
@[simp] theorem State.token_cab (a : Nat) (u1 : State) (u2 : Nat) (u3 : Nat) (u4 : Bool)
    (hw : CabWf u1.cab) : CabWf (State.token a u1 u2 u3 u4).cab := by
  induction a generalizing u1 u2 u3 u4 with
  | zero => exact hw
  | succ n ih =>
    simp only [State.token]
    repeat' split
    all_goals simp (contextual := true) (maxDischargeDepth := 100) [ih, hw]
@[simp] theorem State.cancelStage_cab (s : State) (c : Nat) (i : Nat) (x : StageRun)
    (hw : CabWf s.cab) : CabWf (s.cancelStage c i x).cab := by
  simp (contextual := true) (maxDischargeDepth := 100) [State.cancelStage, hw]
@[simp] theorem State.extStage_cab (s : State) (c : Nat) (i : Nat) (kind : Nat)
    (hw : CabWf s.cab) : CabWf (s.extStage c i kind).cab := by
  unfold State.extStage
  repeat' split
  all_goals simp (contextual := true) (maxDischargeDepth := 100) [hw]
@[simp] theorem State.extTok_cab (s : State) (c : Nat) (kind : Nat)
    (hw : CabWf s.cab) : CabWf (s.extTok c kind).cab := by
  unfold State.extTok
  repeat' split
  all_goals simp (contextual := true) (maxDischargeDepth := 100) [hw]
@[simp] theorem State.extArrive_cab (s : State) (c : Nat) (kind : Nat)
    (hw : CabWf s.cab) : CabWf (s.extArrive c kind).cab := by
  simp (contextual := true) (maxDischargeDepth := 100) [State.extArrive, hw]
@[simp] theorem State.endStage_cab (s : State) (c : Nat) (i : Nat) (mask : BitVec 16)
    (hw : CabWf s.cab) : CabWf (s.endStage c i mask).cab := by
  unfold State.endStage
  repeat' split
  all_goals simp (contextual := true) (maxDischargeDepth := 100) [hw]
@[simp] theorem State.putDuty_cab (s : State) (r : EngRun) (ws : List W24) :
    (s.putDuty r ws).cab = s.cab := by
  unfold State.putDuty
  repeat' split
  all_goals simp
@[simp] theorem State.afterWord_cab (s : State) (e : Nat) (r : EngRun) (me : MemEff)
    (hw : CabWf s.cab) : CabWf (s.afterWord e r me).cab := by
  unfold State.afterWord
  repeat' split
  all_goals simp (contextual := true) (maxDischargeDepth := 100) [hw]
@[simp] theorem State.runWord_cab (s : State) (x : Engine) (r : EngRun) (io : Issue) (w : W64) (bk : Bool)
    (hw : CabWf s.cab) : CabWf (s.runWord x r io w bk).cab := by
  unfold State.runWord
  repeat' split
  all_goals simp (contextual := true) (maxDischargeDepth := 100) [hw]
@[simp] theorem State.fetchWord_cab (s : State) (x : Engine) (r : EngRun) (io : Issue) (w : W64)
    (hw : CabWf s.cab) : CabWf (s.fetchWord x r io w).cab := by
  unfold State.fetchWord
  repeat' split
  all_goals simp (contextual := true) (maxDischargeDepth := 100) [hw]
@[simp] theorem issueWord_cab (io : Issue) (w : W64) (s : State)
    (hw : CabWf s.cab) : CabWf (issueWord io w s).cab := by
  simp only [issueWord]
  repeat' split
  all_goals simp (contextual := true) (maxDischargeDepth := 100) [*]
@[simp] theorem xferOut_cab (x : Engine) (t : Xfer) (s : State) (i : Nat)
    (hw : CabWf s.cab) : CabWf (xferOut x t s i).cab := by
  simp (contextual := true) (maxDischargeDepth := 100) [xferOut, hw]
@[simp] theorem State.xferEnd_cab (s : State) (e : Nat) (t : Xfer)
    (hw : CabWf s.cab) : CabWf (s.xferEnd e t).cab := by
  simp (contextual := true) (maxDischargeDepth := 100) [State.xferEnd, hw]
@[simp] theorem State.completeMotion_cab (s : State) (c : Nat) (cmd : Option Cmd) (status : BitVec 16) :
    (s.completeMotion c cmd status).cab = s.cab := by
  simp [State.completeMotion]
@[simp] theorem State.reply_cab (s : State) (c : Nat) (cmd : Option Cmd) (status : BitVec 16) :
    (s.reply c cmd status).cab = s.cab := by
  simp [State.reply]
@[simp] theorem State.answer_cab (s : State) (c : Nat) (cmd : Option Cmd) (st : BitVec 16) :
    (s.answer c cmd st).cab = s.cab := by
  simp [State.answer]
@[simp] theorem State.endMotion_cab (s : State) (c : Nat) (status : BitVec 16) :
    (s.endMotion c status).cab = s.cab := by
  simp only [State.endMotion]
  repeat' split
  all_goals simp_all
@[simp] theorem State.endSeg_cab (s : State) (c : Nat) (g : PvtSeg) (status : BitVec 16) :
    (s.endSeg c g status).cab = s.cab := by
  unfold State.endSeg
  repeat' split
  all_goals simp
@[simp] theorem State.endAllMotion_cab (s : State) (c : Nat) (status : BitVec 16) :
    (s.endAllMotion c status).cab = s.cab := by
  simp only [State.endAllMotion]
  repeat' split
  all_goals simp_all
@[simp] theorem State.hmResult_cab (s : State) (c : Nat) (cause : Nat) (st : Nat)
    (hw : CabWf s.cab) : CabWf (s.hmResult c cause st).cab := by
  simp (contextual := true) (maxDischargeDepth := 100) [State.hmResult, hw]
@[simp] theorem State.setHomed_cab (s : State) (c : Nat) (b : Bool)
    (hw : CabWf s.cab) : CabWf (s.setHomed c b).cab := by
  simp (contextual := true) (maxDischargeDepth := 100) [State.setHomed, hw]
@[simp] theorem State.homingEnd_cab (s : State) (c : Nat) (cause : Nat)
    (hw : CabWf s.cab) : CabWf (s.homingEnd c cause).cab := by
  simp (contextual := true) (maxDischargeDepth := 100) [State.homingEnd, hw]
@[simp] theorem State.stopAt_cab (s : State) (c : Nat) (d : Rat) :
    (s.stopAt c d).cab = s.cab := by
  simp [State.stopAt]
@[simp] theorem State.homingFail_cab (s : State) (c : Nat) (cause : Nat)
    (hw : CabWf s.cab) : CabWf (s.homingFail c cause).cab := by
  simp (contextual := true) (maxDischargeDepth := 100) [State.homingFail, hw]
@[simp] theorem State.withRate_cab (s : State) (tm : TimeSt) :
    (s.withRate tm).cab = s.cab := by
  simp [State.withRate]
@[simp] theorem State.pwmLeave_cab (s : State) (m : Nat) (t : PwmSt) :
    (s.pwmLeave m t).cab = s.cab := by
  simp [State.pwmLeave]
@[simp] theorem State.pwmOff_cab (s : State) (m : Nat) :
    (s.pwmOff m).cab = s.cab := by
  unfold State.pwmOff
  repeat' split
  all_goals simp
@[simp] theorem State.disarm_cab (s : State) (k : Nat) :
    (s.disarm k).cab = s.cab := by
  simp [State.disarm]
@[simp] theorem State.disarmAll_cab (s : State) (c : Nat) :
    (s.disarmAll c).cab = s.cab := by
  simp [State.disarmAll]
@[simp] theorem State.axisOff_cab (s : State) (c : Nat) :
    (s.axisOff c).cab = s.cab := by
  simp only [State.axisOff]
  repeat' split
  all_goals simp_all
@[simp] theorem State.axisQstop_cab (s : State) (c : Nat) :
    (s.axisQstop c).cab = s.cab := by
  simp [State.axisQstop]
@[simp] theorem State.groupFault_cab (s : State) (g : Nat) (c : Nat)
    (hw : CabWf s.cab) : CabWf (s.groupFault g c).cab := by
  simp only [State.groupFault]
  repeat' split
  all_goals simp (contextual := true) (maxDischargeDepth := 100) [*]
@[simp] theorem State.react_cab (s : State) (c : Nat) (off : Bool)
    (hw : CabWf s.cab) : CabWf (s.react c off).cab := by
  simp only [State.react]
  repeat' split
  all_goals simp (contextual := true) (maxDischargeDepth := 100) [*]
@[simp] theorem State.stopReact_cab (s : State) (c : Nat)
    (hw : CabWf s.cab) : CabWf (s.stopReact c).cab := by
  simp (contextual := true) (maxDischargeDepth := 100) [State.stopReact, hw]
@[simp] theorem State.torqueOff_cab (s : State) (c : Nat)
    (hw : CabWf s.cab) : CabWf (s.torqueOff c).cab := by
  simp (contextual := true) (maxDischargeDepth := 100) [State.torqueOff, hw]
@[simp] theorem State.fbSticky_cab (s : State) (n : Nat) (bit : Nat) :
    (s.fbSticky n bit).cab = s.cab := by
  simp [State.fbSticky]
@[simp] theorem State.fbFault_cab (s : State) (code : BitVec 16) (n : Nat) (used : Bool) (pay : Payload)
    (hw : CabWf s.cab) : CabWf (s.fbFault code n used pay).cab := by
  simp (contextual := true) (maxDischargeDepth := 100) [State.fbFault, hw]
@[simp] theorem State.indexAgain_cab (s : State) (n : Nat) (r : W32)
    (hw : CabWf s.cab) : CabWf (s.indexAgain n r).cab := by
  simp (contextual := true) (maxDischargeDepth := 100) [State.indexAgain, hw]
@[simp] theorem State.index_cab (s : State) (n : Nat)
    (hw : CabWf s.cab) : CabWf (s.index n).cab := by
  simp only [State.index]
  repeat' split
  all_goals simp (contextual := true) (maxDischargeDepth := 100) [*]
@[simp] theorem State.turnDir_cab (s : State) (n : Nat) (up : Bool)
    (hw : CabWf s.cab) : CabWf (s.turnDir n up).cab := by
  simp (contextual := true) (maxDischargeDepth := 100) [State.turnDir, hw]
@[simp] theorem State.countEdge_cab (s : State) (n : Nat) (up : Bool) (t : W64) :
    (s.countEdge n up t).cab = s.cab := by
  simp [State.countEdge]
@[simp] theorem State.acceptEdge_cab (s : State) (n : Nat) (up : Bool) (a : Bool) (b : Bool) (z : Bool) (t : W64)
    (hw : CabWf s.cab) : CabWf (s.acceptEdge n up a b z t).cab := by
  simp (contextual := true) (maxDischargeDepth := 100) [State.acceptEdge, hw]
@[simp] theorem State.acceptQuar_cab (s : State) (n : Nat) (q : QEdge) (z : Bool)
    (hw : CabWf s.cab) : CabWf (s.acceptQuar n q z).cab := by
  simp (contextual := true) (maxDischargeDepth := 100) [State.acceptQuar, hw]
@[simp] theorem State.testEdge_cab (s : State) (n : Nat) (lineB : Bool) (a : Bool) (b : Bool) (z : Bool)
    (hw : CabWf s.cab) : CabWf (s.testEdge n lineB a b z).cab := by
  simp (contextual := true) (maxDischargeDepth := 100) [State.testEdge, hw]
@[simp] theorem State.glitch_cab (s : State) (n : Nat) (a : Bool) (b : Bool) :
    (s.glitch n a b).cab = s.cab := by
  simp [State.glitch]
@[simp] theorem State.quadErr_cab (s : State) (n : Nat) (a : Bool) (b : Bool) (z : Bool)
    (hw : CabWf s.cab) : CabWf (s.quadErr n a b z).cab := by
  unfold State.quadErr
  repeat' split
  all_goals simp (contextual := true) (maxDischargeDepth := 100) [hw]
@[simp] theorem State.quadEdge_cab (s : State) (n : Nat) (a : Bool) (b : Bool) (z : Bool)
    (hw : CabWf s.cab) : CabWf (s.quadEdge n a b z).cab := by
  simp only [State.quadEdge]
  repeat' split
  all_goals simp (contextual := true) (maxDischargeDepth := 100) [*]
@[simp] theorem State.idxArm_cab (s : State) (v : W32) :
    (s.idxArm v).cab = s.cab := by
  simp [State.idxArm]
@[simp] theorem State.cntSet_cab (s : State) (v : W32)
    (hw : CabWf s.cab) : CabWf (s.cntSet v).cab := by
  simp (contextual := true) (maxDischargeDepth := 100) [State.cntSet, hw]
@[simp] theorem State.fbLatch_cab (s : State) (v : W32) :
    (s.fbLatch v).cab = s.cab := by
  simp [State.fbLatch]
@[simp] theorem State.fbStatusClear_cab (s : State) (v : W32) :
    (s.fbStatusClear v).cab = s.cab := by
  simp [State.fbStatusClear]
@[simp] theorem State.ssiPulse_cab (s : State) (n : Fin 8) (tclk : Nat) (t : W64) :
    (s.ssiPulse n tclk t).cab = s.cab := by
  simp [State.ssiPulse]
@[simp] theorem State.ssiClock_cab (s : State) (n : Fin 8) (nb : Nat) (tclk : Nat) (t : W64) :
    (s.ssiClock n nb tclk t).cab = s.cab := by
  simp [State.ssiClock]
@[simp] theorem State.sdWrite_cab (s : State) (n : Nat) (c : Nat) (r0 : Int) (r1 : Int) (r2 : Int) (ctr : Int) (settle : Bool)
    (hw : CabWf s.cab) : CabWf (s.sdWrite n c r0 r1 r2 ctr settle).cab := by
  simp (contextual := true) (maxDischargeDepth := 100) [State.sdWrite, hw]
@[simp] theorem State.sdFrameReady_cab (s : State) (n : Fin 8) (r0 : Int) (r1 : Int) (r2 : Int) (edge : Int)
    (hw : CabWf s.cab) : CabWf (s.sdFrameReady n r0 r1 r2 edge).cab := by
  simp (contextual := true) (maxDischargeDepth := 100) [State.sdFrameReady, hw]
@[simp] theorem State.latchNear_cab (s : State) (n : Nat)
    (hw : CabWf s.cab) : CabWf (s.latchNear n).cab := by
  simp (contextual := true) (maxDischargeDepth := 100) [State.latchNear, hw]
@[simp] theorem State.chatter_cab (s : State) (c : Nat) (k : Nat)
    (hw : CabWf s.cab) : CabWf (s.chatter c k).cab := by
  simp (contextual := true) (maxDischargeDepth := 100) [State.chatter, hw]
@[simp] theorem State.sampleInput_cab (s : State) (c : Nat) (k : Nat) (raw : Bool) (need : Nat) (cnt : W32)
    (hw : CabWf s.cab) : CabWf (s.sampleInput c k raw need cnt).cab := by
  simp only [State.sampleInput]
  repeat' split
  all_goals simp (contextual := true) (maxDischargeDepth := 100) [*]
@[simp] theorem State.axisInputSample_cab (s : State) (n : Fin 8) (limp : Bool) (limn : Bool) (home : Bool)
    (hw : CabWf s.cab) : CabWf (s.axisInputSample n limp limn home).cab := by
  simp (contextual := true) (maxDischargeDepth := 100) [State.axisInputSample, hw]
@[simp] theorem State.farInputs_cab (s : State) (c : Nat) (nst : BitVec 16) (pos : W32)
    (hw : CabWf s.cab) : CabWf (s.farInputs c nst pos).cab := by
  simp (contextual := true) (maxDischargeDepth := 100) [State.farInputs, hw]
@[simp] theorem State.setWb_cab (s : State) (c : Nat) (k : Nat) (wb : Bool)
    (hw : CabWf s.cab) : CabWf (s.setWb c k wb).cab := by
  simp (contextual := true) (maxDischargeDepth := 100) [State.setWb, hw]
@[simp] theorem State.writeAxin_cab (s : State) (c : Nat)
    (hw : CabWf s.cab) : CabWf (s.writeAxin c).cab := by
  simp (contextual := true) (maxDischargeDepth := 100) [State.writeAxin, hw]
@[simp] theorem State.driveTxdis_cab (s : State) (p : Nat) :
    (s.driveTxdis p).cab = s.cab := by
  simp [State.driveTxdis]
@[simp] theorem State.driveVioc_cab (s : State) :
    (s.driveVioc).cab = s.cab := by
  simp [State.driveVioc]
@[simp] theorem State.sendAt_cab (s : State) (d : Nat) (at10 : Nat) (c : Cell) :
    (s.sendAt d at10 c).cab = s.cab := by
  simp [State.sendAt]
@[simp] theorem State.sendCell_cab (s : State) (d : Nat) (c : Cell) :
    (s.sendCell d c).cab = s.cab := by
  simp [State.sendCell]
@[simp] theorem State.sendTrain_cab (s : State) (d : Nat) (from10 : Nat) (cs : List Cell) :
    (s.sendTrain d from10 cs).cab = s.cab := by
  simp [State.sendTrain]
@[simp] theorem State.sendMarks_cab (s : State) :
    (s.sendMarks).cab = s.cab := by
  simp [State.sendMarks]
@[simp] theorem State.noteCarrier_cab (s : State) (d : Nat) (n : Nat) :
    (s.noteCarrier d n).cab = s.cab := by
  unfold State.noteCarrier
  repeat' split
  all_goals simp
@[simp] theorem State.sendTrains_cab (s : State) (d : Nat) :
    (s.sendTrains d).cab = s.cab := by
  simp [State.sendTrains]
@[simp] theorem State.countLate_cab (s : State) (c : Nat)
    (hw : CabWf s.cab) : CabWf (s.countLate c).cab := by
  simp (contextual := true) (maxDischargeDepth := 100) [State.countLate, hw]
@[simp] theorem State.noteAge_cab (s : State) (d : Nat) (q : TxItem) (k : Cell) :
    (s.noteAge d q k).cab = s.cab := by
  simp [State.noteAge]
@[simp] theorem State.startItem_cab (s : State) (d : Nat) (q : TxItem)
    (hw : CabWf s.cab) : CabWf (s.startItem d q).cab := by
  unfold State.startItem
  repeat' split
  all_goals simp (contextual := true) (maxDischargeDepth := 100) [hw]
@[simp] theorem State.startCells_cab (s : State) (d : Nat)
    (hw : CabWf s.cab) : CabWf (s.startCells d).cab := by
  simp (contextual := true) (maxDischargeDepth := 100) [State.startCells, hw]
@[simp] theorem State.acceptItem_cab (s : State) (d : Nat) (cell : Option Cell) (bytes : List Byte) (ctx : Nat) (first : Bool)
    (hw : CabWf s.cab) : CabWf (s.acceptItem d cell bytes ctx first).cab := by
  simp (contextual := true) (maxDischargeDepth := 100) [State.acceptItem, hw]
@[simp] theorem State.startAll_cab (s : State)
    (hw : CabWf s.cab) : CabWf (s.startAll).cab := by
  simp (contextual := true) (maxDischargeDepth := 100) [State.startAll, hw]
@[simp] theorem State.refillCredits_cab (s : State) :
    (s.refillCredits).cab = s.cab := by
  simp [State.refillCredits]
@[simp] theorem State.pushAcyc_cab (s : State) (d : Nat) (a : Acyc) :
    (s.pushAcyc d a).cab = s.cab := by
  simp [State.pushAcyc]
@[simp] theorem State.nextSeq_cab (s : State) :
    (s.nextSeq).2.cab = s.cab := by
  simp [State.nextSeq]
@[simp] theorem State.startAdm_cab (s : State) (r : Nat) (n : Nat) (point : Nat) (count : Nat) (wr : Bool) (vals : List W32) (what : AdmFor) :
    (s.startAdm r n point count wr vals what).cab = s.cab := by
  simp [State.startAdm]
@[simp] theorem State.ageAdm_cab (s : State) :
    (s.ageAdm).cab = s.cab := by
  simp only [State.ageAdm]
  rw [foldl_cab_eq _ (fun s d => ?_)]
  · rw [foldl_cab_eq _ (fun s a => by simp)]
  · rw [foldl_cab_eq _ (fun s n => ?_)]
    rw [foldl_cab_eq _ (fun s n => by simp)]
@[simp] theorem State.startAcyc_cab (s : State) (d : Nat)
    (hw : CabWf s.cab) : CabWf (s.startAcyc d).cab := by
  simp only [State.startAcyc]
  repeat' split
  all_goals simp (contextual := true) (maxDischargeDepth := 100) [*]
@[simp] theorem State.checkRx_cab (s : State) (p : Nat) (r : RxCell) :
    (s.checkRx p r).1.cab = s.cab := by
  unfold State.checkRx
  repeat' split
  all_goals simp
@[simp] theorem State.extendPos_cab (s : State) (c : Nat) :
    (s.extendPos c).cab = s.cab := by
  simp [State.extendPos]
@[simp] theorem State.shiftAxis_cab (s : State) (c : Nat) (d : Rat)
    (hw : CabWf s.cab) : CabWf (s.shiftAxis c d).cab := by
  simp (contextual := true) (maxDischargeDepth := 100) [State.shiftAxis, hw]
@[simp] theorem State.produce_cab (s : State) (kind : Nat) (src : Nat) (p : Rat) (v : Rat) (t : Int) :
    (s.produce kind src p v t).cab = s.cab := by
  simp [State.produce]
@[simp] theorem State.produceNear_cab (s : State) (n : Nat) :
    (s.produceNear n).cab = s.cab := by
  simp [State.produceNear]
@[simp] theorem State.moveVirtual_cab (s : State) (k : Nat) :
    (s.moveVirtual k).cab = s.cab := by
  simp [State.moveVirtual]
@[simp] theorem State.freezeOne_cab (s : State) (k : Nat) :
    (s.freezeOne k).cab = s.cab := by
  simp [State.freezeOne]
@[simp] theorem State.freezeMs_cab (s : State) :
    (s.freezeMs).cab = s.cab := by
  simp [State.freezeMs]
@[simp] theorem State.msLook_cab (s : State) (c : Nat) (k : Nat)
    (hw : CabWf s.cab) : CabWf (s.msLook c k).1.cab := by
  simp only [State.msLook]
  repeat' split
  all_goals simp (contextual := true) (maxDischargeDepth := 100) [*]
@[simp] theorem State.advance_cab (s : State) (c : Nat)
    (hw : CabWf s.cab) : CabWf (s.advance c).cab := by
  simp only [State.advance]
  repeat' split
  all_goals simp (contextual := true) (maxDischargeDepth := 100) [*]
@[simp] theorem State.advanceAll_cab (s : State)
    (hw : CabWf s.cab) : CabWf (s.advanceAll).cab := by
  simp (contextual := true) (maxDischargeDepth := 100) [State.advanceAll, hw]
@[simp] theorem State.runPvt_cab (s : State) (c : Nat)
    (hw : CabWf s.cab) : CabWf (s.runPvt c).cab := by
  simp only [State.runPvt]
  repeat' split
  all_goals simp (contextual := true) (maxDischargeDepth := 100) [*]
@[simp] theorem State.runStep_cab (s : State) (c : Nat)
    (hw : CabWf s.cab) : CabWf (s.runStep c).cab := by
  simp (contextual := true) (maxDischargeDepth := 100) [State.runStep, hw]
@[simp] theorem State.runGear_cab (s : State) (c : Nat) (t : Int)
    (hw : CabWf s.cab) : CabWf (s.runGear c t).cab := by
  simp (contextual := true) (maxDischargeDepth := 100) [State.runGear, hw]
@[simp] theorem State.runCam_cab (s : State) (c : Nat) (t : Int)
    (hw : CabWf s.cab) : CabWf (s.runCam c t).cab := by
  simp (contextual := true) (maxDischargeDepth := 100) [State.runCam, hw]
@[simp] theorem State.recap_cab (s : State) (c : Nat) :
    (s.recap c).cab = s.cab := by
  simp only [State.recap]
  repeat' split
  all_goals simp_all
@[simp] theorem State.swlVel_cab (s : State) (c : Nat) :
    (s.swlVel c).cab = s.cab := by
  simp only [State.swlVel]
  repeat' split
  all_goals simp_all
@[simp] theorem State.limitHit_cab (s : State) (c : Nat) (v : Rat)
    (hw : CabWf s.cab) : CabWf (s.limitHit c v).cab := by
  simp only [State.limitHit]
  repeat' split
  all_goals simp (contextual := true) (maxDischargeDepth := 100) [*]
@[simp] theorem State.swlFollow_cab (s : State) (c : Nat)
    (hw : CabWf s.cab) : CabWf (s.swlFollow c).cab := by
  simp only [State.swlFollow]
  repeat' split
  all_goals simp (contextual := true) (maxDischargeDepth := 100) [*]
@[simp] theorem State.homeStop_cab (s : State) (c : Nat) (st : HmSt) :
    (s.homeStop c st).cab = s.cab := by
  simp [State.homeStop]
@[simp] theorem State.homeRamp_cab (s : State) (c : Nat) :
    (s.homeRamp c).cab = s.cab := by
  simp [State.homeRamp]
@[simp] theorem State.reference_cab (s : State) (c : Nat) (at_ : Rat)
    (hw : CabWf s.cab) : CabWf (s.reference c at_).cab := by
  simp (contextual := true) (maxDischargeDepth := 100) [State.reference, hw]
@[simp] theorem State.homeFound_cab (s : State) (c : Nat) (at_ : Rat)
    (hw : CabWf s.cab) : CabWf (s.homeFound c at_).cab := by
  simp (contextual := true) (maxDischargeDepth := 100) [State.homeFound, hw]
@[simp] theorem State.homeDone_cab (s : State) (c : Nat)
    (hw : CabWf s.cab) : CabWf (s.homeDone c).cab := by
  simp (contextual := true) (maxDischargeDepth := 100) [State.homeDone, hw]
@[simp] theorem State.homePush_cab (s : State) (c : Nat)
    (hw : CabWf s.cab) : CabWf (s.homePush c).cab := by
  simp (contextual := true) (maxDischargeDepth := 100) [State.homePush, hw]
@[simp] theorem State.homeGo_cab (s : State) (c : Nat) (st : HmSt) :
    (s.homeGo c st).cab = s.cab := by
  simp [State.homeGo]
@[simp] theorem State.homeReverse_cab (s : State) (c : Nat) :
    (s.homeReverse c).cab = s.cab := by
  simp [State.homeReverse]
theorem State.homeEvent_cab (s t : State) (c : Nat) (h : s.homeEvent c = some t)
    (hw : CabWf s.cab) : CabWf t.cab := by
  unfold State.homeEvent at h
  dsimp only at h
  repeat' split at h
  all_goals first | (cases h; done) | (cases h; simp [hw]; done) | (obtain ⟨a, -, rfl⟩ := Option.map_eq_some_iff.mp h; simp [hw])
@[simp] theorem State.homeStep_cab (s : State) (c : Nat) (rest : Bool)
    (hw : CabWf s.cab) : CabWf (s.homeStep c rest).cab := by
  unfold State.homeStep
  dsimp only
  repeat' split
  all_goals first | (simp [hw]; done) | exact State.homeEvent_cab _ _ _ ‹_› hw
@[simp] theorem State.runHoming_cab (s : State) (c : Nat) (t : Int)
    (hw : CabWf s.cab) : CabWf (s.runHoming c t).cab := by
  unfold State.runHoming
  repeat' split
  all_goals simp (contextual := true) (maxDischargeDepth := 100) [hw]
@[simp] theorem State.genRun_cab (s : State) (c : Nat)
    (hw : CabWf s.cab) : CabWf (s.genRun c).1.cab := by
  simp only [State.genRun]
  repeat' split
  all_goals simp (contextual := true) (maxDischargeDepth := 100) [*]
@[simp] theorem State.delaySet_cab (s : State) (r : Nat) (n : Nat) (second : Bool) (repeat_ : Bool) (seq : BitVec 16) :
    (s.delaySet r n second repeat_ seq).cab = s.cab := by
  simp [State.delaySet]
@[simp] theorem State.applyPend_cab (s : State) (r : Nat) (n : Nat) :
    (s.applyPend r n).cab = s.cab := by
  simp only [State.applyPend]
  repeat' split
  all_goals simp_all
@[simp] theorem State.applyPends_cab (s : State) :
    (s.applyPends).cab = s.cab := by
  simp [State.applyPends]
@[simp] theorem State.enterIntake_cab (s : State) (r : Nat) :
    (s.enterIntake r).cab = s.cab := by
  simp [State.enterIntake]
@[simp] theorem State.ringDown_cab (s : State) (r : Nat)
    (hw : CabWf s.cab) : CabWf (s.ringDown r).cab := by
  simp (contextual := true) (maxDischargeDepth := 100) [State.ringDown, hw]
@[simp] theorem State.joinReceive_cab (s : State) (p : Fin 4) (rx : RxCell)
    (hw : CabWf s.cab) : CabWf (s.joinReceive p rx).cab := by
  simp (contextual := true) (maxDischargeDepth := 100) [State.joinReceive, hw]
@[simp] theorem State.sendProbe_cab (s : State) (r : Nat) (dir : Nat) :
    (s.sendProbe r dir).cab = s.cab := by
  simp [State.sendProbe]
@[simp] theorem State.enterEnum_cab (s : State) (r : Nat) :
    (s.enterEnum r).cab = s.cab := by
  simp [State.enterEnum]
@[simp] theorem State.enumMismatch_cab (s : State) (r : Nat)
    (hw : CabWf s.cab) : CabWf (s.enumMismatch r).cab := by
  simp (contextual := true) (maxDischargeDepth := 100) [State.enumMismatch, hw]
@[simp] theorem State.nextEcho_cab (s : State) (r : Nat) (what : EchoFor) (done : State → State)
    (hd : ∀ t, CabWf t.cab → CabWf (done t).cab) (hw : CabWf s.cab) :
    CabWf (s.nextEcho r what done).cab := by
  simp only [State.nextEcho]
  split
  · exact hd _ (by simp [hw])
  · simp [hw]
@[simp] theorem State.endMeasure_cab (s : State) (r : Nat)
    (hw : CabWf s.cab) : CabWf (s.endMeasure r).cab := by
  simp (contextual := true) (maxDischargeDepth := 100) [State.endMeasure, hw]
@[simp] theorem State.enterMeasure_cab (s : State) (r : Nat)
    (hw : CabWf s.cab) : CabWf (s.enterMeasure r).cab := by
  simp (contextual := true) (maxDischargeDepth := 100) [State.enterMeasure, hw]
@[simp] theorem State.judgeEnum_cab (s : State) (r : Nat) (assoc : List (BitVec 16))
    (hw : CabWf s.cab) : CabWf (s.judgeEnum r assoc).cab := by
  simp (contextual := true) (maxDischargeDepth := 100) [State.judgeEnum, hw]
@[simp] theorem State.enumProbeReturn_cab (s : State) (p : Fin 4) (rx : RxCell) (assoc : List (BitVec 16))
    (hw : CabWf s.cab) : CabWf (s.enumProbeReturn p rx assoc).cab := by
  simp (contextual := true) (maxDischargeDepth := 100) [State.enumProbeReturn, hw]
@[simp] theorem State.enumProbeTimeout_cab (s : State) (r : Fin 2) (assoc : List (BitVec 16))
    (hw : CabWf s.cab) : CabWf (s.enumProbeTimeout r assoc).cab := by
  simp (contextual := true) (maxDischargeDepth := 100) [State.enumProbeTimeout, hw]
@[simp] theorem State.restored_cab (s : State) (r : Nat)
    (hw : CabWf s.cab) : CabWf (s.restored r).cab := by
  simp (contextual := true) (maxDischargeDepth := 100) [State.restored, hw]
@[simp] theorem State.tailDelay_cab (s : State) (r : Nat) (n : Nat) (pd : W32) :
    (s.tailDelay r n pd).cab = s.cab := by
  simp [State.tailDelay]
@[simp] theorem State.echoResponse_cab (s : State) (p : Fin 4) (rx : RxCell)
    (hw : CabWf s.cab) : CabWf (s.echoResponse p rx).cab := by
  simp only [State.echoResponse]
  repeat' split
  all_goals simp (contextual := true) (maxDischargeDepth := 100) [*]
@[simp] theorem State.breakRing_cab (s : State) (r : Nat) (keep0 : Option Nat) (keep1 : Option Nat)
    (hw : CabWf s.cab) : CabWf (s.breakRing r keep0 keep1).cab := by
  simp (contextual := true) (maxDischargeDepth := 100) [State.breakRing, hw]
@[simp] theorem State.loseNode_cab (s : State) (r : Nat) (n : Nat)
    (hw : CabWf s.cab) : CabWf (s.loseNode r n).cab := by
  simp (contextual := true) (maxDischargeDepth := 100) [State.loseNode, hw]
@[simp] theorem State.located_cab (s : State) (r : Nat) (mx : Nat) (mn : Nat)
    (hw : CabWf s.cab) : CabWf (s.located r mx mn).cab := by
  simp (contextual := true) (maxDischargeDepth := 100) [State.located, hw]
@[simp] theorem State.locateEnd_cab (s : State) (r : Nat) (second : Bool) (v : Nat)
    (hw : CabWf s.cab) : CabWf (s.locateEnd r second v).cab := by
  simp only [State.locateEnd]
  repeat' split
  all_goals simp (contextual := true) (maxDischargeDepth := 100) [*]
@[simp] theorem State.cycleMarkTimeout_cab (s : State) (r : Fin 2)
    (hw : CabWf s.cab) : CabWf (s.cycleMarkTimeout r).cab := by
  simp (contextual := true) (maxDischargeDepth := 100) [State.cycleMarkTimeout, hw]
@[simp] theorem State.locateTimeout_cab (s : State) (r : Fin 2) (second : Bool)
    (hw : CabWf s.cab) : CabWf (s.locateTimeout r second).cab := by
  simp only [State.locateTimeout]
  repeat' split
  all_goals simp (contextual := true) (maxDischargeDepth := 100) [*]
@[simp] theorem State.sendUnfold_cab (s : State) (r : Nat) :
    (s.sendUnfold r).cab = s.cab := by
  simp [State.sendUnfold]
@[simp] theorem State.gapState_cab (s : State) (r : Nat) (n : Nat) (v : Nat) :
    (s.gapState r n v).cab = s.cab := by
  simp [State.gapState]
@[simp] theorem State.ringsAtT0_cab (s : State) :
    (State.ringsAtT0 s).cab = s.cab := by
  simp [State.ringsAtT0]
@[simp] theorem State.healEchoes_cab (s : State)
    (hw : CabWf s.cab) : CabWf (s.healEchoes).cab := by
  simp (contextual := true) (maxDischargeDepth := 100) [State.healEchoes, hw]
@[simp] theorem State.ringIntake_cab (s : State)
    (hw : CabWf s.cab) : CabWf (s.ringIntake).cab := by
  simp only [State.ringIntake]
  repeat' split
  all_goals simp (contextual := true) (maxDischargeDepth := 100) [*]
@[simp] theorem State.ringClose_cab (s : State) :
    (s.ringClose).cab = s.cab := by
  simp [State.ringClose]
@[simp] theorem State.ringRestore_cab (s : State) :
    (s.ringRestore).cab = s.cab := by
  simp [State.ringRestore]
@[simp] theorem State.autoIntake_cab (s : State) (r : Fin 2) :
    (s.autoIntake r).cab = s.cab := by
  simp [State.autoIntake]
@[simp] theorem State.ringPortLost_cab (s : State) (p : Nat)
    (hw : CabWf s.cab) : CabWf (s.ringPortLost p).cab := by
  simp only [State.ringPortLost]
  repeat' split
  all_goals simp (contextual := true) (maxDischargeDepth := 100) [*]
@[simp] theorem State.setLines_cab (s : State) (p : Nat) (x : Port)
    (hw : CabWf s.cab) : CabWf (s.setLines p x).cab := by
  simp (contextual := true) (maxDischargeDepth := 100) [State.setLines, hw]
@[simp] theorem State.portLockLoss_cab (s : State) (p : Fin 5) (lock : Bool) (los : Bool) (hiBer : Bool)
    (hw : CabWf s.cab) : CabWf (s.portLockLoss p lock los hiBer).cab := by
  simp (contextual := true) (maxDischargeDepth := 100) [State.portLockLoss, hw]
@[simp] theorem State.moduleAbsent_cab (s : State) (p : Fin 5) (absent : Bool)
    (hw : CabWf s.cab) : CabWf (s.moduleAbsent p absent).cab := by
  simp (contextual := true) (maxDischargeDepth := 100) [State.moduleAbsent, hw]
@[simp] theorem State.fetchCmd_cab (s : State) (op : BitVec 8) (d : Desc) :
    (s.fetchCmd op d).2.cab = s.cab := by
  simp [State.fetchCmd]
@[simp] theorem State.countGate_cab (s : State) (op : BitVec 8) (st : BitVec 16) :
    (s.countGate op st).cab = s.cab := by
  simp [State.countGate]
@[simp] theorem State.breakSeg_cab (s : State) (op : BitVec 8) (d : Desc) (g : Nat) :
    (s.breakSeg op d g).cab = s.cab := by
  unfold State.breakSeg
  repeat' split
  all_goals simp
@[simp] theorem State.breakSegs_cab (s : State) (op : BitVec 8) (d : Desc) :
    (s.breakSegs op d).cab = s.cab := by
  simp [State.breakSegs]
@[simp] theorem State.atHinge_cab (s : State) (op : BitVec 8) (d : Desc) (c : Option Cmd)
    (apply : Desc → Option Cmd → State → State)
    (ha : ∀ d c s, CabWf s.cab → CabWf (apply d c s).cab) (hw : CabWf s.cab) :
    CabWf (s.atHinge op d c apply).cab := by
  have hb : CabWf (s.breakSegs op d).cab := by simp [hw]
  unfold State.atHinge
  generalize s.breakSegs op d = t at hb
  dsimp only
  split
  · simp [hb]
  · exact ha _ _ _ hb
@[simp] theorem State.runDesc_cab (s : State) (op : BitVec 8) (d : Desc)
    (apply : Desc → Option Cmd → State → State)
    (ha : ∀ d c s, CabWf s.cab → CabWf (apply d c s).cab) (hw : CabWf s.cab) :
    CabWf (s.runDesc op d apply).cab := by
  have hf : CabWf (s.fetchCmd op d).2.cab := by simp [hw]
  unfold State.runDesc
  split
  · exact hw
  · rcases hq : s.fetchCmd op d with ⟨c, t⟩
    rw [hq] at hf
    simp only at hf ⊢
    split
    · simpa using hf
    · exact State.atHinge_cab _ _ _ _ _ ha hf
@[simp] theorem State.checkSrc_cab (s : State) :
    (s.checkSrc).cab = s.cab := by
  simp [State.checkSrc]
@[simp] theorem State.endSlew_cab (s : State) :
    (s.endSlew).cab = s.cab := by
  simp [State.endSlew]
@[simp] theorem State.jump_cab (s : State) (amount : Int)
    (hw : CabWf s.cab) : CabWf (s.jump amount).cab := by
  simp (contextual := true) (maxDischargeDepth := 100) [State.jump, hw]
@[simp] theorem State.askStep_cab (s : State) (amount : Int)
    (hw : CabWf s.cab) : CabWf (s.askStep amount).cab := by
  simp (contextual := true) (maxDischargeDepth := 100) [State.askStep, hw]
@[simp] theorem State.timeStepApply_cab (s : State)
    (hw : CabWf s.cab) : CabWf (s.timeStepApply).cab := by
  unfold State.timeStepApply
  repeat' split
  all_goals simp (contextual := true) (maxDischargeDepth := 100) [hw]
@[simp] theorem State.accepted_cab (s : State) (eff : Int)
    (hw : CabWf s.cab) : CabWf (s.accepted eff).cab := by
  unfold State.accepted
  repeat' split
  all_goals simp (contextual := true) (maxDischargeDepth := 100) [hw]
@[simp] theorem State.servoAccept_cab (s : State) (eff : Int)
    (hw : CabWf s.cab) : CabWf (s.servoAccept eff).cab := by
  simp (contextual := true) (maxDischargeDepth := 100) [State.servoAccept, hw]
@[simp] theorem State.servoRefuse_cab (s : State) (eff : Int)
    (hw : CabWf s.cab) : CabWf (s.servoRefuse eff).cab := by
  simp (contextual := true) (maxDischargeDepth := 100) [State.servoRefuse, hw]
@[simp] theorem State.measure_cab (s : State) (theta : Int)
    (hw : CabWf s.cab) : CabWf (s.measure theta).cab := by
  simp (contextual := true) (maxDischargeDepth := 100) [State.measure, hw]
@[simp] theorem State.intoHoldover_cab (s : State) :
    (s.intoHoldover).cab = s.cab := by
  simp [State.intoHoldover]
@[simp] theorem State.holdoverTimeout_cab (s : State)
    (hw : CabWf s.cab) : CabWf (s.holdoverTimeout).cab := by
  simp (contextual := true) (maxDischargeDepth := 100) [State.holdoverTimeout, hw]
@[simp] theorem State.newMaster_cab (s : State) (gm : W64)
    (hw : CabWf s.cab) : CabWf (s.newMaster gm).cab := by
  simp (contextual := true) (maxDischargeDepth := 100) [State.newMaster, hw]
@[simp] theorem State.ptpStamp_cab (s : State) :
    (s.ptpStamp).2.cab = s.cab := by
  simp [State.ptpStamp]
@[simp] theorem State.syncTimed_cab (s : State) (took : Int)
    (hw : CabWf s.cab) : CabWf (s.syncTimed took).cab := by
  simp (contextual := true) (maxDischargeDepth := 100) [State.syncTimed, hw]
@[simp] theorem State.newMpd_cab (s : State) (twice : Int) :
    (s.newMpd twice).cab = s.cab := by
  simp [State.newMpd]
@[simp] theorem State.askDelay_cab (s : State) :
    (s.askDelay).cab = s.cab := by
  simp [State.askDelay]
@[simp] theorem State.answerPdelay_cab (s : State) (q : BitVec 16) :
    (s.answerPdelay q).cab = s.cab := by
  simp [State.answerPdelay]
@[simp] theorem State.ptp_cab (s : State) (m : PtpMsg)
    (hw : CabWf s.cab) : CabWf (s.ptp m).cab := by
  simp only [State.ptp]
  repeat' split
  all_goals simp (contextual := true) (maxDischargeDepth := 100) [*]
@[simp] theorem applyTimeSlew_cab (d : Desc) (c : Option Cmd) (s : State) :
    (applyTimeSlew d c s).cab = s.cab := by
  simp [applyTimeSlew]
@[simp] theorem applyTimeStep_cab (d : Desc) (c : Option Cmd) (s : State)
    (hw : CabWf s.cab) : CabWf (applyTimeStep d c s).cab := by
  simp only [applyTimeStep]
  repeat' split
  all_goals simp (contextual := true) (maxDischargeDepth := 100) [*]
@[simp] theorem State.btWrap_cab (s : State)
    (hw : CabWf s.cab) : CabWf (s.btWrap).cab := by
  simp (contextual := true) (maxDischargeDepth := 100) [State.btWrap, hw]
@[simp] theorem State.timeInfoBroadcast_cab (s : State) :
    (s.timeInfoBroadcast).cab = s.cab := by
  simp [State.timeInfoBroadcast]
@[simp] theorem State.noteWritten_cab (s : State) (c : Nat) (ws : List Nat) :
    (s.noteWritten c ws).cab = s.cab := by
  simp [State.noteWritten]
@[simp] theorem applyParamWrite_cab (d : Desc) (cmd : Option Cmd) (s : State)
    (hw : CabWf s.cab) : CabWf (applyParamWrite d cmd s).cab := by
  simp only [applyParamWrite]
  repeat' split
  all_goals simp (contextual := true) (maxDischargeDepth := 100) [*]
@[simp] theorem applyParamRead_cab (d : Desc) (cmd : Option Cmd) (s : State) :
    (applyParamRead d cmd s).cab = s.cab := by
  simp [applyParamRead]
@[simp] theorem State.sendTwin_cab (s : State) (c : Cell) :
    (s.sendTwin c).cab = s.cab := by
  simp [State.sendTwin]
@[simp] theorem State.enterTwin_cab (s : State) (t : TwinSt) (cause : Nat) :
    (s.enterTwin t cause).cab = s.cab := by
  simp [State.enterTwin]
@[simp] theorem State.enterJoining_cab (s : State) :
    (s.enterJoining).cab = s.cab := by
  simp [State.enterJoining]
@[simp] theorem State.diverge_cab (s : State) (cause : Nat) (ctx : Nat)
    (hw : CabWf s.cab) : CabWf (s.diverge cause ctx).cab := by
  simp (contextual := true) (maxDischargeDepth := 100) [State.diverge, hw]
@[simp] theorem State.mirrorOut_cab (s : State) (op : BitVec 8) (d : Desc) (seq : BitVec 16) :
    (s.mirrorOut op d seq).cab = s.cab := by
  simp [State.mirrorOut]
@[simp] theorem State.sendHeart_cab (s : State) :
    (s.sendHeart).cab = s.cab := by
  simp [State.sendHeart]
@[simp] theorem State.sendCopy_cab (s : State) (kind : Nat) (n : Nat) (first : Nat) (ws : List W24) :
    (s.sendCopy kind n first ws).cab = s.cab := by
  simp [State.sendCopy]
@[simp] theorem State.sendCopies_cab (s : State) :
    (s.sendCopies).cab = s.cab := by
  simp [State.sendCopies]
@[simp] theorem State.joinBy_cab (s : State) (m : BitVec 16)
    (hw : CabWf s.cab) : CabWf (s.joinBy m).cab := by
  simp (contextual := true) (maxDischargeDepth := 100) [State.joinBy, hw]
@[simp] theorem State.takeTable_cab (s : State) (t : NodeTable) :
    (s.takeTable t).cab = s.cab := by
  unfold State.takeTable
  split
  · rfl
  · simp only [State.nextEcho]
    split <;> simp
@[simp] theorem State.twHeartReceive_cab (s : State) (rx : RxCell) (tables : List NodeTable)
    (hw : CabWf s.cab) : CabWf (s.twHeartReceive rx tables).cab := by
  simp only [State.twHeartReceive]
  repeat' split
  all_goals simp (contextual := true) (maxDischargeDepth := 100) [*]
@[simp] theorem State.heartbeatMiss_cab (s : State)
    (hw : CabWf s.cab) : CabWf (s.heartbeatMiss).cab := by
  simp (contextual := true) (maxDischargeDepth := 100) [State.heartbeatMiss, hw]
@[simp] theorem State.mirrorIn_cab (s : State) (m : Mirror)
    (hw : CabWf s.cab) : CabWf (s.mirrorIn m).cab := by
  simp (contextual := true) (maxDischargeDepth := 100) [State.mirrorIn, hw]
@[simp] theorem State.twDescReceive_cab (s : State) (rx : RxCell)
    (hw : CabWf s.cab) : CabWf (s.twDescReceive rx).cab := by
  simp only [State.twDescReceive]
  repeat' split
  all_goals simp (contextual := true) (maxDischargeDepth := 100) [*]
@[simp] theorem State.ownDigest_cab (s : State) (ctx : Nat) (c : Cell) :
    (s.ownDigest ctx c).cab = s.cab := by
  simp [State.ownDigest]
@[simp] theorem State.sendDigests_cab (s : State) :
    (s.sendDigests).cab = s.cab := by
  simp [State.sendDigests]
@[simp] theorem State.compareDigest_cab (s : State) (ctx : Nat) (theirs : W32)
    (hw : CabWf s.cab) : CabWf (s.compareDigest ctx theirs).cab := by
  unfold State.compareDigest
  repeat' split
  all_goals simp (contextual := true) (maxDischargeDepth := 100) [hw]
@[simp] theorem State.copyDrawer_cab (s : State) (ctx : Nat) (w : Nat) (v : W24)
    (hw : CabWf s.cab) : CabWf (s.copyDrawer ctx w v).cab := by
  simp (contextual := true) (maxDischargeDepth := 100) [State.copyDrawer, hw]
@[simp] theorem State.twCopyReceive_cab (s : State) (rx : RxCell) (enabled : Bool)
    (hw : CabWf s.cab) : CabWf (s.twCopyReceive rx enabled).cab := by
  simp (contextual := true) (maxDischargeDepth := 100) [State.twCopyReceive, hw]
@[simp] theorem State.syncCopied_cab (s : State) :
    (s.syncCopied).cab = s.cab := by
  simp [State.syncCopied]
@[simp] theorem State.partnerGap_cab (s : State) :
    (s.partnerGap).cab = s.cab := by
  simp [State.partnerGap]
@[simp] theorem State.switchOver_cab (s : State) (claim : BitVec 8)
    (hw : CabWf s.cab) : CabWf (s.switchOver claim).cab := by
  simp (contextual := true) (maxDischargeDepth := 100) [State.switchOver, hw]
@[simp] theorem State.applySwitch_cab (s : State)
    (hw : CabWf s.cab) : CabWf (s.applySwitch).cab := by
  unfold State.applySwitch
  repeat' split
  all_goals simp (contextual := true) (maxDischargeDepth := 100) [hw]
@[simp] theorem State.twinAtT0_cab (s : State)
    (hw : CabWf s.cab) : CabWf (State.twinAtT0 s).cab := by
  simp (contextual := true) (maxDischargeDepth := 100) [State.twinAtT0, hw]
@[simp] theorem applyTwinSwitch_cab (x : Desc) (c : Option Cmd) (s : State) :
    (applyTwinSwitch x c s).cab = s.cab := by
  simp [applyTwinSwitch]
@[simp] theorem applyTwinClaim_cab (d : Desc) (c : Option Cmd) (s : State) :
    (applyTwinClaim d c s).cab = s.cab := by
  simp [applyTwinClaim]
@[simp] theorem applyTwinRejoin_cab (x : Desc) (c : Option Cmd) (s : State) :
    (applyTwinRejoin x c s).cab = s.cab := by
  simp [applyTwinRejoin]
@[simp] theorem State.noteMix_cab (s : State) :
    (s.noteMix).cab = s.cab := by
  simp [State.noteMix]
@[simp] theorem State.mixPoll_cab (s : State) :
    (s.mixPoll).cab = s.cab := by
  simp [State.mixPoll]
@[simp] theorem State.mixCount_cab (s : State) (r : Nat) (n : Nat) (v : W32) :
    (s.mixCount r n v).cab = s.cab := by
  simp [State.mixCount]
@[simp] theorem State.mixSlots_cab (s : State) (r : Nat) (n : Nat) (v : W32)
    (hw : CabWf s.cab) : CabWf (s.mixSlots r n v).cab := by
  simp (contextual := true) (maxDischargeDepth := 100) [State.mixSlots, hw]
@[simp] theorem State.enableRefused_cab (s : State) (m : Nat)
    (hw : CabWf s.cab) : CabWf (s.enableRefused m).cab := by
  simp (contextual := true) (maxDischargeDepth := 100) [State.enableRefused, hw]
@[simp] theorem State.pwmTrip_cab (s : State) (m : Nat)
    (hw : CabWf s.cab) : CabWf (s.pwmTrip m).cab := by
  simp (contextual := true) (maxDischargeDepth := 100) [State.pwmTrip, hw]
@[simp] theorem State.tripAll_cab (s : State)
    (hw : CabWf s.cab) : CabWf (s.tripAll).cab := by
  simp (contextual := true) (maxDischargeDepth := 100) [State.tripAll, hw]
@[simp] theorem State.landDuty_cab (s : State) (m : Nat) (ws : List W24)
    (hw : CabWf s.cab) : CabWf (s.landDuty m ws).cab := by
  unfold State.landDuty
  repeat' split
  all_goals simp (contextual := true) (maxDischargeDepth := 100) [hw]
@[simp] theorem State.reload_cab (s : State) (m : Nat) (t : Rat)
    (hw : CabWf s.cab) : CabWf (s.reload m t).1.cab := by
  simp (contextual := true) (maxDischargeDepth := 100) [State.reload, hw]
@[simp] theorem State.satCarry_cab (s : State) (m : Nat) (k : Nat) (p : PwmPhase) (arg : Int)
    (hw : CabWf s.cab) : CabWf (s.satCarry m k p arg).cab := by
  simp (contextual := true) (maxDischargeDepth := 100) [State.satCarry, hw]
@[simp] theorem State.decideZero_cab (s : State) (m : Nat) (k : Nat)
    (hw : CabWf s.cab) : CabWf (s.decideZero m k).cab := by
  simp (contextual := true) (maxDischargeDepth := 100) [State.decideZero, hw]
@[simp] theorem State.decideCentre_cab (s : State) (m : Nat) (k : Nat)
    (hw : CabWf s.cab) : CabWf (s.decideCentre m k).cab := by
  simp (contextual := true) (maxDischargeDepth := 100) [State.decideCentre, hw]
@[simp] theorem State.beginPeriod_cab (s : State) (m : Nat) (t : Rat)
    (hw : CabWf s.cab) : CabWf (s.beginPeriod m t).cab := by
  simp (contextual := true) (maxDischargeDepth := 100) [State.beginPeriod, hw]
@[simp] theorem State.pwmCentre_cab (s : State) (m : Fin 8)
    (hw : CabWf s.cab) : CabWf (s.pwmCentre m).cab := by
  simp (contextual := true) (maxDischargeDepth := 100) [State.pwmCentre, hw]
@[simp] theorem State.pwmSync_cab (s : State) (m : Nat) (now : Rat) :
    (s.pwmSync m now).cab = s.cab := by
  simp [State.pwmSync]
@[simp] theorem State.pwmEnter_cab (s : State) (m : Nat)
    (hw : CabWf s.cab) : CabWf (s.pwmEnter m).cab := by
  simp (contextual := true) (maxDischargeDepth := 100) [State.pwmEnter, hw]
@[simp] theorem State.pwmEnters_cab (s : State)
    (hw : CabWf s.cab) : CabWf (s.pwmEnters).cab := by
  simp (contextual := true) (maxDischargeDepth := 100) [State.pwmEnters, hw]
@[simp] theorem State.pwmHinge_cab (s : State)
    (hw : CabWf s.cab) : CabWf (s.pwmHinge).cab := by
  simp (contextual := true) (maxDischargeDepth := 100) [State.pwmHinge, hw]
@[simp] theorem State.pwmFaultTrip_cab (s : State) (flt : BitVec 8)
    (hw : CabWf s.cab) : CabWf (s.pwmFaultTrip flt).cab := by
  simp (contextual := true) (maxDischargeDepth := 100) [State.pwmFaultTrip, hw]
@[simp] theorem State.pwmEnable_cab (s : State)
    (hw : CabWf s.cab) : CabWf (s.pwmEnable).cab := by
  simp (contextual := true) (maxDischargeDepth := 100) [State.pwmEnable, hw]
@[simp] theorem State.pwmDisable_cab (s : State) :
    (s.pwmDisable).cab = s.cab := by
  simp [State.pwmDisable]
@[simp] theorem State.fltLatchClear_cab (s : State) (v : W32) :
    (s.fltLatchClear v).cab = s.cab := by
  simp [State.fltLatchClear]
@[simp] theorem State.pwmLatch_cab (s : State) (v : W32) :
    (s.pwmLatch v).cab = s.cab := by
  simp [State.pwmLatch]
@[simp] theorem State.supersede_cab (s : State) (c : Nat) :
    (s.supersede c).cab = s.cab := by
  simp [State.supersede]
@[simp] theorem State.begin_cab (s : State) (c : Nat) (m : AxMode) (pl : Plan) (cmd : Option Cmd) :
    (s.begin c m pl cmd).cab = s.cab := by
  simp [State.begin]
@[simp] theorem State.enter_cab (s : State) (c : Nat) (m : AxMode) (cmd : Option Cmd) :
    (s.enter c m cmd).cab = s.cab := by
  simp [State.enter]
@[simp] theorem State.clearNotches_cab (s : State) (c : Nat)
    (hw : CabWf s.cab) : CabWf (s.clearNotches c).cab := by
  simp (contextual := true) (maxDischargeDepth := 100) [State.clearNotches, hw]
@[simp] theorem State.initLaw_cab (s : State) (c : Nat)
    (hw : CabWf s.cab) : CabWf (s.initLaw c).cab := by
  simp (contextual := true) (maxDischargeDepth := 100) [State.initLaw, hw]
@[simp] theorem State.leaveGroup_cab (s : State) (c : Nat) :
    (s.leaveGroup c).cab = s.cab := by
  unfold State.leaveGroup
  repeat' split
  all_goals simp
@[simp] theorem State.enableAxis_cab (s : State) (c : Nat)
    (hw : CabWf s.cab) : CabWf (s.enableAxis c).cab := by
  simp (contextual := true) (maxDischargeDepth := 100) [State.enableAxis, hw]
@[simp] theorem applyAxEnable_cab (d : Desc) (cmd : Option Cmd) (s : State)
    (hw : CabWf s.cab) : CabWf (applyAxEnable d cmd s).cab := by
  simp (contextual := true) (maxDischargeDepth := 100) [applyAxEnable, hw]
@[simp] theorem State.move_cab (s : State) (c : Nat) (d : Desc) (cmd : Option Cmd) (k : Kin) (t : Int) :
    (s.move c d cmd k t).cab = s.cab := by
  unfold State.move
  repeat' split
  all_goals simp
@[simp] theorem State.moveVel_cab (s : State) (c : Nat) (d : Desc) (cmd : Option Cmd) (k : Kin) (t : Int) :
    (s.moveVel c d cmd k t).cab = s.cab := by
  rw [State.moveVel]
  split
  · simp
  · extract_lets
    split <;> simp
@[simp] theorem State.moveCam_cab (s : State) (c : Nat) (d : Desc) (cmd : Option Cmd) (k : Kin) (t : Int) :
    (s.moveCam c d cmd k t).cab = s.cab := by
  simp [State.moveCam]
@[simp] theorem State.hold_cab (s : State) (c : Nat) (op : BitVec 8) (d : Desc) (cmd : Option Cmd) :
    (s.hold c op d cmd).cab = s.cab := by
  unfold State.hold
  repeat' split
  all_goals simp
@[simp] theorem State.moveOrHold_cab (s : State) (op : BitVec 8) (d : Desc) (cmd : Option Cmd)
    (go : Nat → Desc → Option Cmd → Kin → Int → State)
    (hg : ∀ a b c d e, (go a b c d e).cab = s.cab) :
    (s.moveOrHold op d cmd go).cab = s.cab := by
  simp only [State.moveOrHold]
  split
  · simp
  · split
    · simp
    · exact hg _ _ _ _ _
@[simp] theorem applyAxMove_cab (d : Desc) (cmd : Option Cmd) (s : State) :
    (applyAxMove d cmd s).cab = s.cab := by
  simp [applyAxMove]
@[simp] theorem applyAxVel_cab (d : Desc) (cmd : Option Cmd) (s : State) :
    (applyAxVel d cmd s).cab = s.cab := by
  simp [applyAxVel]
@[simp] theorem applyAxCam_cab (d : Desc) (cmd : Option Cmd) (s : State) :
    (applyAxCam d cmd s).cab = s.cab := by
  simp [applyAxCam]
@[simp] theorem applyAxPvt_cab (d : Desc) (cmd : Option Cmd) (s : State) :
    (applyAxPvt d cmd s).cab = s.cab := by
  simp only [applyAxPvt]
  repeat' split
  all_goals simp_all
@[simp] theorem applyAxStep_cab (d : Desc) (cmd : Option Cmd) (s : State) :
    (applyAxStep d cmd s).cab = s.cab := by
  simp only [applyAxStep]
  repeat' split
  all_goals simp_all
@[simp] theorem applyAxGear_cab (d : Desc) (cmd : Option Cmd) (s : State) :
    (applyAxGear d cmd s).cab = s.cab := by
  simp only [applyAxGear]
  repeat' split
  all_goals simp_all
@[simp] theorem applyAxStop_cab (d : Desc) (cmd : Option Cmd) (s : State) :
    (applyAxStop d cmd s).cab = s.cab := by
  simp only [applyAxStop]
  repeat' split
  all_goals simp_all
@[simp] theorem applyHmStart_cab (d : Desc) (cmd : Option Cmd) (s : State)
    (hw : CabWf s.cab) : CabWf (applyHmStart d cmd s).cab := by
  simp only [applyHmStart]
  repeat' split
  all_goals simp (contextual := true) (maxDischargeDepth := 100) [*]
@[simp] theorem applyHmSet_cab (d : Desc) (cmd : Option Cmd) (s : State)
    (hw : CabWf s.cab) : CabWf (applyHmSet d cmd s).cab := by
  simp only [applyHmSet]
  repeat' split
  all_goals simp (contextual := true) (maxDischargeDepth := 100) [*]
@[simp] theorem applyLimClear_cab (d : Desc) (cmd : Option Cmd) (s : State) :
    (applyLimClear d cmd s).cab = s.cab := by
  simp only [applyLimClear]
  repeat' split
  all_goals simp_all
@[simp] theorem applyCtLoad_cab (d : Desc) (cmd : Option Cmd) (s : State) :
    (applyCtLoad d cmd s).cab = s.cab := by
  simp [applyCtLoad]
@[simp] theorem applyCtCommit_cab (d : Desc) (cmd : Option Cmd) (s : State) :
    (applyCtCommit d cmd s).cab = s.cab := by
  simp [applyCtCommit]
@[simp] theorem applyVmSet_cab (d : Desc) (cmd : Option Cmd) (s : State) :
    (applyVmSet d cmd s).cab = s.cab := by
  simp [applyVmSet]
@[simp] theorem State.drawerUe_cab (s : State) (c : Nat) (w : Nat) :
    (s.drawerUe c w).cab = s.cab := by
  unfold State.drawerUe
  repeat' split
  all_goals simp
@[simp] theorem State.drawerBad_cab (s : State) (c : Nat) (w : Nat)
    (hw : CabWf s.cab) : CabWf (s.drawerBad c w).cab := by
  simp (contextual := true) (maxDischargeDepth := 100) [State.drawerBad, hw]
@[simp] theorem State.foundMarked_cab (s : State) (c : Nat)
    (hw : CabWf s.cab) : CabWf (s.foundMarked c).cab := by
  unfold State.foundMarked
  repeat' split
  all_goals simp (contextual := true) (maxDischargeDepth := 100) [hw]
@[simp] theorem State.evict_cab (s : State) (e : Nat) (k : Nat)
    (hw : CabWf s.cab) : CabWf (s.evict e k).cab := by
  simp (contextual := true) (maxDischargeDepth := 100) [State.evict, hw]
@[simp] theorem State.bringDrawer_cab (s : State) (c : Nat) (e : Nat)
    (hw : CabWf s.cab) : CabWf (s.bringDrawer c e).1.cab := by
  unfold State.bringDrawer
  repeat' split
  all_goals simp (contextual := true) (maxDischargeDepth := 100) [hw]
@[simp] theorem State.flagsSeen_cab (s : State) (c : Nat)
    (hw : CabWf s.cab) : CabWf (s.flagsSeen c).cab := by
  simp (contextual := true) (maxDischargeDepth := 100) [State.flagsSeen, hw]
@[simp] theorem State.dispatchTo_cab (s : State) (e : Nat) (k : Nat) (c : Nat) (i : Nat) (x : StageRun) (ecc : Option (Fin 1024))
    (hw : CabWf s.cab) : CabWf (s.dispatchTo e k c i x ecc).cab := by
  simp (contextual := true) (maxDischargeDepth := 100) [State.dispatchTo, hw]
@[simp] theorem State.readyOnCredit_cab (s : State) (c : Nat) (i : Nat) :
    (s.readyOnCredit c i).cab = s.cab := by
  unfold State.readyOnCredit
  repeat' split
  all_goals simp
@[simp] theorem State.shelfCredit_cab (s : State) :
    (s.shelfCredit).cab = s.cab := by
  simp [State.shelfCredit]
@[simp] theorem State.markTok_cab (s : State) (c : Nat) (j : Nat) :
    (s.markTok c j).cab = s.cab := by
  unfold State.markTok
  repeat' split
  all_goals simp
@[simp] theorem State.waive_cab (s : State) (c : Nat) (i : Nat) :
    (s.waive c i).cab = s.cab := by
  unfold State.waive
  repeat' split
  all_goals simp
@[simp] theorem State.settle_cab (s : State) (c : Nat) (i : Nat) :
    (s.settle c i).cab = s.cab := by
  unfold State.settle
  repeat' split
  all_goals simp
@[simp] theorem State.cancelRun_cab (s : State) (c : Nat) :
    (s.cancelRun c).cab = s.cab := by
  unfold State.cancelRun
  repeat' split
  all_goals simp
@[simp] theorem State.tokLatch_cab (s : State) :
    (s.tokLatch).cab = s.cab := by
  simp [State.tokLatch]
@[simp] theorem State.assignHome_cab (s : State) (c : Nat) :
    (s.assignHome c).cab = s.cab := by
  simp only [State.assignHome]
  repeat' split
  all_goals simp_all
@[simp] theorem State.countWindow_cab (s : State) :
    (s.countWindow).cab = s.cab := by
  simp [State.countWindow]
@[simp] theorem State.planMoves_cab (s : State) (plan : List (List Move)) (h : Nat) (diff : Nat)
    (hw : CabWf s.cab) : CabWf (s.planMoves plan h diff).cab := by
  unfold State.planMoves
  dsimp only
  split <;> simp [hw]
@[simp] theorem State.compareLoads_cab (s : State) (plan : List (List Move))
    (hw : CabWf s.cab) : CabWf (s.compareLoads plan).cab := by
  unfold State.compareLoads
  split
  · dsimp only
    split <;> simp [hw]
  · exact hw
@[simp] theorem State.wakeCluster_cab (s : State)
    (hw : CabWf s.cab) : CabWf (s.wakeCluster).cab := by
  unfold State.wakeCluster
  repeat' split
  all_goals simp (contextual := true) (maxDischargeDepth := 100) [hw]
@[simp] theorem State.placement_cab (s : State) (plan : List (List Move)) (empty : Option Nat)
    (hw : CabWf s.cab) : CabWf (s.placement plan empty).cab := by
  unfold State.placement
  repeat' split
  all_goals simp (contextual := true) (maxDischargeDepth := 100) [hw]
@[simp] theorem State.migrate_cab (s : State) (m : Move)
    (hw : CabWf s.cab) : CabWf (s.migrate m).cab := by
  simp (contextual := true) (maxDischargeDepth := 100) [State.migrate, hw]
@[simp] theorem State.dropSegs_cab (s : State) (g : Nat) (st : BitVec 16) :
    (s.dropSegs g st).cab = s.cab := by
  simp [State.dropSegs]
@[simp] theorem State.toRest_cab (s : State) (c : Nat) (rest : AxMode) (move : AxMode) (g : Option Nat) :
    (s.toRest c rest move g).cab = s.cab := by
  simp [State.toRest]
@[simp] theorem State.release_cab (s : State) (c : Nat) :
    (s.release c).cab = s.cab := by
  simp [State.release]
@[simp] theorem State.joinGroup_cab (s : State) (g : Nat) (c : Nat) :
    (s.joinGroup g c).cab = s.cab := by
  simp [State.joinGroup]
@[simp] theorem applyGrpDefine_cab (d : Desc) (cmd : Option Cmd) (s : State) :
    (applyGrpDefine d cmd s).cab = s.cab := by
  simp [applyGrpDefine]
@[simp] theorem State.startPath_cab (s : State) (g : Nat) (t : Int) :
    (s.startPath g t).cab = s.cab := by
  simp [State.startPath]
@[simp] theorem State.stopPath_cab (s : State) (g : Nat) (st : GrpSt) :
    (s.stopPath g st).cab = s.cab := by
  simp [State.stopPath]
@[simp] theorem State.passSegs_cab (a : Nat) (u1 : State) (u2 : Nat) (u3 : Kin) (u4 : Bool) :
    (State.passSegs a u1 u2 u3 u4).cab = u1.cab := by
  induction a generalizing u1 u2 u3 u4 with
  | zero => rfl
  | succ n ih =>
    simp only [State.passSegs]
    repeat' split
    all_goals simp [ih]
@[simp] theorem State.moveMembers_cab (s : State) (g : Nat) (k : Kin) :
    (s.moveMembers g k).cab = s.cab := by
  simp only [State.moveMembers]
  repeat' split
  all_goals simp_all
@[simp] theorem State.capPath_cab (s : State) (g : Nat) :
    (s.capPath g).cab = s.cab := by
  simp only [State.capPath]
  repeat' split
  all_goals simp_all
@[simp] theorem State.groupRun_cab (s : State) (g : Nat) :
    (s.groupRun g).cab = s.cab := by
  simp only [State.groupRun]
  repeat' split
  all_goals simp_all
@[simp] theorem State.queueSeg_cab (s : State) (g : Nat) (q : Seg) :
    (s.queueSeg g q).cab = s.cab := by
  simp only [State.queueSeg]
  repeat' split
  all_goals simp_all
@[simp] theorem State.openSeg_cab (s : State) (g : Nat) (sq : BitVec 6) (q : Seg) :
    (s.openSeg g sq q).cab = s.cab := by
  simp only [State.openSeg]
  repeat' split
  all_goals simp_all
@[simp] theorem applyGrpLine_cab (d : Desc) (cmd : Option Cmd) (s : State) :
    (applyGrpLine d cmd s).cab = s.cab := by
  simp [applyGrpLine]
@[simp] theorem applyGrpArc_cab (d : Desc) (cmd : Option Cmd) (s : State) :
    (applyGrpArc d cmd s).cab = s.cab := by
  simp [applyGrpArc]
@[simp] theorem applyGrpPos_cab (d : Desc) (cmd : Option Cmd) (s : State) :
    (applyGrpPos d cmd s).cab = s.cab := by
  simp only [applyGrpPos]
  repeat' split
  all_goals simp_all
@[simp] theorem applyGrpHold_cab (d : Desc) (cmd : Option Cmd) (s : State) :
    (applyGrpHold d cmd s).cab = s.cab := by
  simp only [applyGrpHold]
  repeat' split
  all_goals simp_all
@[simp] theorem applyGrpResume_cab (d : Desc) (cmd : Option Cmd) (s : State) :
    (applyGrpResume d cmd s).cab = s.cab := by
  simp only [applyGrpResume]
  repeat' split
  all_goals simp_all
@[simp] theorem State.flushGroup_cab (s : State) (g : Nat) :
    (s.flushGroup g).cab = s.cab := by
  simp [State.flushGroup]
@[simp] theorem applyGrpFlush_cab (d : Desc) (cmd : Option Cmd) (s : State) :
    (applyGrpFlush d cmd s).cab = s.cab := by
  simp [applyGrpFlush]
@[simp] theorem State.setGuard_cab (s : State) (b : Bool) (g : Guard) :
    (s.setGuard b g).cab = s.cab := by
  simp [State.setGuard]
@[simp] theorem State.putSw_cab (s : State) (b : Bool) (n : Nat) (x : BrkSw) :
    (s.putSw b n x).cab = s.cab := by
  simp [State.putSw]
@[simp] theorem State.driveBrakes_cab (s : State) :
    (s.driveBrakes).cab = s.cab := by
  simp [State.driveBrakes]
@[simp] theorem State.putMap2_cab (s : State) (v : W32) (st : W32) :
    (State.putMap2 s v st).cab = s.cab := by
  simp [State.putMap2]
@[simp] theorem State.mapToEn_cab (s : State) :
    (s.mapToEn).cab = s.cab := by
  simp [State.mapToEn]
@[simp] theorem State.putDemands_cab (s : State) :
    (s.putDemands).cab = s.cab := by
  simp [State.putDemands]
@[simp] theorem State.driveTo_cab (s : State)
    (hw : CabWf s.cab) : CabWf (s.driveTo).cab := by
  simp (contextual := true) (maxDischargeDepth := 100) [State.driveTo, hw]
@[simp] theorem State.engaged_cab (s : State) (c : Nat)
    (hw : CabWf s.cab) : CabWf (s.engaged c).cab := by
  simp (contextual := true) (maxDischargeDepth := 100) [State.engaged, hw]
@[simp] theorem State.setGrants_cab (s : State) (b : Bool) (grants : List Nat) (blocked : List Nat)
    (hw : CabWf s.cab) : CabWf (s.setGrants b grants blocked).cab := by
  simp (contextual := true) (maxDischargeDepth := 100) [State.setGrants, hw]
@[simp] theorem State.regrant_cab (s : State) (b : Bool)
    (hw : CabWf s.cab) : CabWf (s.regrant b).cab := by
  simp (contextual := true) (maxDischargeDepth := 100) [State.regrant, hw]
@[simp] theorem State.logGuard_cab (s : State) (b : Bool) (sealed_ : Bool) (op : Nat) (id : Nat) (v : W32)
    (hw : CabWf s.cab) : CabWf (s.logGuard b sealed_ op id v).cab := by
  simp (contextual := true) (maxDischargeDepth := 100) [State.logGuard, hw]
@[simp] theorem State.takeWrite_cab (s : State) (b : Bool) (w : GWrite)
    (hw : CabWf s.cab) : CabWf (s.takeWrite b w).cab := by
  simp (contextual := true) (maxDischargeDepth := 100) [State.takeWrite, hw]
@[simp] theorem State.takeWrites_cab (s : State) (b : Bool)
    (hw : CabWf s.cab) : CabWf (s.takeWrites b).cab := by
  simp (contextual := true) (maxDischargeDepth := 100) [State.takeWrites, hw]
@[simp] theorem State.sbtTorque_cab (s : State) (c : Nat) (t : Option Rat) :
    (s.sbtTorque c t).cab = s.cab := by
  simp [State.sbtTorque]
@[simp] theorem State.sbtFail_cab (s : State)
    (hw : CabWf s.cab) : CabWf (s.sbtFail).cab := by
  unfold State.sbtFail
  repeat' split
  all_goals simp (contextual := true) (maxDischargeDepth := 100) [hw]
@[simp] theorem State.sbtCheck_cab (s : State)
    (hw : CabWf s.cab) : CabWf (s.sbtCheck).cab := by
  unfold State.sbtCheck
  repeat' split
  all_goals simp (contextual := true) (maxDischargeDepth := 100) [hw]
@[simp] theorem State.guardMode_cab (s : State) (b : Bool) (t : GuardSt)
    (hw : CabWf s.cab) : CabWf (s.guardMode b t).cab := by
  simp (contextual := true) (maxDischargeDepth := 100) [State.guardMode, hw]
@[simp] theorem State.guardSeal_cab (s : State) (b : Bool)
    (hw : CabWf s.cab) : CabWf (s.guardSeal b).cab := by
  simp (contextual := true) (maxDischargeDepth := 100) [State.guardSeal, hw]
@[simp] theorem State.guardSafe_cab (s : State) (b : Bool) (cause : Nat)
    (hw : CabWf s.cab) : CabWf (s.guardSafe b cause).cab := by
  unfold State.guardSafe
  repeat' split
  all_goals simp (contextual := true) (maxDischargeDepth := 100) [hw]
@[simp] theorem State.followSeals_cab (s : State) (b : Bool)
    (hw : CabWf s.cab) : CabWf (s.followSeals b).cab := by
  simp (contextual := true) (maxDischargeDepth := 100) [State.followSeals, hw]
@[simp] theorem State.sealChange_cab (s : State) (a : Bool) (b : Bool)
    (hw : CabWf s.cab) : CabWf (s.sealChange a b).cab := by
  simp (contextual := true) (maxDischargeDepth := 100) [State.sealChange, hw]
@[simp] theorem State.safeInputFilter_cab (s : State) (b : Bool) (k : Fin 8) (demand : Bool)
    (hw : CabWf s.cab) : CabWf (s.safeInputFilter b k demand).cab := by
  simp (contextual := true) (maxDischargeDepth := 100) [State.safeInputFilter, hw]
@[simp] theorem State.siDiscrepancy_cab (s : State) (k : Fin 8)
    (hw : CabWf s.cab) : CabWf (s.siDiscrepancy k).cab := by
  unfold State.siDiscrepancy
  repeat' split
  all_goals simp (contextual := true) (maxDischargeDepth := 100) [hw]
@[simp] theorem State.swFault_cab (s : State) (b : Bool) (n : Nat) (bit : Nat) (code : BitVec 16) (present : Bool)
    (hw : CabWf s.cab) : CabWf (s.swFault b n bit code present).cab := by
  simp (contextual := true) (maxDischargeDepth := 100) [State.swFault, hw]
@[simp] theorem State.brakeOverload_cab (s : State) (present : Bool)
    (hw : CabWf s.cab) : CabWf (s.brakeOverload present).cab := by
  simp (contextual := true) (maxDischargeDepth := 100) [State.brakeOverload, hw]
@[simp] theorem State.judgePulse_cab (s : State) (b : Bool) (pass : Bool) :
    (s.judgePulse b pass).cab = s.cab := by
  simp [State.judgePulse]
@[simp] theorem State.checkMap_cab (s : State) (b : Bool)
    (hw : CabWf s.cab) : CabWf (s.checkMap b).cab := by
  simp (contextual := true) (maxDischargeDepth := 100) [State.checkMap, hw]
@[simp] theorem State.sendGuards_cab (s : State) :
    (s.sendGuards).cab = s.cab := by
  simp [State.sendGuards]
@[simp] theorem State.guardAtT0_cab (s : State)
    (hw : CabWf s.cab) : CabWf (State.guardAtT0 s).cab := by
  simp (contextual := true) (maxDischargeDepth := 100) [State.guardAtT0, hw]
@[simp] theorem State.guardPowerFail_cab (s : State)
    (hw : CabWf s.cab) : CabWf (s.guardPowerFail).cab := by
  simp (contextual := true) (maxDischargeDepth := 100) [State.guardPowerFail, hw]
@[simp] theorem State.takeRecs_cab (s : State) (u : Nat) (rs : List Rec)
    (hw : CabWf s.cab) : CabWf (s.takeRecs u rs).1.cab := by
  simp only [State.takeRecs]
  repeat' split
  all_goals simp (contextual := true) (maxDischargeDepth := 100) [*]
@[simp] theorem State.withholdRow_cab (s : State) (u : Nat) (at_ : W32) (n : Nat) :
    (s.withholdRow u at_ n).cab = s.cab := by
  simp [State.withholdRow]
@[simp] theorem State.writeRow_cab (s : State) (u : Nat) (dec : Bool) (at_ : W64) (vals : List (W24 × Bool))
    (hw : CabWf s.cab) : CabWf (s.writeRow u dec at_ vals).cab := by
  simp (contextual := true) (maxDischargeDepth := 100) [State.writeRow, hw]
@[simp] theorem State.fireUnit_cab (s : State) (u : Nat) (f : Fire)
    (hw : CabWf s.cab) : CabWf (s.fireUnit u f).cab := by
  simp (contextual := true) (maxDischargeDepth := 100) [State.fireUnit, hw]
@[simp] theorem State.trigLow_cab (s : State) :
    (s.trigLow).cab = s.cab := by
  simp [State.trigLow]
@[simp] theorem State.detect_cab (s : State) (u : Nat) (f : Fire) :
    (s.detect u f).cab = s.cab := by
  simp only [State.detect]
  repeat' split
  all_goals simp_all
@[simp] theorem State.resolve_cab (s : State) (u : Nat)
    (hw : CabWf s.cab) : CabWf (s.resolve u).cab := by
  unfold State.resolve
  repeat' split
  all_goals simp (contextual := true) (maxDischargeDepth := 100) [hw]
@[simp] theorem State.groupFire_cab (s : State) (g : Fire) (u : Nat)
    (hw : CabWf s.cab) : CabWf (s.groupFire g u).cab := by
  unfold State.groupFire
  repeat' split
  all_goals simp (contextual := true) (maxDischargeDepth := 100) [hw]
@[simp] theorem State.resolveGroup_cab (s : State) (m : Nat)
    (hw : CabWf s.cab) : CabWf (s.resolveGroup m).cab := by
  simp only [State.resolveGroup]
  repeat' split
  all_goals simp (contextual := true) (maxDischargeDepth := 100) [*]
@[simp] theorem State.resolveGroups_cab (s : State)
    (hw : CabWf s.cab) : CabWf (s.resolveGroups).cab := by
  simp (contextual := true) (maxDischargeDepth := 100) [State.resolveGroups, hw]
@[simp] theorem State.levelRow_cab (s : State) (u : Nat) (k : Nat) (r : Row) :
    (s.levelRow u k r).cab = s.cab := by
  simp only [State.levelRow]
  repeat' split
  all_goals simp_all
@[simp] theorem State.triggers_cab (s : State) (u : Nat) (r : Row) :
    (s.triggers u r).cab = s.cab := by
  simp [State.triggers]
@[simp] theorem State.decRow_cab (s : State) (u : Nat) (r : Row)
    (hw : CabWf s.cab) : CabWf (s.decRow u r).cab := by
  simp (contextual := true) (maxDischargeDepth := 100) [State.decRow, hw]
@[simp] theorem State.acqRow_cab (s : State) (u : Nat) (r : Row)
    (hw : CabWf s.cab) : CabWf (s.acqRow u r).cab := by
  simp (contextual := true) (maxDischargeDepth := 100) [State.acqRow, hw]
@[simp] theorem State.sampleRows_cab (s : State) (lines : List (Nat × Bool)) :
    (s.sampleRows lines).cab = s.cab := by
  simp [State.sampleRows]
@[simp] theorem State.endRows_cab (s : State) :
    (s.endRows).cab = s.cab := by
  simp [State.endRows]
@[simp] theorem State.acqStage_cab (s : State) (u : Nat)
    (hw : CabWf s.cab) : CabWf (s.acqStage u).cab := by
  simp only [State.acqStage]
  repeat' split
  all_goals simp (contextual := true) (maxDischargeDepth := 100) [*]
@[simp] theorem applyAcqStart_cab (d : Desc) (cmd : Option Cmd) (s : State)
    (hw : CabWf s.cab) : CabWf (applyAcqStart d cmd s).cab := by
  simp (contextual := true) (maxDischargeDepth := 100) [applyAcqStart, hw]
@[simp] theorem applyAcqStop_cab (d : Desc) (cmd : Option Cmd) (s : State)
    (hw : CabWf s.cab) : CabWf (applyAcqStop d cmd s).cab := by
  simp (contextual := true) (maxDischargeDepth := 100) [applyAcqStop, hw]
@[simp] theorem applyAcqArm_cab (d : Desc) (cmd : Option Cmd) (s : State) :
    (applyAcqArm d cmd s).cab = s.cab := by
  simp [applyAcqArm]
@[simp] theorem applyAcqDisarm_cab (d : Desc) (cmd : Option Cmd) (s : State) :
    (applyAcqDisarm d cmd s).cab = s.cab := by
  simp [applyAcqDisarm]
@[simp] theorem applyAcqForce_cab (d : Desc) (cmd : Option Cmd) (s : State) :
    (applyAcqForce d cmd s).cab = s.cab := by
  simp [applyAcqForce]
@[simp] theorem State.acqEvent_cab (s : State) (u : Nat) (slot : Nat) (stamp : Nat) :
    (s.acqEvent u slot stamp).cab = s.cab := by
  simp [State.acqEvent]
@[simp] theorem State.trigIoPulseEnd_cab (s : State) :
    (s.trigIoPulseEnd).cab = s.cab := by
  unfold State.trigIoPulseEnd
  repeat' split
  all_goals simp
@[simp] theorem State.acqLatch_cab (s : State) (v : BitVec 32) :
    (s.acqLatch v).cab = s.cab := by
  simp [State.acqLatch]
@[simp] theorem State.schedule_cab (s : State) (k : Nat) (t : Int) (late : Bool) :
    (s.schedule k t late).cab = s.cab := by
  simp [State.schedule]
@[simp] theorem State.firstCheck_cab (s : State) (k : Nat) (v : Rat) (above : Bool) :
    (s.firstCheck k v above).1.cab = s.cab := by
  simp only [State.firstCheck]
  repeat' split
  all_goals simp_all
@[simp] theorem State.evalSlot_cab (s : State) (k : Nat) :
    (s.evalSlot k).cab = s.cab := by
  simp only [State.evalSlot]
  repeat' split
  all_goals simp_all
@[simp] theorem State.evalSlots_cab (s : State) (c : Nat) :
    (s.evalSlots c).cab = s.cab := by
  simp [State.evalSlots]
@[simp] theorem State.farSets_cab (s : State) (c : Nat) (i : Nat)
    (hw : CabWf s.cab) : CabWf (s.farSets c i).cab := by
  simp (contextual := true) (maxDischargeDepth := 100) [State.farSets, hw]
@[simp] theorem State.driveGo_cab (s : State) (n : Nat) :
    (s.driveGo n).cab = s.cab := by
  simp [State.driveGo]
@[simp] theorem State.effectGo_cab (s : State) (t : State) :
    (s.effectGo t).cab = t.cab := by
  simp [State.effectGo]
@[simp] theorem State.goPulse_cab (s : State) (k : Nat) (n : Nat) (until_ : W64) :
    (s.goPulse k n until_).cab = s.cab := by
  simp [State.goPulse]
@[simp] theorem State.goToggle_cab (s : State) (n : Nat) :
    (s.goToggle n).cab = s.cab := by
  simp [State.goToggle]
@[simp] theorem State.startHeld_cab (s : State) (c : Nat) (k : Nat) (t : Int) (cam : Bool) :
    (s.startHeld c k t cam).cab = s.cab := by
  simp only [State.startHeld]
  repeat' split
  all_goals simp_all
@[simp] theorem State.goEdge_cab (s : State) (g : GoEdge) :
    (s.goEdge g).cab = s.cab := by
  unfold State.goEdge
  repeat' split
  all_goals simp
@[simp] theorem State.fireAction_cab (s : State) (k : Nat) (e : Ev) (t : W64) :
    (s.fireAction k e t).cab = s.cab := by
  unfold State.fireAction
  repeat' split
  all_goals simp
@[simp] theorem State.fire_cab (s : State) (n : Nat) (e : Ev) (f : EvFire)
    (hw : CabWf s.cab) : CabWf (s.fire n e f).cab := by
  simp (contextual := true) (maxDischargeDepth := 100) [State.fire, hw]
@[simp] theorem State.edgeAfter_cab (s : State) (g : Option GoEdge) :
    (s.edgeAfter g).cab = s.cab := by
  unfold State.edgeAfter
  repeat' split
  all_goals simp
@[simp] theorem State.edgeNow_cab (s : State) (g : GoEdge) :
    (s.edgeNow g).cab = s.cab := by
  simp [State.edgeNow]
@[simp] theorem State.fireNow_cab (s : State) (n : Nat) (e : Ev) (f : EvFire)
    (hw : CabWf s.cab) : CabWf (s.fireNow n e f).cab := by
  unfold State.fireNow
  repeat' split
  all_goals simp (contextual := true) (maxDischargeDepth := 100) [hw]
@[simp] theorem State.eventFire_cab (s : State) (n : Nat)
    (hw : CabWf s.cab) : CabWf (s.eventFire n).cab := by
  simp only [State.eventFire]
  repeat' split
  all_goals simp (contextual := true) (maxDischargeDepth := 100) [*]
@[simp] theorem applyEvArm_cab (d : Desc) (cmd : Option Cmd) (s : State) :
    (applyEvArm d cmd s).cab = s.cab := by
  simp [applyEvArm]
@[simp] theorem applyEvDisarm_cab (d : Desc) (cmd : Option Cmd) (s : State) :
    (applyEvDisarm d cmd s).cab = s.cab := by
  simp [applyEvDisarm]
@[simp] theorem State.ringErr_cab (s : State) (code : Nat) (kind : Nat) (n : Nat) :
    (s.ringErr code kind n).cab = s.cab := by
  simp [State.ringErr]
@[simp] theorem State.ringBusy_cab (s : State) (kind : Nat) (n : Nat)
    (hw : CabWf s.cab) : CabWf (s.ringBusy kind n).cab := by
  simp (contextual := true) (maxDischargeDepth := 100) [State.ringBusy, hw]
@[simp] theorem State.writeBase_cab (s : State) (r : Reg) (v : W32)
    (hw : CabWf s.cab) : CabWf (s.writeBase r v).cab := by
  simp (contextual := true) (maxDischargeDepth := 100) [State.writeBase, hw]
@[simp] theorem State.startRing_cab (s : State) (kind : Nat) (n : Nat) :
    (s.startRing kind n).cab = s.cab := by
  simp [State.startRing]
@[simp] theorem State.writeRingCfg_cab (s : State) (v : W32)
    (hw : CabWf s.cab) : CabWf (s.writeRingCfg v).cab := by
  simp (contextual := true) (maxDischargeDepth := 100) [State.writeRingCfg, hw]
@[simp] theorem State.ringOff_cab (s : State) (kind : Nat) (n : Nat) :
    (s.ringOff kind n).cab = s.cab := by
  simp [State.ringOff]
@[simp] theorem State.writeHostCtl_cab (s : State) (v : W32) :
    (s.writeHostCtl v).cab = s.cab := by
  simp [State.writeHostCtl]
@[simp] theorem State.hostLatch_cab (s : State) (v : BitVec 32) :
    (s.hostLatch v).cab = s.cab := by
  simp [State.hostLatch]
@[simp] theorem State.dbBad_cab (s : State) (kind : Nat) (n : Nat) (w : Nat)
    (hw : CabWf s.cab) : CabWf (s.dbBad kind n w).cab := by
  simp (contextual := true) (maxDischargeDepth := 100) [State.dbBad, hw]
@[simp] theorem State.judge_cab (s : State) (page : List (Nat × Byte)) (kind : Nat) (n : Nat)
    (hw : CabWf s.cab) : CabWf (s.judge page kind n).cab := by
  simp (contextual := true) (maxDischargeDepth := 100) [State.judge, hw]
@[simp] theorem State.seeAlive_cab (s : State) (v : W32) :
    (s.seeAlive v).cab = s.cab := by
  simp [State.seeAlive]
@[simp] theorem State.fetchOne_cab (s : State) (n : Nat) (r : RawDesc) :
    (s.fetchOne n r).cab = s.cab := by
  simp only [State.fetchOne]
  repeat' split
  all_goals simp_all
@[simp] theorem State.fetchTurn_cab (s : State) (descs : List (Nat × RawDesc)) :
    (s.fetchTurn descs).cab = s.cab := by
  simp [State.fetchTurn]
@[simp] theorem State.fetchTurns_cab (a : Nat) (u1 : State) (u2 : List (Nat × RawDesc)) :
    (State.fetchTurns a u1 u2).cab = u1.cab := by
  induction a generalizing u1 with
  | zero => rfl
  | succ n ih =>
    unfold State.fetchTurns
    split <;> simp [ih]
@[simp] theorem State.writeHeads_cab (s : State) :
    (s.writeHeads).cab = s.cab := by
  simp [State.writeHeads]
@[simp] theorem State.doorbellPoll_cab (s : State) (page : List (Nat × BitVec 8)) (descs : List (Nat × RawDesc))
    (hw : CabWf s.cab) : CabWf (s.doorbellPoll page descs).cab := by
  simp (contextual := true) (maxDischargeDepth := 100) [State.doorbellPoll, hw]
@[simp] theorem State.cqSignal_cab (s : State) (n : Nat) :
    (s.cqSignal n).cab = s.cab := by
  simp [State.cqSignal]
@[simp] theorem State.countWritten_cab (s : State) (e : CqEntry) :
    (s.countWritten e).cab = s.cab := by
  simp [State.countWritten]
@[simp] theorem State.countDiscard_cab (s : State) (e : CqEntry) :
    (s.countDiscard e).cab = s.cab := by
  simp [State.countDiscard]
@[simp] theorem State.msixFlush_cab (s : State) :
    (s.msixFlush).cab = s.cab := by
  simp [State.msixFlush]
@[simp] theorem State.msixUnmask_cab (s : State) (v : Fin 64) :
    (s.msixUnmask v).cab = s.cab := by
  simp [State.msixUnmask]
@[simp] theorem State.dmaError_cab (s : State) (kind : Fin 4) (n : Fin 64) (entry : Bool)
    (hw : CabWf s.cab) : CabWf (s.dmaError kind n entry).cab := by
  simp only [State.dmaError]
  repeat' split
  all_goals simp (contextual := true) (maxDischargeDepth := 100) [*]
@[simp] theorem State.bar2Write_cab (s : State) (a : BitVec 24) (v : BitVec 32)
    (hw : CabWf s.cab) : CabWf (State.bar2Write s a v).cab := by
  simp (contextual := true) (maxDischargeDepth := 100) [State.bar2Write, hw]
@[simp] theorem State.configRequest_cab (s : State) (q : CfgReq) :
    (s.configRequest q).cab = s.cab := by
  unfold State.configRequest
  repeat' split
  all_goals simp
@[simp] theorem applyNop_cab (x : Desc) (cmd : Option Cmd) (s : State) :
    (applyNop x cmd s).cab = s.cab := by
  simp [applyNop]
@[simp] theorem applyFwWrite_cab (d : Desc) (cmd : Option Cmd) (s : State) :
    (applyFwWrite d cmd s).cab = s.cab := by
  simp [applyFwWrite]
@[simp] theorem applyFwVerify_cab (x : Desc) (cmd : Option Cmd) (s : State) :
    (applyFwVerify x cmd s).cab = s.cab := by
  simp [applyFwVerify]
@[simp] theorem applyFwActivate_cab (x : Desc) (cmd : Option Cmd) (s : State) :
    (applyFwActivate x cmd s).cab = s.cab := by
  simp [applyFwActivate]
@[simp] theorem applyFwInfo_cab (x : Desc) (cmd : Option Cmd) (s : State) :
    (applyFwInfo x cmd s).cab = s.cab := by
  simp [applyFwInfo]
@[simp] theorem applyLpLoad_cab (d : Desc) (cmd : Option Cmd) (s : State) :
    (applyLpLoad d cmd s).cab = s.cab := by
  simp [applyLpLoad]
@[simp] theorem applyLpCommit_cab (d : Desc) (cmd : Option Cmd) (s : State) :
    (applyLpCommit d cmd s).cab = s.cab := by
  simp [applyLpCommit]
@[simp] theorem State.chestFail_cab (s : State) (k : Nat) (cause : Nat)
    (hw : CabWf s.cab) : CabWf (s.chestFail k cause).cab := by
  simp (contextual := true) (maxDischargeDepth := 100) [State.chestFail, hw]
@[simp] theorem State.chestCheck_cab (s : State) (k : Nat) (retire : Nat) (fault : Bool)
    (hw : CabWf s.cab) : CabWf (s.chestCheck k retire fault).cab := by
  simp (contextual := true) (maxDischargeDepth := 100) [State.chestCheck, hw]
@[simp] theorem State.startEntry_cab (s : State) (cause : Nat) (pages : List Nat) (cmds : List Cmd) :
    (s.startEntry cause pages cmds).cab = s.cab := by
  simp [State.startEntry]
@[simp] theorem State.nextEntry_cab (s : State) (cause : Nat) (cmds : List Cmd)
    (hw : CabWf s.cab) : CabWf (s.nextEntry cause cmds).cab := by
  simp (contextual := true) (maxDischargeDepth := 100) [State.nextEntry, hw]
@[simp] theorem State.abandonFlush_cab (s : State)
    (hw : CabWf s.cab) : CabWf (s.abandonFlush).cab := by
  unfold State.abandonFlush
  repeat' split
  all_goals simp (contextual := true) (maxDischargeDepth := 100) [hw]
@[simp] theorem State.powerFlush_cab (s : State) (cause : Nat)
    (hw : CabWf s.cab) : CabWf (s.powerFlush cause).cab := by
  simp (contextual := true) (maxDischargeDepth := 100) [State.powerFlush, hw]
@[simp] theorem State.flushStart_cab (s : State)
    (hw : CabWf s.cab) : CabWf (s.flushStart).cab := by
  unfold State.flushStart
  repeat' split
  all_goals simp (contextual := true) (maxDischargeDepth := 100) [hw]
@[simp] theorem State.commitEntry_cab (s : State) (f : Flush) :
    (s.commitEntry f).cab = s.cab := by
  simp [State.commitEntry]
@[simp] theorem State.enterHold_cab (s : State) :
    (s.enterHold).cab = s.cab := by
  simp [State.enterHold]
@[simp] theorem State.flushCommit_cab (s : State) (retire0 : Nat) (retire1 : Nat) (fault0 : Bool) (fault1 : Bool)
    (hw : CabWf s.cab) : CabWf (s.flushCommit retire0 retire1 fault0 fault1).cab := by
  unfold State.flushCommit
  repeat' split
  all_goals simp (contextual := true) (maxDischargeDepth := 100) [hw]
@[simp] theorem State.opMinuteTick_cab (s : State)
    (hw : CabWf s.cab) : CabWf (s.opMinuteTick).cab := by
  simp (contextual := true) (maxDischargeDepth := 100) [State.opMinuteTick, hw]
@[simp] theorem State.extreme_cab (s : State) (off : Nat) (v : W32) (first : Bool) (better : Bool)
    (hw : CabWf s.cab) : CabWf (s.extreme off v first better).cab := by
  simp (contextual := true) (maxDischargeDepth := 100) [State.extreme, hw]
@[simp] theorem State.vinTaken_cab (s : State) (vin : BitVec 16) :
    (s.vinTaken vin).cab = s.cab := by
  simp [State.vinTaken]
@[simp] theorem State.loadMax_cab (s : State)
    (hw : CabWf s.cab) : CabWf (s.loadMax).cab := by
  simp (contextual := true) (maxDischargeDepth := 100) [State.loadMax, hw]
@[simp] theorem State.countCauses_cab (s : State)
    (hw : CabWf s.cab) : CabWf (s.countCauses).cab := by
  simp (contextual := true) (maxDischargeDepth := 100) [State.countCauses, hw]
@[simp] theorem putPage_CabWf (m : List Host.Cell) (p : Nat) (img : List (Nat × Byte)) (hw : CabWf m) :
    CabWf (putPage m p img) := by
  simp only [putPage]
  have : ∀ (l : List (Nat × Byte)) (m : List Host.Cell), CabWf m →
      CabWf (l.foldl (fun m c => tset 0 m (recBase + p * 4096 + c.1) c.2) m) := by
    intro l
    induction l with
    | nil => exact fun _ h => h
    | cons c l ih => exact fun m h => ih _ (tset_CabWf _ _ _ h)
  exact this _ _ (filter_CabWf _ _ hw)
@[simp] theorem State.rebuild_cab (s : State) (a : Chest) (b : Chest)
    (hw : CabWf s.cab) : CabWf (s.rebuild a b).cab := by
  have : ∀ (l : List (Nat × W32 × List (Nat × Byte))) (m : List Host.Cell), CabWf m →
      CabWf (l.foldl (fun m x => putPage m x.1 x.2.2) m) := by
    intro l
    induction l with
    | nil => exact fun _ h => h
    | cons c l ih => exact fun m h => ih _ (putPage_CabWf _ _ _ h)
  simp only [State.rebuild]
  exact this _ _ (filter_CabWf _ _ hw)
@[simp] theorem State.restoreTime_cab (s : State)
    (hw : CabWf s.cab) : CabWf (s.restoreTime).cab := by
  simp (contextual := true) (maxDischargeDepth := 100) [State.restoreTime, hw]
@[simp] theorem State.reportRecovery_cab (s : State) (a : Chest) (b : Chest) (lost : List Nat) (top : Nat)
    (hw : CabWf s.cab) : CabWf (s.reportRecovery a b lost top).cab := by
  simp (contextual := true) (maxDischargeDepth := 100) [State.reportRecovery, hw]
@[simp] theorem State.recRecovery_cab (s : State) (bad0 : List Nat) (bad1 : List Nat) (fault0 : Bool) (fault1 : Bool)
    (hw : CabWf s.cab) : CabWf (s.recRecovery bad0 bad1 fault0 fault1).cab := by
  simp (contextual := true) (maxDischargeDepth := 100) [State.recRecovery, hw]
@[simp] theorem applyRecFlush_cab (x : Desc) (cmd : Option Cmd) (s : State) :
    (applyRecFlush x cmd s).cab = s.cab := by
  simp [applyRecFlush]
@[simp] theorem applyRecRead_cab (d : Desc) (cmd : Option Cmd) (s : State) :
    (applyRecRead d cmd s).cab = s.cab := by
  unfold applyRecRead
  repeat' split
  all_goals simp
@[simp] theorem State.histBump_cab (s : State) (n : Nat) (base : Nat) (bin : Nat)
    (hw : CabWf s.cab) : CabWf (s.histBump n base bin).cab := by
  simp (contextual := true) (maxDischargeDepth := 100) [State.histBump, hw]
@[simp] theorem State.axExtreme_cab (s : State) (n : Nat) (off : Nat) (v : W32)
    (hw : CabWf s.cab) : CabWf (s.axExtreme n off v).cab := by
  simp (contextual := true) (maxDischargeDepth := 100) [State.axExtreme, hw]
@[simp] theorem State.recordRun_cab (s : State) (n : Nat) (ep : Nat) (i : Rat) (v : Rat) (rated : Rat)
    (hw : CabWf s.cab) : CabWf (s.recordRun n ep i v rated).cab := by
  simp (contextual := true) (maxDischargeDepth := 100) [State.recordRun, hw]
@[simp] theorem State.setLaw_cab (s : State) (c : Nat) (l : Law) :
    (s.setLaw c l).cab = s.cab := by
  simp [State.setLaw]
@[simp] theorem State.setPh_cab (s : State) (c : Nat) (vs : List (Nat × W24)) :
    (s.setPh c vs).cab = s.cab := by
  simp [State.setPh]
@[simp] theorem State.lawFeedback_cab (s : State) (c : Nat) :
    (s.lawFeedback c).cab = s.cab := by
  simp [State.lawFeedback]
@[simp] theorem State.lawObserver_cab (s : State) (c : Nat) :
    (s.lawObserver c).cab = s.cab := by
  simp [State.lawObserver]
@[simp] theorem State.notch_cab (s : State) (c : Nat) (n : Nat) (x : Rat)
    (hw : CabWf s.cab) : CabWf (s.notch c n x).1.cab := by
  simp only [State.notch]
  repeat' split
  all_goals simp (contextual := true) (maxDischargeDepth := 100) [*]
@[simp] theorem State.notchChain_cab (s : State) (c : Nat) (x : Rat)
    (hw : CabWf s.cab) : CabWf (s.notchChain c x).1.cab := by
  simp (contextual := true) (maxDischargeDepth := 100) [State.notchChain, hw]
@[simp] theorem State.notchCoefs_cab (s : State) (c : Nat) (n : Nat)
    (hw : CabWf s.cab) : CabWf (s.notchCoefs c n).cab := by
  simp (contextual := true) (maxDischargeDepth := 100) [State.notchCoefs, hw]
@[simp] theorem State.cascadePh_cab (s : State) (c : Nat) (v : Rat) (a : Rat) :
    (s.cascadePh c v a).cab = s.cab := by
  simp [State.cascadePh]
@[simp] theorem State.loops_cab (s : State) (c : Nat) (k : Kin)
    (hw : CabWf s.cab) : CabWf (s.loops c k).cab := by
  simp (contextual := true) (maxDischargeDepth := 100) [State.loops, hw]
@[simp] theorem State.writeMode_cab (s : State) (c : Nat)
    (hw : CabWf s.cab) : CabWf (s.writeMode c).cab := by
  simp (contextual := true) (maxDischargeDepth := 100) [State.writeMode, hw]
@[simp] theorem State.markRan_cab (s : State) (c : Nat) :
    (s.markRan c).cab = s.cab := by
  simp [State.markRan]
@[simp] theorem State.lawCascade_cab (s : State) (c : Nat)
    (hw : CabWf s.cab) : CabWf (s.lawCascade c).cab := by
  simp (contextual := true) (maxDischargeDepth := 100) [State.lawCascade, hw]
@[simp] theorem State.lawFault_cab (s : State) (c : Nat) (i : Nat) (bit : Nat) (code : BitVec 16) (sev : Sev) (pay : optParam Payload 0)
    (hw : CabWf s.cab) : CabWf (s.lawFault c i bit code sev pay).cab := by
  simp only [State.lawFault]
  repeat' split
  all_goals simp (contextual := true) (maxDischargeDepth := 100) [*]
@[simp] theorem State.currentTrips_cab (s : State) (c : Nat) (i : Nat) (vsn : Nat) (oc : Nat) (cs : Nat)
    (hw : CabWf s.cab) : CabWf (s.currentTrips c i vsn oc cs).cab := by
  simp only [State.currentTrips]
  repeat' split
  all_goals simp (contextual := true) (maxDischargeDepth := 100) [*]
@[simp] theorem State.lawCurrent_cab (s : State) (c : Nat) (i : Nat)
    (hw : CabWf s.cab) : CabWf (s.lawCurrent c i).cab := by
  simp (contextual := true) (maxDischargeDepth := 100) [State.lawCurrent, hw]
@[simp] theorem State.lawEmit_cab (s : State) (c : Nat) (i : Nat)
    (hw : CabWf s.cab) : CabWf (s.lawEmit c i).cab := by
  unfold State.lawEmit
  repeat' split
  all_goals simp (contextual := true) (maxDischargeDepth := 100) [hw]
@[simp] theorem State.checkLoops_cab (s : State) (c : Nat) (i : Nat) (a : Asks)
    (hw : CabWf s.cab) : CabWf (s.checkLoops c i a).1.cab := by
  simp (contextual := true) (maxDischargeDepth := 100) [State.checkLoops, hw]
@[simp] theorem State.checkPlausible_cab (s : State) (c : Nat) (i : Nat) (a : Asks)
    (hw : CabWf s.cab) : CabWf (s.checkPlausible c i a).1.cab := by
  simp only [State.checkPlausible]
  repeat' split
  all_goals simp (contextual := true) (maxDischargeDepth := 100) [*]
@[simp] theorem State.takeStep_cab (s : State) (c : Nat) (i : Nat) (o : Osc) (a : Asks)
    (hw : CabWf s.cab) : CabWf (s.takeStep c i o a).1.cab := by
  unfold State.takeStep
  repeat' split
  all_goals simp (contextual := true) (maxDischargeDepth := 100) [hw]
@[simp] theorem State.moveN3_cab (s : State) (c : Nat) (o : Osc)
    (hw : CabWf s.cab) : CabWf (State.moveN3 s c o).cab := by
  simp (contextual := true) (maxDischargeDepth := 100) [State.moveN3, hw]
@[simp] theorem State.oscWatch_cab (s : State) (c : Nat) (i : Nat) (o : Osc) (hit : Bool) (a : Asks)
    (hw : CabWf s.cab) : CabWf (s.oscWatch c i o hit a).1.cab := by
  simp only [State.oscWatch]
  repeat' split
  all_goals simp (contextual := true) (maxDischargeDepth := 100) [*]
@[simp] theorem State.oscAct_cab (s : State) (c : Nat) (i : Nat) (o : Osc) (hit : Bool) (a : Asks)
    (hw : CabWf s.cab) : CabWf (s.oscAct c i o hit a).1.cab := by
  simp only [State.oscAct]
  repeat' split
  all_goals simp (contextual := true) (maxDischargeDepth := 100) [*]
@[simp] theorem State.oscBlock_cab (s : State) (c : Nat) (i : Nat) (o : Osc) (a : Asks)
    (hw : CabWf s.cab) : CabWf (s.oscBlock c i o a).1.cab := by
  simp only [State.oscBlock]
  repeat' split
  all_goals simp (contextual := true) (maxDischargeDepth := 100) [*]
@[simp] theorem State.oscillation_cab (s : State) (c : Nat) (i : Nat) (a : Asks)
    (hw : CabWf s.cab) : CabWf (s.oscillation c i a).1.cab := by
  simp only [State.oscillation]
  repeat' split
  all_goals simp (contextual := true) (maxDischargeDepth := 100) [*]
@[simp] theorem State.checkRange_cab (s : State) (c : Nat) (i : Nat)
    (hw : CabWf s.cab) : CabWf (s.checkRange c i).cab := by
  simp (contextual := true) (maxDischargeDepth := 100) [State.checkRange, hw]
@[simp] theorem State.checkFlags_cab (s : State) (c : Nat) (i : Nat)
    (hw : CabWf s.cab) : CabWf (s.checkFlags c i).cab := by
  simp (contextual := true) (maxDischargeDepth := 100) [State.checkFlags, hw]
@[simp] theorem State.stopLate_cab (s : State) (c : Nat) (i : Nat) (since : W64) (a : Asks)
    (hw : CabWf s.cab) : CabWf (s.stopLate c i since a).1.cab := by
  unfold State.stopLate
  repeat' split
  all_goals simp (contextual := true) (maxDischargeDepth := 100) [hw]
@[simp] theorem State.stopStep_cab (s : State) (c : Nat) (i : Nat) (a : Asks)
    (hw : CabWf s.cab) : CabWf (s.stopStep c i a).1.cab := by
  simp only [State.stopStep]
  repeat' split
  all_goals simp (contextual := true) (maxDischargeDepth := 100) [*]
@[simp] theorem State.lawSupervise_cab (s : State) (c : Nat) (i : Nat)
    (hw : CabWf s.cab) : CabWf (s.lawSupervise c i).cab := by
  simp only [State.lawSupervise]
  repeat' split
  all_goals simp (contextual := true) (maxDischargeDepth := 100) [*]
@[simp] theorem State.lawRecord_cab (s : State) (c : Nat) (cancel : Bool)
    (hw : CabWf s.cab) : CabWf (s.lawRecord c cancel).cab := by
  simp (contextual := true) (maxDischargeDepth := 100) [State.lawRecord, hw]
@[simp] theorem State.newLibState_cab (s : State) (c : Nat) :
    (s.newLibState c).cab = s.cab := by
  simp [State.newLibState]
@[simp] theorem State.library_cab (s : State) (c : Nat) (i : Nat) (cancel : Bool)
    (hw : CabWf s.cab) : CabWf (s.library c i cancel).cab := by
  unfold State.library
  repeat' split
  all_goals simp (contextual := true) (maxDischargeDepth := 100) [hw]
@[simp] theorem State.endFlags_cab (s : State) (e : Nat) (c : Nat)
    (hw : CabWf s.cab) : CabWf (s.endFlags e c).cab := by
  simp (contextual := true) (maxDischargeDepth := 100) [State.endFlags, hw]
@[simp] theorem State.fatalLog_cab (s : State) (e : Nat) (c : Nat) (i : Nat) :
    (s.fatalLog e c i).cab = s.cab := by
  simp [State.fatalLog]
@[simp] theorem State.landStage_cab (s : State) (c : Nat) (i : Nat) (fatal : Bool)
    (hw : CabWf s.cab) : CabWf (s.landStage c i fatal).cab := by
  unfold State.landStage
  repeat' split
  all_goals simp (contextual := true) (maxDischargeDepth := 100) [hw]
@[simp] theorem State.keepOwn_cab (s : State) (r : EngRun) :
    (s.keepOwn r).cab = s.cab := by
  simp [State.keepOwn]
@[simp] theorem State.freeEngine_cab (s : State) (e : Nat) (r : EngRun) :
    (s.freeEngine e r).cab = s.cab := by
  simp [State.freeEngine]
@[simp] theorem State.stageDone_cab (s : State) (e : Nat) (r : EngRun) (fin : EngEnd)
    (hw : CabWf s.cab) : CabWf (s.stageDone e r fin).cab := by
  simp (contextual := true) (maxDischargeDepth := 100) [State.stageDone, hw]
@[simp] theorem State.noteLostOf_cab (s : State) (c : Nat)
    (hw : CabWf s.cab) : CabWf (s.noteLostOf c).cab := by
  unfold State.noteLostOf
  repeat' split
  all_goals simp (contextual := true) (maxDischargeDepth := 100) [hw]
@[simp] theorem State.noteLost_cab (s : State)
    (hw : CabWf s.cab) : CabWf (s.noteLost).cab := by
  simp (contextual := true) (maxDischargeDepth := 100) [State.noteLost, hw]
@[simp] theorem State.i2cCtl_cab (s : State) (v : W32) :
    (State.i2cCtl s v).cab = s.cab := by
  simp [State.i2cCtl]
@[simp] theorem State.ownBack_cab (s : State) (p : Nat) (c : Cell)
    (hw : CabWf s.cab) : CabWf (s.ownBack p c).cab := by
  simp (contextual := true) (maxDischargeDepth := 100) [State.ownBack, hw]
@[simp] theorem State.ownRx_cab (s : State) (p : Nat) (rx : RxCell)
    (hw : CabWf s.cab) : CabWf (s.ownRx p rx).1.cab := by
  simp only [State.ownRx]
  repeat' split
  all_goals simp (contextual := true) (maxDischargeDepth := 100) [*]
@[simp] theorem State.ownCellReturn_cab (s : State) (p : Fin 4) (rx : RxCell)
    (hw : CabWf s.cab) : CabWf (s.ownCellReturn p rx).cab := by
  simp (contextual := true) (maxDischargeDepth := 100) [State.ownCellReturn, hw]
@[simp] theorem State.cellForward_cab (s : State) (p : Fin 4) (rx : RxCell)
    (hw : CabWf s.cab) : CabWf (s.cellForward p rx).cab := by
  simp (contextual := true) (maxDischargeDepth := 100) [State.cellForward, hw]
@[simp] theorem State.nodeFaults_cab (s : State) (ctx : Nat) (r : Nat) (n : Nat) (nst : BitVec 16)
    (hw : CabWf s.cab) : CabWf (s.nodeFaults ctx r n nst).cab := by
  simp (contextual := true) (maxDischargeDepth := 100) [State.nodeFaults, hw]
@[simp] theorem State.takeRecord_cab (s : State) (c : Cell) (r : Nat) (n : Nat) (ctx : Nat) (o : Nat)
    (hw : CabWf s.cab) : CabWf (s.takeRecord c r n ctx o).cab := by
  simp only [State.takeRecord]
  repeat' split
  all_goals simp (contextual := true) (maxDischargeDepth := 100) [*]
@[simp] theorem State.confirmDir_cab (s : State) (r : Nat) (n : Nat) :
    (s.confirmDir r n).cab = s.cab := by
  simp only [State.confirmDir]
  repeat' split
  all_goals simp_all
@[simp] theorem State.takeNext_cab (c : Cell) (r n : Nat) (t : State × Nat) (ctx : Nat) (hw : CabWf t.1.cab) :
    CabWf (State.takeNext c r n t ctx).1.cab := by
  simp [State.takeNext, hw]
@[simp] theorem State.takeUp_cab (s : State) (c : Cell) (r : Nat) (k : Carrier)
    (hw : CabWf s.cab) : CabWf (s.takeUp c r k).cab := by
  unfold State.takeUp
  dsimp only
  refine foldl_cab _ (fun s c h => by simp [h]) _ _ ?_
  refine foldl_fst_cab _ (fun p b h => State.takeNext_cab _ _ _ p b h) _ _ ?_
  simp [hw]
@[simp] theorem State.lateUp_cab (s : State) (c : Cell) (r : Nat) (crcBad : Bool)
    (hw : CabWf s.cab) : CabWf (s.lateUp c r crcBad).cab := by
  simp (contextual := true) (maxDischargeDepth := 100) [State.lateUp, hw]
@[simp] theorem State.dropAdm_cab (s : State) (a : Adm) :
    (s.dropAdm a).cab = s.cab := by
  simp [State.dropAdm]
@[simp] theorem State.enumRead_cab (s : State) (r : Nat) (n : Nat) (v : Nat)
    (hw : CabWf s.cab) : CabWf (s.enumRead r n v).cab := by
  simp only [State.enumRead]
  repeat' split
  all_goals simp (contextual := true) (maxDischargeDepth := 100) [*]
@[simp] theorem State.admDone_cab (s : State) (a : Adm) (c : Cell)
    (hw : CabWf s.cab) : CabWf (s.admDone a c).cab := by
  unfold State.admDone
  repeat' split
  all_goals simp (contextual := true) (maxDischargeDepth := 100) [hw]
@[simp] theorem State.adminTimeout_cab (s : State)
    (hw : CabWf s.cab) : CabWf (s.adminTimeout).cab := by
  unfold State.adminTimeout
  repeat' split
  all_goals simp (contextual := true) (maxDischargeDepth := 100) [hw]
@[simp] theorem State.tunDrop_cab (s : State) (key : Nat) (t : Tun)
    (hw : CabWf s.cab) : CabWf (s.tunDrop key t).cab := by
  simp (contextual := true) (maxDischargeDepth := 100) [State.tunDrop, hw]
@[simp] theorem State.tunnelSegment_cab (s : State) (p : Fin 4) (rx : RxCell)
    (hw : CabWf s.cab) : CabWf (s.tunnelSegment p rx).cab := by
  have h1 := State.ownRx_cab s p rx hw
  unfold State.tunnelSegment
  generalize s.ownRx p rx = q at h1
  obtain ⟨t, own, ok⟩ := q
  simp only at h1 ⊢
  repeat' split
  all_goals simp [h1]
@[simp] theorem applySigRead_cab (d : Desc) (cmd : Option Cmd) (s : State) :
    (applySigRead d cmd s).cab = s.cab := by
  simp only [applySigRead]
  repeat' split
  all_goals simp_all
@[simp] theorem applySigWrite_cab (d : Desc) (cmd : Option Cmd) (s : State) :
    (applySigWrite d cmd s).cab = s.cab := by
  simp only [applySigWrite]
  repeat' split
  all_goals simp_all
@[simp] theorem State.pwMismatch_cab (s : State) (b : Bool)
    (hw : CabWf s.cab) : CabWf (s.pwMismatch b).cab := by
  simp (contextual := true) (maxDischargeDepth := 100) [State.pwMismatch, hw]
@[simp] theorem State.checkPassword_cab (s : State) (b : Bool) (p : BitVec 128)
    (hw : CabWf s.cab) : CabWf (s.checkPassword b p).1.cab := by
  simp only [State.checkPassword]
  repeat' split
  all_goals simp (contextual := true) (maxDischargeDepth := 100) [*]
@[simp] theorem State.protected__cab (s : State) (b : Bool) (p : BitVec 128) (cmd : Option Cmd)
    (k : State → State) (hk : ∀ t, CabWf t.cab → CabWf (k t).cab) (hw : CabWf s.cab) :
    CabWf (s.protected_ b p cmd k).cab := by
  have hc := State.checkPassword_cab s b p hw
  simp only [State.protected_]
  split
  · simp [hw]
  · split <;> next h =>
      rw [h] at hc
      first | exact hk _ hc | simp [hc] | simp [hk, hc]
@[simp] theorem applyGWrite_cab (b : Bool) (d : Desc) (cmd : Option Cmd) (s : State)
    (hw : CabWf s.cab) : CabWf (applyGWrite b d cmd s).cab := by
  simp (contextual := true) (maxDischargeDepth := 100) [applyGWrite, hw]
@[simp] theorem applyGRead_cab (b : Bool) (d : Desc) (cmd : Option Cmd) (s : State) :
    (applyGRead b d cmd s).cab = s.cab := by
  simp [applyGRead]
@[simp] theorem applyGConfirm_cab (b : Bool) (d : Desc) (cmd : Option Cmd) (s : State)
    (hw : CabWf s.cab) : CabWf (applyGConfirm b d cmd s).cab := by
  simp only [applyGConfirm]
  repeat' split
  all_goals simp (contextual := true) (maxDischargeDepth := 100) [*]
@[simp] theorem applyGPassword_cab (b : Bool) (d : Desc) (cmd : Option Cmd) (s : State)
    (hw : CabWf s.cab) : CabWf (applyGPassword b d cmd s).cab := by
  simp (contextual := true) (maxDischargeDepth := 100) [applyGPassword, hw]
@[simp] theorem applyGFaultClear_cab (b : Bool) (d : Desc) (cmd : Option Cmd) (s : State)
    (hw : CabWf s.cab) : CabWf (applyGFaultClear b d cmd s).cab := by
  simp (contextual := true) (maxDischargeDepth := 100) [applyGFaultClear, hw]
@[simp] theorem applyGLogRead_cab (b : Bool) (d : Desc) (cmd : Option Cmd) (s : State) :
    (applyGLogRead b d cmd s).cab = s.cab := by
  unfold applyGLogRead
  repeat' split
  all_goals simp
@[simp] theorem applyGReset_cab (b : Bool) (d : Desc) (cmd : Option Cmd) (s : State)
    (hw : CabWf s.cab) : CabWf (applyGReset b d cmd s).cab := by
  simp (contextual := true) (maxDischargeDepth := 100) [applyGReset, hw]
@[simp] theorem applyGaSbt_cab (d : Desc) (cmd : Option Cmd) (s : State)
    (hw : CabWf s.cab) : CabWf (applyGaSbt d cmd s).cab := by
  simp (contextual := true) (maxDischargeDepth := 100) [applyGaSbt, hw]
@[simp] theorem State.hostStop_cab (s : State) (c : Nat) :
    (s.hostStop c).cab = s.cab := by
  simp [State.hostStop]
@[simp] theorem State.hostLost_cab (s : State) (cause : Nat)
    (hw : CabWf s.cab) : CabWf (s.hostLost cause).cab := by
  simp (contextual := true) (maxDischargeDepth := 100) [State.hostLost, hw]
@[simp] theorem State.emptyCq_cab (s : State) (n : Nat) :
    (s.emptyCq n).cab = s.cab := by
  simp [State.emptyCq]
@[simp] theorem State.emptyCqs_cab (s : State) :
    (s.emptyCqs).cab = s.cab := by
  simp [State.emptyCqs]
@[simp] theorem State.cmdRingsOff_cab (s : State) :
    (s.cmdRingsOff).cab = s.cab := by
  simp [State.cmdRingsOff]
@[simp] theorem State.strmRingsOff_cab (s : State) :
    (s.strmRingsOff).cab = s.cab := by
  simp [State.strmRingsOff]
@[simp] theorem State.clearSqs_cab (s : State) :
    (s.clearSqs).cab = s.cab := by
  simp [State.clearSqs]
@[simp] theorem State.resetHostIf_cab (s : State) :
    (s.resetHostIf).cab = s.cab := by
  simp [State.resetHostIf]
@[simp] theorem State.supply_cab (s : State) (code : BitVec 16) (sev : Sev)
    (hw : CabWf s.cab) : CabWf (s.supply code sev).cab := by
  simp (contextual := true) (maxDischargeDepth := 100) [State.supply, hw]
@[simp] theorem State.restDom_cab (s : State) (d : Nat) (t : DomTgt) (cmds : List (Option Cmd)) :
    (s.restDom d t cmds).cab = s.cab := by
  simp only [State.restDom]
  repeat' split
  all_goals simp_all
@[simp] theorem applyPwrSet_cab (d : Desc) (cmd : Option Cmd) (s : State) :
    (applyPwrSet d cmd s).cab = s.cab := by
  simp only [applyPwrSet]
  repeat' split
  all_goals simp_all
@[simp] theorem State.autoRet_cab (s : State) (d : Nat)
    (hw : CabWf s.cab) : CabWf (s.autoRet d).cab := by
  simp (contextual := true) (maxDischargeDepth := 100) [State.autoRet, hw]
@[simp] theorem State.clearCluster_cab (s : State) (q : Nat)
    (hw : CabWf s.cab) : CabWf (s.clearCluster q).cab := by
  simp (contextual := true) (maxDischargeDepth := 100) [State.clearCluster, hw]
@[simp] theorem State.beginEntry_cab (s : State) (d : Nat)
    (hw : CabWf s.cab) : CabWf (s.beginEntry d).cab := by
  simp (contextual := true) (maxDischargeDepth := 100) [State.beginEntry, hw]
@[simp] theorem State.retentionEntry_cab (s : State)
    (hw : CabWf s.cab) : CabWf (s.retentionEntry).cab := by
  simp (contextual := true) (maxDischargeDepth := 100) [State.retentionEntry, hw]
@[simp] theorem State.replay_cab (s : State) (d : Nat) :
    (s.replay d).cab = s.cab := by
  simp only [State.replay]
  repeat' split
  all_goals simp_all
@[simp] theorem State.zeroBank_cab (s : State) (d : Nat)
    (hw : CabWf s.cab) : CabWf (s.zeroBank d).cab := by
  simp (contextual := true) (maxDischargeDepth := 100) [State.zeroBank, hw]
@[simp] theorem State.reloadIm_cab (s : State) (p : Nat → Bool) :
    (s.reloadIm p).cab = s.cab := by
  simp [State.reloadIm]
@[simp] theorem State.loseMemories_cab (s : State) (d : Nat) (lost : BitVec 12)
    (hw : CabWf s.cab) : CabWf (s.loseMemories d lost).cab := by
  unfold State.loseMemories
  repeat' split
  all_goals simp (contextual := true) (maxDischargeDepth := 100) [hw]
@[simp] theorem State.domOn_cab (s : State) (d : Nat) (lost : BitVec 12) :
    (s.domOn d lost).cab = s.cab := by
  simp [State.domOn]
@[simp] theorem State.wakeComplete_cab (s : State) (d : Fin 23) (lost : BitVec 12)
    (hw : CabWf s.cab) : CabWf (s.wakeComplete d lost).cab := by
  simp (contextual := true) (maxDischargeDepth := 100) [State.wakeComplete, hw]
@[simp] theorem State.clearLatched_cab (s : State) (rs : List Reg) (n : Nat) :
    (s.clearLatched rs n).cab = s.cab := by
  simp [State.clearLatched]
@[simp] theorem State.coldLinks_cab (s : State) (ps : List Nat) :
    (s.coldLinks ps).cab = s.cab := by
  simp [State.coldLinks]
@[simp] theorem State.coldNear_cab (s : State) :
    (s.coldNear).cab = s.cab := by
  simp [State.coldNear]
@[simp] theorem State.coldAcq_cab (s : State) :
    (s.coldAcq).cab = s.cab := by
  simp [State.coldAcq]
@[simp] theorem State.coldDomain_cab (s : State) (d : Nat)
    (hw : CabWf s.cab) : CabWf (s.coldDomain d).cab := by
  simp (contextual := true) (maxDischargeDepth := 100) [State.coldDomain, hw]
@[simp] theorem State.domHinge_cab (s : State) :
    (s.domHinge).cab = s.cab := by
  unfold State.domHinge
  rw [foldl_cab_eq _ (fun s d => ?_), foldl_cab_eq _ (fun s d => ?_)]
  · simp only []
    split
    · rw [foldl_cab_eq _ (fun s c => by simp)]
      simp
    · rfl
  · simp only []
    split <;> simp
@[simp] theorem State.killAll_cab (s : State) :
    (s.killAll).cab = s.cab := by
  simp [State.killAll]
@[simp] theorem State.cut_cab (s : State) (ds : List Nat) :
    (s.cut ds).cab = s.cab := by
  simp [State.cut]
@[simp] theorem State.shutdown_cab (s : State) (cause : Nat)
    (hw : CabWf s.cab) : CabWf (s.shutdown cause).cab := by
  simp (contextual := true) (maxDischargeDepth := 100) [State.shutdown, hw]
@[simp] theorem State.powerFailTrigger_cab (s : State)
    (hw : CabWf s.cab) : CabWf (s.powerFailTrigger).cab := by
  simp (contextual := true) (maxDischargeDepth := 100) [State.powerFailTrigger, hw]
@[simp] theorem State.dropOutputs_cab (s : State) (r : State) :
    (s.dropOutputs r).cab = r.cab := by
  simp [State.dropOutputs]
@[simp] theorem State.intoReset_cab (s : State) (core : Bool)
    (hw : CabWf s.cab) : CabWf (s.intoReset core).cab := by
  simp [State.intoReset]
@[simp] theorem State.resetBy_cab (s : State) (cause : Nat) (core : Bool)
    (hw : CabWf s.cab) : CabWf (s.resetBy cause core).cab := by
  have e : (s.resetBy cause core).cab = (s.intoReset core).cab := by unfold State.resetBy; rfl
  rw [e]
  exact State.intoReset_cab s core hw
@[simp] theorem State.assertReset_cab (s : State)
    (hw : CabWf s.cab) : CabWf (s.assertReset).cab := by
  simp (contextual := true) (maxDischargeDepth := 100) [State.assertReset, hw]
@[simp] theorem State.bankOff_cab (s : State) (b : Nat) (c : Nat)
    (hw : CabWf s.cab) : CabWf (s.bankOff b c).cab := by
  unfold State.bankOff
  repeat' split
  all_goals simp (contextual := true) (maxDischargeDepth := 100) [hw]
@[simp] theorem State.vioFail_cab (s : State) (b : Fin 4)
    (hw : CabWf s.cab) : CabWf (s.vioFail b).cab := by
  simp (contextual := true) (maxDischargeDepth := 100) [State.vioFail, hw]
@[simp] theorem State.commitAll_cab (a : Nat) (u1 : State)
    (hw : CabWf u1.cab) : CabWf (State.commitAll a u1).cab := by
  induction a generalizing u1 with
  | zero => exact hw
  | succ n ih =>
    simp only [State.commitAll]
    repeat' split
    · exact hw
    · simp [hw]
    · exact ih _ (by simp [hw])
@[simp] theorem State.resetAfterFlush_cab (s : State) (cause : Nat) (core : Bool)
    (hw : CabWf s.cab) : CabWf (s.resetAfterFlush cause core).cab := by
  have e : (s.resetAfterFlush cause core).cab = (((s.shutdown 5).commitAll 64).resetBy cause core).cab := by
    unfold State.resetAfterFlush; rfl
  rw [e]
  exact State.resetBy_cab _ _ _ (State.commitAll_cab _ _ (State.shutdown_cab _ _ hw))
@[simp] theorem State.writeRst_cab (s : State) (v : W32)
    (hw : CabWf s.cab) : CabWf (s.writeRst v).cab := by
  simp (contextual := true) (maxDischargeDepth := 100) [State.writeRst, hw]
@[simp] theorem State.countWatchdog_cab (s : State) (n : Nat) :
    (s.countWatchdog n).cab = s.cab := by
  simp [State.countWatchdog]
@[simp] theorem State.bootWatchdog_cab (s : State)
    (hw : CabWf s.cab) : CabWf (s.bootWatchdog).cab := by
  simp (contextual := true) (maxDischargeDepth := 100) [State.bootWatchdog, hw]
@[simp] theorem State.loadPrograms_cab (s : State) :
    (s.loadPrograms).cab = s.cab := by
  simp [State.loadPrograms]
@[simp] theorem State.enablePorts_cab (s : State) :
    (s.enablePorts).cab = s.cab := by
  simp [State.enablePorts]
@[simp] theorem State.bootImage_cab (s : State) (b : Bool) :
    (s.bootImage b).cab = s.cab := by
  simp [State.bootImage]
@[simp] theorem State.refuseStaged_cab (s : State) (b : Fin 18)
    (hw : CabWf s.cab) : CabWf (s.refuseStaged b).cab := by
  simp (contextual := true) (maxDischargeDepth := 100) [State.refuseStaged, hw]
@[simp] theorem State.discard_cab (s : State) (b : Fin 18)
    (hw : CabWf s.cab) : CabWf (s.discard b).cab := by
  simp (contextual := true) (maxDischargeDepth := 100) [State.discard, hw]
@[simp] theorem State.commit_cab (s : State) (b : Fin 18) :
    (s.commit b).cab = s.cab := by
  simp [State.commit]
@[simp] theorem State.writeCommit_cab (s : State) (b : Fin 18) (v : W32)
    (hw : CabWf s.cab) : CabWf (s.writeCommit b v).cab := by
  simp (contextual := true) (maxDischargeDepth := 100) [State.writeCommit, hw]
@[simp] theorem State.commitAllBlocks_cab (s : State) (v : W32) :
    (s.commitAllBlocks v).cab = s.cab := by
  simp [State.commitAllBlocks]
@[simp] theorem State.applied_cab (s : State) (bs : List Nat) :
    (s.applied bs).cab = s.cab := by
  simp [State.applied]
@[simp] theorem State.checkSet_cab (s : State) (bs : List Nat)
    (hw : CabWf s.cab) : CabWf (s.checkSet bs).cab := by
  unfold State.checkSet
  repeat' split
  all_goals simp (contextual := true) (maxDischargeDepth := 100) [hw]
@[simp] theorem State.firstIndex_cab (s : State) (n : Nat) :
    (s.firstIndex n).cab = s.cab := by
  simp [State.firstIndex]
@[simp] theorem State.firstIndexOf_cab (t : State) (c : Nat) :
    (State.firstIndexOf t c).cab = t.cab := by
  unfold State.firstIndexOf
  repeat' split
  all_goals simp
@[simp] theorem State.effectDisp_cab (s : State) (t : State) :
    (s.effectDisp t).cab = t.cab := by
  simp [State.effectDisp]
@[simp] theorem State.effectFb_cab (s : State) (t : State) :
    (s.effectFb t).cab = t.cab := by
  simp [State.effectFb]
@[simp] theorem State.effectPwm_cab (t : State)
    (hw : CabWf t.cab) : CabWf (State.effectPwm t).cab := by
  simp (contextual := true) (maxDischargeDepth := 100) [State.effectPwm, hw]
@[simp] theorem State.effectPrf_cab (s : State) (t : State) :
    (s.effectPrf t).cab = t.cab := by
  simp [State.effectPrf]
@[simp] theorem State.effectLnk_cab (s : State) (t : State)
    (hw : CabWf t.cab) : CabWf (s.effectLnk t).cab := by
  simp (contextual := true) (maxDischargeDepth := 100) [State.effectLnk, hw]
@[simp] theorem State.effectRing_cab (s : State) (t : State) :
    (s.effectRing t).cab = t.cab := by
  simp [State.effectRing]
@[simp] theorem State.effectTwin_cab (s : State) (t : State) :
    (s.effectTwin t).cab = t.cab := by
  simp [State.effectTwin]
@[simp] theorem State.applySet_cab (s : State) (bs : List Nat)
    (hw : CabWf s.cab) : CabWf (s.applySet bs).cab := by
  simp (contextual := true) (maxDischargeDepth := 100) [State.applySet, hw]
@[simp] theorem State.applyChecked_cab (s : State)
    (hw : CabWf s.cab) : CabWf (s.applyChecked).cab := by
  simp only [State.applyChecked]
  repeat' split
  all_goals simp (contextual := true) (maxDischargeDepth := 100) [*]
@[simp] theorem State.commitCheck_cab (s : State)
    (hw : CabWf s.cab) : CabWf (s.commitCheck).cab := by
  simp (contextual := true) (maxDischargeDepth := 100) [State.commitCheck, hw]
@[simp] theorem State.badItem_cab (s : State) (f : Nat) (sl : ShelfSlot)
    (hw : CabWf s.cab) : CabWf (s.badItem f sl).cab := by
  simp (contextual := true) (maxDischargeDepth := 100) [State.badItem, hw]
@[simp] theorem State.releaseCell_cab (s : State) (f : Nat) (sl : ShelfSlot) (bs : List Byte)
    (hw : CabWf s.cab) : CabWf (s.releaseCell f sl bs).cab := by
  simp (contextual := true) (maxDischargeDepth := 100) [State.releaseCell, hw]
@[simp] theorem State.releaseItem_cab (s : State) (f : Nat) (sl : ShelfSlot) (bs : List Byte) :
    (s.releaseItem f sl bs).cab = s.cab := by
  simp [State.releaseItem]
@[simp] theorem State.releaseRec_cab (s : State) (u : Nat) (bs : List Byte)
    (hw : CabWf s.cab) : CabWf (s.releaseRec u bs).cab := by
  simp (contextual := true) (maxDischargeDepth := 100) [State.releaseRec, hw]
@[simp] theorem State.consume_cab (s : State) (f : Nat) (sl : ShelfSlot) (bs : List Byte)
    (hw : CabWf s.cab) : CabWf (s.consume f sl bs).cab := by
  simp (contextual := true) (maxDischargeDepth := 100) [State.consume, hw]
@[simp] theorem State.setRun1_cab (s : State) (on : Bool) :
    (State.setRun1 s on).cab = s.cab := by
  simp [State.setRun1]
@[simp] theorem State.cycleRun_cab (s : State) :
    (s.cycleRun).cab = s.cab := by
  simp [State.cycleRun]
@[simp] theorem State.cycleStop_cab (s : State)
    (hw : CabWf s.cab) : CabWf (s.cycleStop).cab := by
  simp (contextual := true) (maxDischargeDepth := 100) [State.cycleStop, hw]
@[simp] theorem State.writeCycCtl_cab (s : State) (v : W32)
    (hw : CabWf s.cab) : CabWf (s.writeCycCtl v).cab := by
  simp (contextual := true) (maxDischargeDepth := 100) [State.writeCycCtl, hw]
@[simp] theorem State.sampleNear_cab (s : State) (n : Nat)
    (hw : CabWf s.cab) : CabWf (s.sampleNear n).cab := by
  simp (contextual := true) (maxDischargeDepth := 100) [State.sampleNear, hw]
@[simp] theorem State.takeSamples_cab (s : State) (lines : List (Nat × Bool))
    (hw : CabWf s.cab) : CabWf (s.takeSamples lines).cab := by
  simp (contextual := true) (maxDischargeDepth := 100) [State.takeSamples, hw]
@[simp] theorem State.carrierTrain_cab (s : State) :
    (s.carrierTrain).cab = s.cab := by
  simp [State.carrierTrain]
@[simp] theorem State.dropEngine_cab (s : State) (e : Nat) :
    (s.dropEngine e).cab = s.cab := by
  unfold State.dropEngine
  repeat' split
  all_goals simp
@[simp] theorem State.abortStage_cab (s : State) (c : Nat) (i : Nat) (x : StageRun) :
    (s.abortStage c i x).cab = s.cab := by
  simp [State.abortStage]
@[simp] theorem State.overrun_cab (s : State) (c : Nat) (stages : List (Nat × StageRun))
    (hw : CabWf s.cab) : CabWf (s.overrun c stages).cab := by
  simp only [State.overrun]
  repeat' split
  all_goals simp (contextual := true) (maxDischargeDepth := 100) [*]
@[simp] theorem State.holeAll_cab (s : State) :
    (s.holeAll).cab = s.cab := by
  simp [State.holeAll]
@[simp] theorem State.dropTx_cab (s : State) (d : Nat) :
    (s.dropTx d).cab = s.cab := by
  simp [State.dropTx]
@[simp] theorem State.dropAllTx_cab (s : State) :
    (s.dropAllTx).cab = s.cab := by
  simp [State.dropAllTx]
@[simp] theorem State.endLost_cab (s : State) :
    (s.endLost).cab = s.cab := by
  simp [State.endLost]
@[simp] theorem State.deadlineAbort_cab (s : State)
    (hw : CabWf s.cab) : CabWf (s.deadlineAbort).cab := by
  simp (contextual := true) (maxDischargeDepth := 100) [State.deadlineAbort, hw]
@[simp] theorem State.drainComplete_cab (s : State)
    (hw : CabWf s.cab) : CabWf (s.drainComplete).cab := by
  simp (contextual := true) (maxDischargeDepth := 100) [State.drainComplete, hw]
@[simp] theorem State.drainCompleteRow_cab (s : State)
    (hw : CabWf s.cab) : CabWf (s.drainCompleteRow).cab := by
  simp (contextual := true) (maxDischargeDepth := 100) [State.drainCompleteRow, hw]
@[simp] theorem State.finishCycle_cab (s : State)
    (hw : CabWf s.cab) : CabWf (s.finishCycle).cab := by
  simp (contextual := true) (maxDischargeDepth := 100) [State.finishCycle, hw]
@[simp] theorem State.abortBg_cab (s : State) (c : Nat) (i : Nat)
    (hw : CabWf s.cab) : CabWf (s.abortBg c i).cab := by
  unfold State.abortBg
  repeat' split
  all_goals simp (contextual := true) (maxDischargeDepth := 100) [hw]
@[simp] theorem State.abortAllBg_cab (s : State)
    (hw : CabWf s.cab) : CabWf (s.abortAllBg).cab := by
  simp (contextual := true) (maxDischargeDepth := 100) [State.abortAllBg, hw]
@[simp] theorem State.cycleEnd_cab (s : State)
    (hw : CabWf s.cab) : CabWf (s.cycleEnd).cab := by
  simp (contextual := true) (maxDischargeDepth := 100) [State.cycleEnd, hw]
@[simp] theorem State.sweepDone_cab (s : State) :
    (s.sweepDone).cab = s.cab := by
  simp [State.sweepDone]
@[simp] theorem State.countCabEcc_cab (s : State) (ecc : Ecc) (a : Nat) :
    (s.countCabEcc ecc a).cab = s.cab := by
  unfold State.countCabEcc
  repeat' split
  all_goals simp
@[simp] theorem State.scrubGrant_cab (s : State) (bank : Fin 8) (ecc : Ecc) (w : Fin 16) :
    (s.scrubGrant bank ecc w).cab = s.cab := by
  simp [State.scrubGrant]
@[simp] theorem applyCancelMark_cab (d : Desc) (cmd : Option Cmd) (s : State) :
    (applyCancelMark d cmd s).cab = s.cab := by
  simp [applyCancelMark]
@[simp] theorem applyCtxCancel_cab (d : Desc) (cmd : Option Cmd) (s : State) :
    (applyCtxCancel d cmd s).cab = s.cab := by
  simp [applyCtxCancel]
@[simp] theorem applyLow_cab (op : Nat) (a : Desc) (u2 : Option Cmd) (u3 : State)
    (hw : CabWf u3.cab) : CabWf (applyLow op a u2 u3).cab := by
  unfold applyLow
  repeat' split
  all_goals simp (contextual := true) (maxDischargeDepth := 100) [hw]
@[simp] theorem applyGuard_cab (b : Bool) (k : Nat) (a : Desc) (u3 : Option Cmd) (u4 : State)
    (hw : CabWf u4.cab) : CabWf (applyGuard b k a u3 u4).cab := by
  unfold applyGuard
  repeat' split
  all_goals simp (contextual := true) (maxDischargeDepth := 100) [hw]
@[simp] theorem applyHigh_cab (op : Nat) (a : Desc) (u2 : Option Cmd) (u3 : State)
    (hw : CabWf u3.cab) : CabWf (applyHigh op a u2 u3).cab := by
  unfold applyHigh
  repeat' split
  all_goals simp (contextual := true) (maxDischargeDepth := 100) [hw]
@[simp] theorem applyOp_cab (op : BitVec 8) (a : Desc) (u2 : Option Cmd) (u3 : State)
    (hw : CabWf u3.cab) : CabWf (applyOp op a u2 u3).cab := by
  unfold applyOp
  repeat' split
  all_goals simp (contextual := true) (maxDischargeDepth := 100) [hw]
theorem State.hingeNow_cab (s : State) (f : Fetched) (hw : CabWf s.cab) :
    CabWf (s.atHinge f.op f.d (some f.cmd) (applyOp f.op)).cab :=
  State.atHinge_cab s f.op f.d _ _ (fun d c t h => applyOp_cab f.op d c t h) hw
@[simp] theorem State.hingeOne_cab (a : State × List Nat × List Fetched) (f : Fetched) (hw : CabWf a.1.cab) :
    CabWf (State.hingeOne a f).1.cab := by
  obtain ⟨s, held, kept⟩ := a
  simp only at hw
  have h1 := State.hingeNow_cab s f hw
  simp only [State.hingeOne]
  split
  · dsimp only
    split <;> simp [hw]
  · split
    · simpa using hw
    · split
      · exact h1
      · simpa using hw
      · dsimp only
        split <;> simp [hw]
@[simp] theorem State.hingeQueue_cab (s : State)
    (hw : CabWf s.cab) : CabWf (s.hingeQueue).cab := by
  exact foldl_fst_cab _ (fun p b h => State.hingeOne_cab p b h) _ _ (by simp [hw])
@[simp] theorem State.hingeMirror_cab (s : State) (m : Mirror)
    (hw : CabWf s.cab) : CabWf (s.hingeMirror m).cab := by
  simp (contextual := true) (maxDischargeDepth := 100) [State.hingeMirror, hw]
@[simp] theorem State.hingeMirrors_cab (s : State)
    (hw : CabWf s.cab) : CabWf (s.hingeMirrors).cab := by
  simp (contextual := true) (maxDischargeDepth := 100) [State.hingeMirrors, hw]
@[simp] theorem State.reserve_cab (s : State) (c : Nat) (i : Nat) (x : StageRun) :
    (s.reserve c i x).cab = s.cab := by
  simp [State.reserve]
@[simp] theorem State.reserveOf_cab (s : State) (c : Nat) (i : Nat) :
    (s.reserveOf c i).cab = s.cab := by
  unfold State.reserveOf
  repeat' split
  all_goals simp
@[simp] theorem State.makeRuns_cab (s : State) :
    (s.makeRuns).cab = s.cab := by
  simp [State.makeRuns]
@[simp] theorem State.startStage_cab (s : State) (c : Nat) (i : Nat) :
    (s.startStage c i).cab = s.cab := by
  unfold State.startStage
  repeat' split
  all_goals simp
@[simp] theorem State.startRuns_cab (s : State) :
    (s.startRuns).cab = s.cab := by
  simp [State.startRuns]
@[simp] theorem State.deliverHeld_cab (s : State)
    (hw : CabWf s.cab) : CabWf (s.deliverHeld).cab := by
  simp (contextual := true) (maxDischargeDepth := 100) [State.deliverHeld, hw]
@[simp] theorem State.applyCntSet_cab (s : State) (n : Nat) :
    (s.applyCntSet n).cab = s.cab := by
  unfold State.applyCntSet
  repeat' split
  all_goals simp
@[simp] theorem State.applyCntSets_cab (s : State) :
    (s.applyCntSets).cab = s.cab := by
  simp [State.applyCntSets]
@[simp] theorem State.disableBad_cab (s : State)
    (hw : CabWf s.cab) : CabWf (s.disableBad).cab := by
  simp (contextual := true) (maxDischargeDepth := 100) [State.disableBad, hw]
@[simp] theorem State.nextCycle_cab (s : State)
    (hw : CabWf s.cab) : CabWf (s.nextCycle).cab := by
  simp (contextual := true) (maxDischargeDepth := 100) [State.nextCycle, hw]
@[simp] theorem State.hingeStages_cab (s : State)
    (hw : CabWf s.cab) : CabWf (s.hingeStages).cab := by
  simp (contextual := true) (maxDischargeDepth := 100) [State.hingeStages, hw]
@[simp] theorem State.hingeSends_cab (s : State)
    (hw : CabWf s.cab) : CabWf (s.hingeSends).cab := by
  simp (contextual := true) (maxDischargeDepth := 100) [State.hingeSends, hw]
@[simp] theorem State.clearPosted_cab (s : State) :
    (s.clearPosted).cab = s.cab := by
  simp [State.clearPosted]
@[simp] theorem State.hinge_cab (s : State)
    (hw : CabWf s.cab) : CabWf (s.hinge).cab := by
  simp (contextual := true) (maxDischargeDepth := 100) [State.hinge, hw]
@[simp] theorem State.hingePoint_cab (s : State)
    (hw : CabWf s.cab) : CabWf (s.hingePoint).cab := by
  simp (contextual := true) (maxDischargeDepth := 100) [State.hingePoint, hw]
@[simp] theorem State.writeGo_cab (s : State) (v : W32) :
    (s.writeGo v).cab = s.cab := by
  simp [State.writeGo]
@[simp] theorem State.writeStage_cab (s : State) (r : Reg) (sel : Nat) (v : W32)
    (hw : CabWf s.cab) : CabWf (s.writeStage r sel v).cab := by
  unfold State.writeStage
  repeat' split
  all_goals simp (contextual := true) (maxDischargeDepth := 100) [hw]
@[simp] theorem State.writeRingCmd_cab (s : State) (v : W32)
    (hw : CabWf s.cab) : CabWf (s.writeRingCmd v).cab := by
  simp (contextual := true) (maxDischargeDepth := 100) [State.writeRingCmd, hw]
theorem State.writeOwn_cab (s t : State) (a : Nat) (v : W32) (h : s.writeOwn a v = some t)
    (hw : CabWf s.cab) : CabWf t.cab := by
  unfold State.writeOwn at h
  split at h
  all_goals first | (cases h; done) | (cases h; split <;> simp [hw]) | (cases h; simp [hw])
@[simp] theorem State.writeActive_cab (s : State) (r : Reg) (v : W32)
    (hw : CabWf s.cab) : CabWf (s.writeActive r v).cab := by
  unfold State.writeActive
  split
  · next h => exact State.writeOwn_cab _ _ _ _ h hw
  · repeat' split
    all_goals simp [hw]
@[simp] theorem State.writeView_cab (s : State) (r : Reg) (v : W32)
    (hw : CabWf s.cab) : CabWf (s.writeView r v).cab := by
  simp (contextual := true) (maxDischargeDepth := 100) [State.writeView, hw]
@[simp] theorem State.bar0Write_cab (s : State) (a : Nat) (v : W32)
    (hw : CabWf s.cab) : CabWf (State.bar0Write s a v).cab := by
  unfold State.bar0Write
  repeat' split
  all_goals simp (contextual := true) (maxDischargeDepth := 100) [hw]

end Sys2Proof.Machine
end

