-- ==== Sys2Proof/Laws/Queue.lean ====
section
/-! SUPPORT. No operation of the block touches the queue of waiting commands. -/

namespace Sys2Proof.Machine

@[simp] theorem ite_pending (c : Prop) [Decidable c] (a b : State) :
    (if c then a else b).pending = if c then a.pending else b.pending := by split <;> rfl
@[simp] theorem foldl_pending {β : Type} (f : State → β → State)
    (h : ∀ s b, (f s b).pending = s.pending) (l : List β) (s : State) :
    (l.foldl f s).pending = s.pending := by
  induction l generalizing s with
  | nil => rfl
  | cons b l ih => simp [ih, h]
@[simp] theorem foldl_fst_pending {α β : Type} (f : State × α → β → State × α)
    (h : ∀ p b, (f p b).1.pending = p.1.pending) (l : List β) (p : State × α) :
    (l.foldl f p).1.pending = p.1.pending := by
  induction l generalizing p with
  | nil => rfl
  | cons b l ih => simp [ih, h]

@[simp] theorem State.bump_pending (s : State) (r : Reg) (sel : optParam Nat 0) (n : optParam Nat 1) :
    (s.bump r sel n).pending = s.pending := by
  simp [State.bump]
@[simp] theorem State.keepMax_pending (s : State) (r : Reg) (sel : Nat) (n : Nat) :
    (s.keepMax r sel n).pending = s.pending := by
  simp [State.keepMax]
@[simp] theorem State.upTo_pending (s : State) (t : W64) :
    (s.upTo t).pending = s.pending := by
  simp [State.upTo]
@[simp] theorem State.clockEdge_pending (s : State) :
    (s.clockEdge).pending = s.pending := by
  simp [State.clockEdge]
@[simp] theorem State.draw_pending (s : State) :
    (s.draw).2.pending = s.pending := by
  simp [State.draw]
@[simp] theorem State.markDirty_pending (s : State) (a : Nat) :
    (s.markDirty a).pending = s.pending := by
  unfold State.markDirty
  repeat' split
  all_goals simp
@[simp] theorem State.setCabByte_pending (s : State) (a : Nat) (v : Byte) :
    (s.setCabByte a v).pending = s.pending := by
  simp [State.setCabByte]
@[simp] theorem State.setCabWord_pending (s : State) (a : Nat) (v : W32) :
    (s.setCabWord a v).pending = s.pending := by
  simp [State.setCabWord]
@[simp] theorem State.signal_pending (s : State) (v : Nat) :
    (s.signal v).pending = s.pending := by
  simp [State.signal]
@[simp] theorem State.recBump_pending (s : State) (off : Nat) :
    (s.recBump off).pending = s.pending := by
  simp [State.recBump]
@[simp] theorem State.askFlush_pending (s : State) (cause : Nat) (cmds : List Cmd) :
    (s.askFlush cause cmds).pending = s.pending := by
  unfold State.askFlush
  repeat' split
  all_goals simp
@[simp] theorem State.logEvent_pending (s : State) (code : BitVec 16) (src : Nat) (sev : Sev) (pay : Payload) :
    (s.logEvent code src sev pay).pending = s.pending := by
  simp [State.logEvent]
@[simp] theorem State.postEntry_pending (s : State) (n : Nat) (e : CqEntry) :
    (s.postEntry n e).pending = s.pending := by
  simp [State.postEntry]
@[simp] theorem State.post_pending (s : State) (code : BitVec 16) (sev : Sev) (src : Nat) (pay : optParam Payload 0) :
    (s.post code sev src pay).pending = s.pending := by
  simp [State.post]
@[simp] theorem State.complete_pending (s : State) (c : Option Cmd) (status : BitVec 16) (pay : optParam Payload 0) :
    (s.complete c status pay).pending = s.pending := by
  unfold State.complete
  repeat' split
  all_goals simp
@[simp] theorem State.fillStrm_pending (s : State) (k : Nat) :
    (s.fillStrm k).pending = s.pending := by
  simp [State.fillStrm]
@[simp] theorem State.countPage_pending (s : State) (k : Nat) :
    (s.countPage k).pending = s.pending := by
  simp [State.countPage]
@[simp] theorem State.closePage_pending (s : State) (k : Nat) :
    (s.closePage k).pending = s.pending := by
  simp [State.closePage]
@[simp] theorem State.putRec_pending (s : State) (k : Nat) (r : Rec) :
    (s.putRec k r).pending = s.pending := by
  simp [State.putRec]
@[simp] theorem State.wakeDom_pending (s : State) (d : Nat) (cmds : List (Option Cmd)) :
    (s.wakeDom d cmds).pending = s.pending := by
  simp only [State.wakeDom]
  repeat' split
  all_goals simp_all
@[simp] theorem State.touchBank_pending (s : State) (a : Nat) :
    (s.touchBank a).pending = s.pending := by
  simp [State.touchBank]
@[simp] theorem State.setDrawer_pending (s : State) (c : Nat) (w : Nat) (v : W24) :
    (s.setDrawer c w v).pending = s.pending := by
  unfold State.setDrawer
  repeat' split
  all_goals simp
@[simp] theorem State.setStage_pending (s : State) (c : Nat) (i : Nat) (x : StageRun) :
    (s.setStage c i x).pending = s.pending := by
  unfold State.setStage
  repeat' split
  all_goals simp
@[simp] theorem State.trace_pending (s : State) (ty : TrcTy) (ctx : Nat) (stage : Nat) (flags : Nat) (eng : Nat) (arg0 : Nat) (arg1 : Nat) :
    (s.trace ty ctx stage flags eng arg0 arg1).pending = s.pending := by
  simp [State.trace]
@[simp] theorem State.issue_pending (s : State) (n : Nat) :
    (s.issue n).pending = s.pending := by
  simp [State.issue]
@[simp] theorem State.retire_pending (s : State) (n : Nat) :
    (s.retire n).pending = s.pending := by
  simp [State.retire]
@[simp] theorem State.dropTok_pending (s : State) (n : Nat) :
    (s.dropTok n).pending = s.pending := by
  simp [State.dropTok]
@[simp] theorem State.retireStage_pending (s : State) (c : Nat) (i : Nat) (x : StageRun) :
    (s.retireStage c i x).pending = s.pending := by
  simp [State.retireStage]
@[simp] theorem State.strayTok_pending (s : State) (c : Nat) (i : Nat) (kind : Nat) (src : Nat) :
    (s.strayTok c i kind src).pending = s.pending := by
  simp [State.strayTok]
@[simp] theorem State.loseRun_pending (s : State) (c : Nat) :
    (s.loseRun c).pending = s.pending := by
  unfold State.loseRun
  repeat' split
  all_goals simp
@[simp] theorem State.holeSlot_pending (s : State) (f : Nat) (t : Nat) :
    (s.holeSlot f t).pending = s.pending := by
  simp only [State.holeSlot]
  repeat' split
  all_goals simp_all
@[simp] theorem State.holeEmpty_pending (s : State) (c : Nat) (i : Nat) (x : StageRun) :
    (s.holeEmpty c i x).pending = s.pending := by
  simp [State.holeEmpty]
@[simp] theorem State.putItem_pending (s : State) (c : Nat) (i : Nat) (bytes : List Byte) :
    (s.putItem c i bytes).pending = s.pending := by
  simp only [State.putItem]
  repeat' split
  all_goals simp_all
@[simp] theorem State.makeReady_pending (s : State) (c : Nat) (i : Nat) (x : StageRun) :
    (s.makeReady c i x).pending = s.pending := by
  simp [State.makeReady]
@[simp] theorem State.markCancelled_pending (s : State) (c : Nat) (i : Nat) (x : StageRun) :
    (s.markCancelled c i x).pending = s.pending := by
  simp [State.markCancelled]
@[simp] theorem State.token_pending (a : Nat) (u1 : State) (u2 : Nat) (u3 : Nat) (u4 : Bool) :
    (State.token a u1 u2 u3 u4).pending = u1.pending := by
  induction a generalizing u1 u2 u3 u4 with
  | zero => rfl
  | succ n ih =>
    simp only [State.token]
    repeat' split
    all_goals simp [ih]
@[simp] theorem State.cancelStage_pending (s : State) (c : Nat) (i : Nat) (x : StageRun) :
    (s.cancelStage c i x).pending = s.pending := by
  simp [State.cancelStage]
@[simp] theorem State.extStage_pending (s : State) (c : Nat) (i : Nat) (kind : Nat) :
    (s.extStage c i kind).pending = s.pending := by
  unfold State.extStage
  repeat' split
  all_goals simp
@[simp] theorem State.extTok_pending (s : State) (c : Nat) (kind : Nat) :
    (s.extTok c kind).pending = s.pending := by
  unfold State.extTok
  repeat' split
  all_goals simp
@[simp] theorem State.extArrive_pending (s : State) (c : Nat) (kind : Nat) :
    (s.extArrive c kind).pending = s.pending := by
  simp [State.extArrive]
@[simp] theorem State.endStage_pending (s : State) (c : Nat) (i : Nat) (mask : BitVec 16) :
    (s.endStage c i mask).pending = s.pending := by
  unfold State.endStage
  repeat' split
  all_goals simp
@[simp] theorem State.putDuty_pending (s : State) (r : EngRun) (ws : List W24) :
    (s.putDuty r ws).pending = s.pending := by
  unfold State.putDuty
  repeat' split
  all_goals simp
@[simp] theorem State.afterWord_pending (s : State) (e : Nat) (r : EngRun) (me : MemEff) :
    (s.afterWord e r me).pending = s.pending := by
  unfold State.afterWord
  repeat' split
  all_goals simp
@[simp] theorem State.runWord_pending (s : State) (x : Engine) (r : EngRun) (io : Issue) (w : W64) (bk : Bool) :
    (s.runWord x r io w bk).pending = s.pending := by
  unfold State.runWord
  repeat' split
  all_goals simp
@[simp] theorem State.fetchWord_pending (s : State) (x : Engine) (r : EngRun) (io : Issue) (w : W64) :
    (s.fetchWord x r io w).pending = s.pending := by
  unfold State.fetchWord
  repeat' split
  all_goals simp
@[simp] theorem issueWord_pending (io : Issue) (w : W64) (s : State) :
    (issueWord io w s).pending = s.pending := by
  simp only [issueWord]
  repeat' split
  all_goals simp_all
@[simp] theorem xferOut_pending (x : Engine) (t : Xfer) (s : State) (i : Nat) :
    (xferOut x t s i).pending = s.pending := by
  simp [xferOut]
@[simp] theorem State.xferEnd_pending (s : State) (e : Nat) (t : Xfer) :
    (s.xferEnd e t).pending = s.pending := by
  simp [State.xferEnd]
@[simp] theorem State.completeMotion_pending (s : State) (c : Nat) (cmd : Option Cmd) (status : BitVec 16) :
    (s.completeMotion c cmd status).pending = s.pending := by
  simp [State.completeMotion]
@[simp] theorem State.reply_pending (s : State) (c : Nat) (cmd : Option Cmd) (status : BitVec 16) :
    (s.reply c cmd status).pending = s.pending := by
  simp [State.reply]
@[simp] theorem State.answer_pending (s : State) (c : Nat) (cmd : Option Cmd) (st : BitVec 16) :
    (s.answer c cmd st).pending = s.pending := by
  simp [State.answer]
@[simp] theorem State.endMotion_pending (s : State) (c : Nat) (status : BitVec 16) :
    (s.endMotion c status).pending = s.pending := by
  simp only [State.endMotion]
  repeat' split
  all_goals simp_all
@[simp] theorem State.endSeg_pending (s : State) (c : Nat) (g : PvtSeg) (status : BitVec 16) :
    (s.endSeg c g status).pending = s.pending := by
  unfold State.endSeg
  repeat' split
  all_goals simp
@[simp] theorem State.endAllMotion_pending (s : State) (c : Nat) (status : BitVec 16) :
    (s.endAllMotion c status).pending = s.pending := by
  simp only [State.endAllMotion]
  repeat' split
  all_goals simp_all
@[simp] theorem State.hmResult_pending (s : State) (c : Nat) (cause : Nat) (st : Nat) :
    (s.hmResult c cause st).pending = s.pending := by
  simp [State.hmResult]
@[simp] theorem State.setHomed_pending (s : State) (c : Nat) (b : Bool) :
    (s.setHomed c b).pending = s.pending := by
  simp [State.setHomed]
@[simp] theorem State.homingEnd_pending (s : State) (c : Nat) (cause : Nat) :
    (s.homingEnd c cause).pending = s.pending := by
  simp [State.homingEnd]
@[simp] theorem State.stopAt_pending (s : State) (c : Nat) (d : Rat) :
    (s.stopAt c d).pending = s.pending := by
  simp [State.stopAt]
@[simp] theorem State.homingFail_pending (s : State) (c : Nat) (cause : Nat) :
    (s.homingFail c cause).pending = s.pending := by
  simp [State.homingFail]
@[simp] theorem State.withRate_pending (s : State) (tm : TimeSt) :
    (s.withRate tm).pending = s.pending := by
  simp [State.withRate]
@[simp] theorem State.pwmLeave_pending (s : State) (m : Nat) (t : PwmSt) :
    (s.pwmLeave m t).pending = s.pending := by
  simp [State.pwmLeave]
@[simp] theorem State.pwmOff_pending (s : State) (m : Nat) :
    (s.pwmOff m).pending = s.pending := by
  unfold State.pwmOff
  repeat' split
  all_goals simp
@[simp] theorem State.disarm_pending (s : State) (k : Nat) :
    (s.disarm k).pending = s.pending := by
  simp [State.disarm]
@[simp] theorem State.disarmAll_pending (s : State) (c : Nat) :
    (s.disarmAll c).pending = s.pending := by
  simp [State.disarmAll]
@[simp] theorem State.axisOff_pending (s : State) (c : Nat) :
    (s.axisOff c).pending = s.pending := by
  simp only [State.axisOff]
  repeat' split
  all_goals simp_all
@[simp] theorem State.axisQstop_pending (s : State) (c : Nat) :
    (s.axisQstop c).pending = s.pending := by
  simp [State.axisQstop]
@[simp] theorem State.groupFault_pending (s : State) (g : Nat) (c : Nat) :
    (s.groupFault g c).pending = s.pending := by
  simp only [State.groupFault]
  repeat' split
  all_goals simp_all
@[simp] theorem State.react_pending (s : State) (c : Nat) (off : Bool) :
    (s.react c off).pending = s.pending := by
  simp only [State.react]
  repeat' split
  all_goals simp_all
@[simp] theorem State.stopReact_pending (s : State) (c : Nat) :
    (s.stopReact c).pending = s.pending := by
  simp [State.stopReact]
@[simp] theorem State.torqueOff_pending (s : State) (c : Nat) :
    (s.torqueOff c).pending = s.pending := by
  simp [State.torqueOff]
@[simp] theorem State.fbSticky_pending (s : State) (n : Nat) (bit : Nat) :
    (s.fbSticky n bit).pending = s.pending := by
  simp [State.fbSticky]
@[simp] theorem State.fbFault_pending (s : State) (code : BitVec 16) (n : Nat) (used : Bool) (pay : Payload) :
    (s.fbFault code n used pay).pending = s.pending := by
  simp [State.fbFault]
@[simp] theorem State.indexAgain_pending (s : State) (n : Nat) (r : W32) :
    (s.indexAgain n r).pending = s.pending := by
  simp [State.indexAgain]
@[simp] theorem State.index_pending (s : State) (n : Nat) :
    (s.index n).pending = s.pending := by
  simp only [State.index]
  repeat' split
  all_goals simp_all
@[simp] theorem State.turnDir_pending (s : State) (n : Nat) (up : Bool) :
    (s.turnDir n up).pending = s.pending := by
  simp [State.turnDir]
@[simp] theorem State.countEdge_pending (s : State) (n : Nat) (up : Bool) (t : W64) :
    (s.countEdge n up t).pending = s.pending := by
  simp [State.countEdge]
@[simp] theorem State.acceptEdge_pending (s : State) (n : Nat) (up : Bool) (a : Bool) (b : Bool) (z : Bool) (t : W64) :
    (s.acceptEdge n up a b z t).pending = s.pending := by
  simp [State.acceptEdge]
@[simp] theorem State.acceptQuar_pending (s : State) (n : Nat) (q : QEdge) (z : Bool) :
    (s.acceptQuar n q z).pending = s.pending := by
  simp [State.acceptQuar]
@[simp] theorem State.testEdge_pending (s : State) (n : Nat) (lineB : Bool) (a : Bool) (b : Bool) (z : Bool) :
    (s.testEdge n lineB a b z).pending = s.pending := by
  simp [State.testEdge]
@[simp] theorem State.glitch_pending (s : State) (n : Nat) (a : Bool) (b : Bool) :
    (s.glitch n a b).pending = s.pending := by
  simp [State.glitch]
@[simp] theorem State.quadErr_pending (s : State) (n : Nat) (a : Bool) (b : Bool) (z : Bool) :
    (s.quadErr n a b z).pending = s.pending := by
  unfold State.quadErr
  repeat' split
  all_goals simp
@[simp] theorem State.quadEdge_pending (s : State) (n : Nat) (a : Bool) (b : Bool) (z : Bool) :
    (s.quadEdge n a b z).pending = s.pending := by
  simp only [State.quadEdge]
  repeat' split
  all_goals simp_all
@[simp] theorem State.idxArm_pending (s : State) (v : W32) :
    (s.idxArm v).pending = s.pending := by
  simp [State.idxArm]
@[simp] theorem State.cntSet_pending (s : State) (v : W32) :
    (s.cntSet v).pending = s.pending := by
  simp [State.cntSet]
@[simp] theorem State.fbLatch_pending (s : State) (v : W32) :
    (s.fbLatch v).pending = s.pending := by
  simp [State.fbLatch]
@[simp] theorem State.fbStatusClear_pending (s : State) (v : W32) :
    (s.fbStatusClear v).pending = s.pending := by
  simp [State.fbStatusClear]
@[simp] theorem State.ssiPulse_pending (s : State) (n : Fin 8) (tclk : Nat) (t : W64) :
    (s.ssiPulse n tclk t).pending = s.pending := by
  simp [State.ssiPulse]
@[simp] theorem State.ssiClock_pending (s : State) (n : Fin 8) (nb : Nat) (tclk : Nat) (t : W64) :
    (s.ssiClock n nb tclk t).pending = s.pending := by
  simp [State.ssiClock]
@[simp] theorem State.sdWrite_pending (s : State) (n : Nat) (c : Nat) (r0 : Int) (r1 : Int) (r2 : Int) (ctr : Int) (settle : Bool) :
    (s.sdWrite n c r0 r1 r2 ctr settle).pending = s.pending := by
  simp [State.sdWrite]
@[simp] theorem State.sdFrameReady_pending (s : State) (n : Fin 8) (r0 : Int) (r1 : Int) (r2 : Int) (edge : Int) :
    (s.sdFrameReady n r0 r1 r2 edge).pending = s.pending := by
  simp [State.sdFrameReady]
@[simp] theorem State.latchNear_pending (s : State) (n : Nat) :
    (s.latchNear n).pending = s.pending := by
  simp [State.latchNear]
@[simp] theorem State.chatter_pending (s : State) (c : Nat) (k : Nat) :
    (s.chatter c k).pending = s.pending := by
  simp [State.chatter]
@[simp] theorem State.sampleInput_pending (s : State) (c : Nat) (k : Nat) (raw : Bool) (need : Nat) (cnt : W32) :
    (s.sampleInput c k raw need cnt).pending = s.pending := by
  simp [State.sampleInput]
@[simp] theorem State.axisInputSample_pending (s : State) (n : Fin 8) (limp : Bool) (limn : Bool) (home : Bool) :
    (s.axisInputSample n limp limn home).pending = s.pending := by
  simp [State.axisInputSample]
@[simp] theorem State.farInputs_pending (s : State) (c : Nat) (nst : BitVec 16) (pos : W32) :
    (s.farInputs c nst pos).pending = s.pending := by
  simp [State.farInputs]
@[simp] theorem State.setWb_pending (s : State) (c : Nat) (k : Nat) (wb : Bool) :
    (s.setWb c k wb).pending = s.pending := by
  simp [State.setWb]
@[simp] theorem State.writeAxin_pending (s : State) (c : Nat) :
    (s.writeAxin c).pending = s.pending := by
  simp [State.writeAxin]
@[simp] theorem State.driveTxdis_pending (s : State) (p : Nat) :
    (s.driveTxdis p).pending = s.pending := by
  simp [State.driveTxdis]
@[simp] theorem State.driveVioc_pending (s : State) :
    (s.driveVioc).pending = s.pending := by
  simp [State.driveVioc]
@[simp] theorem State.sendAt_pending (s : State) (d : Nat) (at10 : Nat) (c : Cell) :
    (s.sendAt d at10 c).pending = s.pending := by
  simp [State.sendAt]
@[simp] theorem State.sendCell_pending (s : State) (d : Nat) (c : Cell) :
    (s.sendCell d c).pending = s.pending := by
  simp [State.sendCell]
@[simp] theorem State.sendTrain_pending (s : State) (d : Nat) (from10 : Nat) (cs : List Cell) :
    (s.sendTrain d from10 cs).pending = s.pending := by
  simp [State.sendTrain]
@[simp] theorem State.sendMarks_pending (s : State) :
    (s.sendMarks).pending = s.pending := by
  simp [State.sendMarks]
@[simp] theorem State.noteCarrier_pending (s : State) (d : Nat) (n : Nat) :
    (s.noteCarrier d n).pending = s.pending := by
  unfold State.noteCarrier
  repeat' split
  all_goals simp
@[simp] theorem State.sendTrains_pending (s : State) (d : Nat) :
    (s.sendTrains d).pending = s.pending := by
  simp [State.sendTrains]
@[simp] theorem State.countLate_pending (s : State) (c : Nat) :
    (s.countLate c).pending = s.pending := by
  simp [State.countLate]
@[simp] theorem State.noteAge_pending (s : State) (d : Nat) (q : TxItem) (k : Cell) :
    (s.noteAge d q k).pending = s.pending := by
  simp [State.noteAge]
@[simp] theorem State.startItem_pending (s : State) (d : Nat) (q : TxItem) :
    (s.startItem d q).pending = s.pending := by
  unfold State.startItem
  repeat' split
  all_goals simp
@[simp] theorem State.startCells_pending (s : State) (d : Nat) :
    (s.startCells d).pending = s.pending := by
  simp [State.startCells]
@[simp] theorem State.acceptItem_pending (s : State) (d : Nat) (cell : Option Cell) (bytes : List Byte) (ctx : Nat) (first : Bool) :
    (s.acceptItem d cell bytes ctx first).pending = s.pending := by
  simp [State.acceptItem]
@[simp] theorem State.startAll_pending (s : State) :
    (s.startAll).pending = s.pending := by
  simp [State.startAll]
@[simp] theorem State.refillCredits_pending (s : State) :
    (s.refillCredits).pending = s.pending := by
  simp [State.refillCredits]
@[simp] theorem State.pushAcyc_pending (s : State) (d : Nat) (a : Acyc) :
    (s.pushAcyc d a).pending = s.pending := by
  simp [State.pushAcyc]
@[simp] theorem State.nextSeq_pending (s : State) :
    (s.nextSeq).2.pending = s.pending := by
  simp [State.nextSeq]
@[simp] theorem State.startAdm_pending (s : State) (r : Nat) (n : Nat) (point : Nat) (count : Nat) (wr : Bool) (vals : List W32) (what : AdmFor) :
    (s.startAdm r n point count wr vals what).pending = s.pending := by
  simp [State.startAdm]
@[simp] theorem State.ageAdm_pending (s : State) :
    (s.ageAdm).pending = s.pending := by
  simp only [State.ageAdm]
  rw [foldl_pending _ (fun s d => ?_)]
  · rw [foldl_pending _ (fun s a => by simp)]
  · rw [foldl_pending _ (fun s n => ?_)]
    rw [foldl_pending _ (fun s n => by simp)]
@[simp] theorem State.startAcyc_pending (s : State) (d : Nat) :
    (s.startAcyc d).pending = s.pending := by
  simp only [State.startAcyc]
  repeat' split
  all_goals simp_all
@[simp] theorem State.checkRx_pending (s : State) (p : Nat) (r : RxCell) :
    (s.checkRx p r).1.pending = s.pending := by
  unfold State.checkRx
  repeat' split
  all_goals simp
@[simp] theorem State.extendPos_pending (s : State) (c : Nat) :
    (s.extendPos c).pending = s.pending := by
  simp [State.extendPos]
@[simp] theorem State.shiftAxis_pending (s : State) (c : Nat) (d : Rat) :
    (s.shiftAxis c d).pending = s.pending := by
  simp [State.shiftAxis]
@[simp] theorem State.produce_pending (s : State) (kind : Nat) (src : Nat) (p : Rat) (v : Rat) (t : Int) :
    (s.produce kind src p v t).pending = s.pending := by
  simp [State.produce]
@[simp] theorem State.produceNear_pending (s : State) (n : Nat) :
    (s.produceNear n).pending = s.pending := by
  simp [State.produceNear]
@[simp] theorem State.moveVirtual_pending (s : State) (k : Nat) :
    (s.moveVirtual k).pending = s.pending := by
  simp [State.moveVirtual]
@[simp] theorem State.freezeOne_pending (s : State) (k : Nat) :
    (s.freezeOne k).pending = s.pending := by
  simp [State.freezeOne]
@[simp] theorem State.freezeMs_pending (s : State) :
    (s.freezeMs).pending = s.pending := by
  simp [State.freezeMs]
@[simp] theorem State.msLook_pending (s : State) (c : Nat) (k : Nat) :
    (s.msLook c k).1.pending = s.pending := by
  simp only [State.msLook]
  repeat' split
  all_goals simp_all
@[simp] theorem State.advance_pending (s : State) (c : Nat) :
    (s.advance c).pending = s.pending := by
  simp only [State.advance]
  repeat' split
  all_goals simp_all
@[simp] theorem State.advanceAll_pending (s : State) :
    (s.advanceAll).pending = s.pending := by
  simp [State.advanceAll]
@[simp] theorem State.runPvt_pending (s : State) (c : Nat) :
    (s.runPvt c).pending = s.pending := by
  simp only [State.runPvt]
  repeat' split
  all_goals simp_all
@[simp] theorem State.runStep_pending (s : State) (c : Nat) :
    (s.runStep c).pending = s.pending := by
  simp [State.runStep]
@[simp] theorem State.runGear_pending (s : State) (c : Nat) (t : Int) :
    (s.runGear c t).pending = s.pending := by
  simp [State.runGear]
@[simp] theorem State.runCam_pending (s : State) (c : Nat) (t : Int) :
    (s.runCam c t).pending = s.pending := by
  simp [State.runCam]
@[simp] theorem State.recap_pending (s : State) (c : Nat) :
    (s.recap c).pending = s.pending := by
  simp only [State.recap]
  repeat' split
  all_goals simp_all
@[simp] theorem State.swlVel_pending (s : State) (c : Nat) :
    (s.swlVel c).pending = s.pending := by
  simp only [State.swlVel]
  repeat' split
  all_goals simp_all
@[simp] theorem State.limitHit_pending (s : State) (c : Nat) (v : Rat) :
    (s.limitHit c v).pending = s.pending := by
  simp only [State.limitHit]
  repeat' split
  all_goals simp_all
@[simp] theorem State.swlFollow_pending (s : State) (c : Nat) :
    (s.swlFollow c).pending = s.pending := by
  simp only [State.swlFollow]
  repeat' split
  all_goals simp_all
@[simp] theorem State.homeStop_pending (s : State) (c : Nat) (st : HmSt) :
    (s.homeStop c st).pending = s.pending := by
  simp [State.homeStop]
@[simp] theorem State.homeRamp_pending (s : State) (c : Nat) :
    (s.homeRamp c).pending = s.pending := by
  simp [State.homeRamp]
@[simp] theorem State.reference_pending (s : State) (c : Nat) (at_ : Rat) :
    (s.reference c at_).pending = s.pending := by
  simp [State.reference]
@[simp] theorem State.homeFound_pending (s : State) (c : Nat) (at_ : Rat) :
    (s.homeFound c at_).pending = s.pending := by
  simp [State.homeFound]
@[simp] theorem State.homeDone_pending (s : State) (c : Nat) :
    (s.homeDone c).pending = s.pending := by
  simp [State.homeDone]
@[simp] theorem State.homePush_pending (s : State) (c : Nat) :
    (s.homePush c).pending = s.pending := by
  simp [State.homePush]
@[simp] theorem State.homeGo_pending (s : State) (c : Nat) (st : HmSt) :
    (s.homeGo c st).pending = s.pending := by
  simp [State.homeGo]
@[simp] theorem State.homeReverse_pending (s : State) (c : Nat) :
    (s.homeReverse c).pending = s.pending := by
  simp [State.homeReverse]
theorem State.homeEvent_pending (s t : State) (c : Nat) (h : s.homeEvent c = some t) :
    t.pending = s.pending := by
  unfold State.homeEvent at h
  dsimp only at h
  repeat' split at h
  all_goals first | (cases h; done) | (cases h; simp; done) | (obtain ⟨a, -, rfl⟩ := Option.map_eq_some_iff.mp h; simp)
@[simp] theorem State.homeStep_pending (s : State) (c : Nat) (rest : Bool) :
    (s.homeStep c rest).pending = s.pending := by
  unfold State.homeStep
  dsimp only
  repeat' split
  all_goals first | (simp; done) | exact State.homeEvent_pending _ _ _ ‹_›
@[simp] theorem State.runHoming_pending (s : State) (c : Nat) (t : Int) :
    (s.runHoming c t).pending = s.pending := by
  unfold State.runHoming
  repeat' split
  all_goals simp
@[simp] theorem State.genRun_pending (s : State) (c : Nat) :
    (s.genRun c).1.pending = s.pending := by
  simp only [State.genRun]
  repeat' split
  all_goals simp_all
@[simp] theorem State.delaySet_pending (s : State) (r : Nat) (n : Nat) (second : Bool) (repeat_ : Bool) (seq : BitVec 16) :
    (s.delaySet r n second repeat_ seq).pending = s.pending := by
  simp [State.delaySet]
@[simp] theorem State.applyPend_pending (s : State) (r : Nat) (n : Nat) :
    (s.applyPend r n).pending = s.pending := by
  simp only [State.applyPend]
  repeat' split
  all_goals simp_all
@[simp] theorem State.applyPends_pending (s : State) :
    (s.applyPends).pending = s.pending := by
  simp [State.applyPends]
@[simp] theorem State.enterIntake_pending (s : State) (r : Nat) :
    (s.enterIntake r).pending = s.pending := by
  simp [State.enterIntake]
@[simp] theorem State.ringDown_pending (s : State) (r : Nat) :
    (s.ringDown r).pending = s.pending := by
  simp [State.ringDown]
@[simp] theorem State.joinReceive_pending (s : State) (p : Fin 4) (rx : RxCell) :
    (s.joinReceive p rx).pending = s.pending := by
  simp [State.joinReceive]
@[simp] theorem State.sendProbe_pending (s : State) (r : Nat) (dir : Nat) :
    (s.sendProbe r dir).pending = s.pending := by
  simp [State.sendProbe]
@[simp] theorem State.enterEnum_pending (s : State) (r : Nat) :
    (s.enterEnum r).pending = s.pending := by
  simp [State.enterEnum]
@[simp] theorem State.enumMismatch_pending (s : State) (r : Nat) :
    (s.enumMismatch r).pending = s.pending := by
  simp [State.enumMismatch]
@[simp] theorem State.nextEcho_pending (s : State) (r : Nat) (what : EchoFor) (done : State → State)
    (hd : ∀ t, (done t).pending = t.pending) :
    (s.nextEcho r what done).pending = s.pending := by
  simp only [State.nextEcho]
  split
  · simp [hd]
  · simp
@[simp] theorem State.endMeasure_pending (s : State) (r : Nat) :
    (s.endMeasure r).pending = s.pending := by
  simp [State.endMeasure]
@[simp] theorem State.enterMeasure_pending (s : State) (r : Nat) :
    (s.enterMeasure r).pending = s.pending := by
  simp [State.enterMeasure]
@[simp] theorem State.judgeEnum_pending (s : State) (r : Nat) (assoc : List (BitVec 16)) :
    (s.judgeEnum r assoc).pending = s.pending := by
  simp [State.judgeEnum]
@[simp] theorem State.enumProbeReturn_pending (s : State) (p : Fin 4) (rx : RxCell) (assoc : List (BitVec 16)) :
    (s.enumProbeReturn p rx assoc).pending = s.pending := by
  simp [State.enumProbeReturn]
@[simp] theorem State.enumProbeTimeout_pending (s : State) (r : Fin 2) (assoc : List (BitVec 16)) :
    (s.enumProbeTimeout r assoc).pending = s.pending := by
  simp [State.enumProbeTimeout]
@[simp] theorem State.restored_pending (s : State) (r : Nat) :
    (s.restored r).pending = s.pending := by
  simp [State.restored]
@[simp] theorem State.tailDelay_pending (s : State) (r : Nat) (n : Nat) (pd : W32) :
    (s.tailDelay r n pd).pending = s.pending := by
  simp [State.tailDelay]
@[simp] theorem State.echoResponse_pending (s : State) (p : Fin 4) (rx : RxCell) :
    (s.echoResponse p rx).pending = s.pending := by
  simp only [State.echoResponse]
  repeat' split
  all_goals simp_all
@[simp] theorem State.breakRing_pending (s : State) (r : Nat) (keep0 : Option Nat) (keep1 : Option Nat) :
    (s.breakRing r keep0 keep1).pending = s.pending := by
  simp [State.breakRing]
@[simp] theorem State.loseNode_pending (s : State) (r : Nat) (n : Nat) :
    (s.loseNode r n).pending = s.pending := by
  simp [State.loseNode]
@[simp] theorem State.located_pending (s : State) (r : Nat) (mx : Nat) (mn : Nat) :
    (s.located r mx mn).pending = s.pending := by
  simp [State.located]
@[simp] theorem State.locateEnd_pending (s : State) (r : Nat) (second : Bool) (v : Nat) :
    (s.locateEnd r second v).pending = s.pending := by
  simp only [State.locateEnd]
  repeat' split
  all_goals simp_all
@[simp] theorem State.cycleMarkTimeout_pending (s : State) (r : Fin 2) :
    (s.cycleMarkTimeout r).pending = s.pending := by
  simp [State.cycleMarkTimeout]
@[simp] theorem State.locateTimeout_pending (s : State) (r : Fin 2) (second : Bool) :
    (s.locateTimeout r second).pending = s.pending := by
  simp only [State.locateTimeout]
  repeat' split
  all_goals simp_all
@[simp] theorem State.sendUnfold_pending (s : State) (r : Nat) :
    (s.sendUnfold r).pending = s.pending := by
  simp [State.sendUnfold]
@[simp] theorem State.gapState_pending (s : State) (r : Nat) (n : Nat) (v : Nat) :
    (s.gapState r n v).pending = s.pending := by
  simp [State.gapState]
@[simp] theorem State.ringsAtT0_pending (s : State) :
    (State.ringsAtT0 s).pending = s.pending := by
  simp [State.ringsAtT0]
@[simp] theorem State.healEchoes_pending (s : State) :
    (s.healEchoes).pending = s.pending := by
  simp [State.healEchoes]
@[simp] theorem State.ringIntake_pending (s : State) :
    (s.ringIntake).pending = s.pending := by
  simp only [State.ringIntake]
  repeat' split
  all_goals simp_all
@[simp] theorem State.ringClose_pending (s : State) :
    (s.ringClose).pending = s.pending := by
  simp [State.ringClose]
@[simp] theorem State.ringRestore_pending (s : State) :
    (s.ringRestore).pending = s.pending := by
  simp [State.ringRestore]
@[simp] theorem State.autoIntake_pending (s : State) (r : Fin 2) :
    (s.autoIntake r).pending = s.pending := by
  simp [State.autoIntake]
@[simp] theorem State.ringPortLost_pending (s : State) (p : Nat) :
    (s.ringPortLost p).pending = s.pending := by
  simp only [State.ringPortLost]
  repeat' split
  all_goals simp_all
@[simp] theorem State.setLines_pending (s : State) (p : Nat) (x : Port) :
    (s.setLines p x).pending = s.pending := by
  simp [State.setLines]
@[simp] theorem State.portLockLoss_pending (s : State) (p : Fin 5) (lock : Bool) (los : Bool) (hiBer : Bool) :
    (s.portLockLoss p lock los hiBer).pending = s.pending := by
  simp [State.portLockLoss]
@[simp] theorem State.moduleAbsent_pending (s : State) (p : Fin 5) (absent : Bool) :
    (s.moduleAbsent p absent).pending = s.pending := by
  simp [State.moduleAbsent]
@[simp] theorem State.fetchCmd_pending (s : State) (op : BitVec 8) (d : Desc) :
    (s.fetchCmd op d).2.pending = s.pending := by
  simp [State.fetchCmd]
@[simp] theorem State.countGate_pending (s : State) (op : BitVec 8) (st : BitVec 16) :
    (s.countGate op st).pending = s.pending := by
  simp [State.countGate]
@[simp] theorem State.breakSeg_pending (s : State) (op : BitVec 8) (d : Desc) (g : Nat) :
    (s.breakSeg op d g).pending = s.pending := by
  unfold State.breakSeg
  repeat' split
  all_goals simp
@[simp] theorem State.breakSegs_pending (s : State) (op : BitVec 8) (d : Desc) :
    (s.breakSegs op d).pending = s.pending := by
  simp [State.breakSegs]
@[simp] theorem State.atHinge_pending (s : State) (op : BitVec 8) (d : Desc) (c : Option Cmd)
    (apply : Desc → Option Cmd → State → State)
    (ha : ∀ d c s, (apply d c s).pending = s.pending) :
    (s.atHinge op d c apply).pending = s.pending := by
  have hb := State.breakSegs_pending s op d
  unfold State.atHinge
  generalize s.breakSegs op d = t at hb
  dsimp only
  split
  · simp [hb]
  · exact (ha _ _ _).trans hb
@[simp] theorem State.runDesc_pending (s : State) (op : BitVec 8) (d : Desc)
    (apply : Desc → Option Cmd → State → State)
    (ha : ∀ d c s, (apply d c s).pending = s.pending) :
    (s.runDesc op d apply).pending = s.pending := by
  unfold State.runDesc
  split
  · rfl
  · dsimp only
    split <;> simp [ha]
@[simp] theorem State.checkSrc_pending (s : State) :
    (s.checkSrc).pending = s.pending := by
  simp [State.checkSrc]
@[simp] theorem State.endSlew_pending (s : State) :
    (s.endSlew).pending = s.pending := by
  simp [State.endSlew]
@[simp] theorem State.jump_pending (s : State) (amount : Int) :
    (s.jump amount).pending = s.pending := by
  simp [State.jump]
@[simp] theorem State.askStep_pending (s : State) (amount : Int) :
    (s.askStep amount).pending = s.pending := by
  simp [State.askStep]
@[simp] theorem State.timeStepApply_pending (s : State) :
    (s.timeStepApply).pending = s.pending := by
  unfold State.timeStepApply
  repeat' split
  all_goals simp
@[simp] theorem State.accepted_pending (s : State) (eff : Int) :
    (s.accepted eff).pending = s.pending := by
  unfold State.accepted
  repeat' split
  all_goals simp
@[simp] theorem State.servoAccept_pending (s : State) (eff : Int) :
    (s.servoAccept eff).pending = s.pending := by
  simp [State.servoAccept]
@[simp] theorem State.servoRefuse_pending (s : State) (eff : Int) :
    (s.servoRefuse eff).pending = s.pending := by
  simp [State.servoRefuse]
@[simp] theorem State.measure_pending (s : State) (theta : Int) :
    (s.measure theta).pending = s.pending := by
  simp [State.measure]
@[simp] theorem State.intoHoldover_pending (s : State) :
    (s.intoHoldover).pending = s.pending := by
  simp [State.intoHoldover]
@[simp] theorem State.holdoverTimeout_pending (s : State) :
    (s.holdoverTimeout).pending = s.pending := by
  simp [State.holdoverTimeout]
@[simp] theorem State.newMaster_pending (s : State) (gm : W64) :
    (s.newMaster gm).pending = s.pending := by
  simp [State.newMaster]
@[simp] theorem State.ptpStamp_pending (s : State) :
    (s.ptpStamp).2.pending = s.pending := by
  simp [State.ptpStamp]
@[simp] theorem State.syncTimed_pending (s : State) (took : Int) :
    (s.syncTimed took).pending = s.pending := by
  simp [State.syncTimed]
@[simp] theorem State.newMpd_pending (s : State) (twice : Int) :
    (s.newMpd twice).pending = s.pending := by
  simp [State.newMpd]
@[simp] theorem State.askDelay_pending (s : State) :
    (s.askDelay).pending = s.pending := by
  simp [State.askDelay]
@[simp] theorem State.answerPdelay_pending (s : State) (q : BitVec 16) :
    (s.answerPdelay q).pending = s.pending := by
  simp [State.answerPdelay]
@[simp] theorem State.ptp_pending (s : State) (m : PtpMsg) :
    (s.ptp m).pending = s.pending := by
  simp only [State.ptp]
  repeat' split
  all_goals simp_all
@[simp] theorem applyTimeSlew_pending (d : Desc) (c : Option Cmd) (s : State) :
    (applyTimeSlew d c s).pending = s.pending := by
  simp [applyTimeSlew]
@[simp] theorem applyTimeStep_pending (d : Desc) (c : Option Cmd) (s : State) :
    (applyTimeStep d c s).pending = s.pending := by
  simp only [applyTimeStep]
  repeat' split
  all_goals simp_all
@[simp] theorem State.btWrap_pending (s : State) :
    (s.btWrap).pending = s.pending := by
  simp [State.btWrap]
@[simp] theorem State.timeInfoBroadcast_pending (s : State) :
    (s.timeInfoBroadcast).pending = s.pending := by
  simp [State.timeInfoBroadcast]
@[simp] theorem State.noteWritten_pending (s : State) (c : Nat) (ws : List Nat) :
    (s.noteWritten c ws).pending = s.pending := by
  simp [State.noteWritten]
@[simp] theorem applyParamWrite_pending (d : Desc) (cmd : Option Cmd) (s : State) :
    (applyParamWrite d cmd s).pending = s.pending := by
  simp only [applyParamWrite]
  repeat' split
  all_goals simp_all
@[simp] theorem applyParamRead_pending (d : Desc) (cmd : Option Cmd) (s : State) :
    (applyParamRead d cmd s).pending = s.pending := by
  simp [applyParamRead]
@[simp] theorem State.sendTwin_pending (s : State) (c : Cell) :
    (s.sendTwin c).pending = s.pending := by
  simp [State.sendTwin]
@[simp] theorem State.enterTwin_pending (s : State) (t : TwinSt) (cause : Nat) :
    (s.enterTwin t cause).pending = s.pending := by
  simp [State.enterTwin]
@[simp] theorem State.enterJoining_pending (s : State) :
    (s.enterJoining).pending = s.pending := by
  simp [State.enterJoining]
@[simp] theorem State.diverge_pending (s : State) (cause : Nat) (ctx : Nat) :
    (s.diverge cause ctx).pending = s.pending := by
  simp [State.diverge]
@[simp] theorem State.mirrorOut_pending (s : State) (op : BitVec 8) (d : Desc) (seq : BitVec 16) :
    (s.mirrorOut op d seq).pending = s.pending := by
  simp [State.mirrorOut]
@[simp] theorem State.sendHeart_pending (s : State) :
    (s.sendHeart).pending = s.pending := by
  simp [State.sendHeart]
@[simp] theorem State.sendCopy_pending (s : State) (kind : Nat) (n : Nat) (first : Nat) (ws : List W24) :
    (s.sendCopy kind n first ws).pending = s.pending := by
  simp [State.sendCopy]
@[simp] theorem State.sendCopies_pending (s : State) :
    (s.sendCopies).pending = s.pending := by
  simp [State.sendCopies]
@[simp] theorem State.joinBy_pending (s : State) (m : BitVec 16) :
    (s.joinBy m).pending = s.pending := by
  simp [State.joinBy]
@[simp] theorem State.takeTable_pending (s : State) (t : NodeTable) :
    (s.takeTable t).pending = s.pending := by
  simp [State.takeTable]
@[simp] theorem State.twHeartReceive_pending (s : State) (rx : RxCell) (tables : List NodeTable) :
    (s.twHeartReceive rx tables).pending = s.pending := by
  simp [State.twHeartReceive]
@[simp] theorem State.heartbeatMiss_pending (s : State) :
    (s.heartbeatMiss).pending = s.pending := by
  simp [State.heartbeatMiss]
@[simp] theorem State.mirrorIn_pending (s : State) (m : Mirror) :
    (s.mirrorIn m).pending = s.pending := by
  simp [State.mirrorIn]
@[simp] theorem State.twDescReceive_pending (s : State) (rx : RxCell) :
    (s.twDescReceive rx).pending = s.pending := by
  simp only [State.twDescReceive]
  repeat' split
  all_goals simp_all
@[simp] theorem State.ownDigest_pending (s : State) (ctx : Nat) (c : Cell) :
    (s.ownDigest ctx c).pending = s.pending := by
  simp [State.ownDigest]
@[simp] theorem State.sendDigests_pending (s : State) :
    (s.sendDigests).pending = s.pending := by
  simp [State.sendDigests]
@[simp] theorem State.compareDigest_pending (s : State) (ctx : Nat) (theirs : W32) :
    (s.compareDigest ctx theirs).pending = s.pending := by
  unfold State.compareDigest
  repeat' split
  all_goals simp
@[simp] theorem State.copyDrawer_pending (s : State) (ctx : Nat) (w : Nat) (v : W24) :
    (s.copyDrawer ctx w v).pending = s.pending := by
  simp [State.copyDrawer]
@[simp] theorem State.twCopyReceive_pending (s : State) (rx : RxCell) (enabled : Bool) :
    (s.twCopyReceive rx enabled).pending = s.pending := by
  simp [State.twCopyReceive]
@[simp] theorem State.syncCopied_pending (s : State) :
    (s.syncCopied).pending = s.pending := by
  simp [State.syncCopied]
@[simp] theorem State.partnerGap_pending (s : State) :
    (s.partnerGap).pending = s.pending := by
  simp [State.partnerGap]
@[simp] theorem State.switchOver_pending (s : State) (claim : BitVec 8) :
    (s.switchOver claim).pending = s.pending := by
  simp [State.switchOver]
@[simp] theorem State.applySwitch_pending (s : State) :
    (s.applySwitch).pending = s.pending := by
  unfold State.applySwitch
  repeat' split
  all_goals simp
@[simp] theorem State.twinAtT0_pending (s : State) :
    (State.twinAtT0 s).pending = s.pending := by
  simp [State.twinAtT0]
@[simp] theorem applyTwinSwitch_pending (x : Desc) (c : Option Cmd) (s : State) :
    (applyTwinSwitch x c s).pending = s.pending := by
  simp [applyTwinSwitch]
@[simp] theorem applyTwinClaim_pending (d : Desc) (c : Option Cmd) (s : State) :
    (applyTwinClaim d c s).pending = s.pending := by
  simp [applyTwinClaim]
@[simp] theorem applyTwinRejoin_pending (x : Desc) (c : Option Cmd) (s : State) :
    (applyTwinRejoin x c s).pending = s.pending := by
  simp [applyTwinRejoin]
@[simp] theorem State.noteMix_pending (s : State) :
    (s.noteMix).pending = s.pending := by
  simp [State.noteMix]
@[simp] theorem State.mixPoll_pending (s : State) :
    (s.mixPoll).pending = s.pending := by
  simp [State.mixPoll]
@[simp] theorem State.mixCount_pending (s : State) (r : Nat) (n : Nat) (v : W32) :
    (s.mixCount r n v).pending = s.pending := by
  simp [State.mixCount]
@[simp] theorem State.mixSlots_pending (s : State) (r : Nat) (n : Nat) (v : W32) :
    (s.mixSlots r n v).pending = s.pending := by
  simp [State.mixSlots]
@[simp] theorem State.enableRefused_pending (s : State) (m : Nat) :
    (s.enableRefused m).pending = s.pending := by
  simp [State.enableRefused]
@[simp] theorem State.pwmTrip_pending (s : State) (m : Nat) :
    (s.pwmTrip m).pending = s.pending := by
  simp [State.pwmTrip]
@[simp] theorem State.tripAll_pending (s : State) :
    (s.tripAll).pending = s.pending := by
  simp [State.tripAll]
@[simp] theorem State.landDuty_pending (s : State) (m : Nat) (ws : List W24) :
    (s.landDuty m ws).pending = s.pending := by
  unfold State.landDuty
  repeat' split
  all_goals simp
@[simp] theorem State.reload_pending (s : State) (m : Nat) (t : Rat) :
    (s.reload m t).1.pending = s.pending := by
  simp [State.reload]
@[simp] theorem State.satCarry_pending (s : State) (m : Nat) (k : Nat) (p : PwmPhase) (arg : Int) :
    (s.satCarry m k p arg).pending = s.pending := by
  simp [State.satCarry]
@[simp] theorem State.decideZero_pending (s : State) (m : Nat) (k : Nat) :
    (s.decideZero m k).pending = s.pending := by
  simp [State.decideZero]
@[simp] theorem State.decideCentre_pending (s : State) (m : Nat) (k : Nat) :
    (s.decideCentre m k).pending = s.pending := by
  simp [State.decideCentre]
@[simp] theorem State.beginPeriod_pending (s : State) (m : Nat) (t : Rat) :
    (s.beginPeriod m t).pending = s.pending := by
  simp [State.beginPeriod]
@[simp] theorem State.pwmCentre_pending (s : State) (m : Fin 8) :
    (s.pwmCentre m).pending = s.pending := by
  simp [State.pwmCentre]
@[simp] theorem State.pwmSync_pending (s : State) (m : Nat) (now : Rat) :
    (s.pwmSync m now).pending = s.pending := by
  simp [State.pwmSync]
@[simp] theorem State.pwmEnter_pending (s : State) (m : Nat) :
    (s.pwmEnter m).pending = s.pending := by
  simp [State.pwmEnter]
@[simp] theorem State.pwmEnters_pending (s : State) :
    (s.pwmEnters).pending = s.pending := by
  simp [State.pwmEnters]
@[simp] theorem State.pwmHinge_pending (s : State) :
    (s.pwmHinge).pending = s.pending := by
  simp [State.pwmHinge]
@[simp] theorem State.pwmFaultTrip_pending (s : State) (flt : BitVec 8) :
    (s.pwmFaultTrip flt).pending = s.pending := by
  simp [State.pwmFaultTrip]
@[simp] theorem State.pwmEnable_pending (s : State) :
    (s.pwmEnable).pending = s.pending := by
  simp [State.pwmEnable]
@[simp] theorem State.pwmDisable_pending (s : State) :
    (s.pwmDisable).pending = s.pending := by
  simp [State.pwmDisable]
@[simp] theorem State.fltLatchClear_pending (s : State) (v : W32) :
    (s.fltLatchClear v).pending = s.pending := by
  simp [State.fltLatchClear]
@[simp] theorem State.pwmLatch_pending (s : State) (v : W32) :
    (s.pwmLatch v).pending = s.pending := by
  simp [State.pwmLatch]
@[simp] theorem State.supersede_pending (s : State) (c : Nat) :
    (s.supersede c).pending = s.pending := by
  simp [State.supersede]
@[simp] theorem State.begin_pending (s : State) (c : Nat) (m : AxMode) (pl : Plan) (cmd : Option Cmd) :
    (s.begin c m pl cmd).pending = s.pending := by
  simp [State.begin]
@[simp] theorem State.enter_pending (s : State) (c : Nat) (m : AxMode) (cmd : Option Cmd) :
    (s.enter c m cmd).pending = s.pending := by
  simp [State.enter]
@[simp] theorem State.clearNotches_pending (s : State) (c : Nat) :
    (s.clearNotches c).pending = s.pending := by
  simp [State.clearNotches]
@[simp] theorem State.initLaw_pending (s : State) (c : Nat) :
    (s.initLaw c).pending = s.pending := by
  simp [State.initLaw]
@[simp] theorem State.leaveGroup_pending (s : State) (c : Nat) :
    (s.leaveGroup c).pending = s.pending := by
  unfold State.leaveGroup
  repeat' split
  all_goals simp
@[simp] theorem State.enableAxis_pending (s : State) (c : Nat) :
    (s.enableAxis c).pending = s.pending := by
  simp [State.enableAxis]
@[simp] theorem applyAxEnable_pending (d : Desc) (cmd : Option Cmd) (s : State) :
    (applyAxEnable d cmd s).pending = s.pending := by
  simp [applyAxEnable]
@[simp] theorem State.move_pending (s : State) (c : Nat) (d : Desc) (cmd : Option Cmd) (k : Kin) (t : Int) :
    (s.move c d cmd k t).pending = s.pending := by
  unfold State.move
  repeat' split
  all_goals simp
@[simp] theorem State.moveVel_pending (s : State) (c : Nat) (d : Desc) (cmd : Option Cmd) (k : Kin) (t : Int) :
    (s.moveVel c d cmd k t).pending = s.pending := by
  rw [State.moveVel]
  split
  · simp
  · extract_lets
    split <;> simp
@[simp] theorem State.moveCam_pending (s : State) (c : Nat) (d : Desc) (cmd : Option Cmd) (k : Kin) (t : Int) :
    (s.moveCam c d cmd k t).pending = s.pending := by
  simp [State.moveCam]
@[simp] theorem State.hold_pending (s : State) (c : Nat) (op : BitVec 8) (d : Desc) (cmd : Option Cmd) :
    (s.hold c op d cmd).pending = s.pending := by
  unfold State.hold
  repeat' split
  all_goals simp
@[simp] theorem State.moveOrHold_pending (s : State) (op : BitVec 8) (d : Desc) (cmd : Option Cmd)
    (go : Nat → Desc → Option Cmd → Kin → Int → State)
    (hg : ∀ a b c d e, (go a b c d e).pending = s.pending) :
    (s.moveOrHold op d cmd go).pending = s.pending := by
  simp only [State.moveOrHold]
  split
  · simp
  · split
    · simp
    · exact hg _ _ _ _ _
@[simp] theorem applyAxMove_pending (d : Desc) (cmd : Option Cmd) (s : State) :
    (applyAxMove d cmd s).pending = s.pending := by
  simp [applyAxMove]
@[simp] theorem applyAxVel_pending (d : Desc) (cmd : Option Cmd) (s : State) :
    (applyAxVel d cmd s).pending = s.pending := by
  simp [applyAxVel]
@[simp] theorem applyAxCam_pending (d : Desc) (cmd : Option Cmd) (s : State) :
    (applyAxCam d cmd s).pending = s.pending := by
  simp [applyAxCam]
@[simp] theorem applyAxPvt_pending (d : Desc) (cmd : Option Cmd) (s : State) :
    (applyAxPvt d cmd s).pending = s.pending := by
  simp only [applyAxPvt]
  repeat' split
  all_goals simp_all
@[simp] theorem applyAxStep_pending (d : Desc) (cmd : Option Cmd) (s : State) :
    (applyAxStep d cmd s).pending = s.pending := by
  simp only [applyAxStep]
  repeat' split
  all_goals simp_all
@[simp] theorem applyAxGear_pending (d : Desc) (cmd : Option Cmd) (s : State) :
    (applyAxGear d cmd s).pending = s.pending := by
  simp only [applyAxGear]
  repeat' split
  all_goals simp_all
@[simp] theorem applyAxStop_pending (d : Desc) (cmd : Option Cmd) (s : State) :
    (applyAxStop d cmd s).pending = s.pending := by
  simp only [applyAxStop]
  repeat' split
  all_goals simp_all
@[simp] theorem applyHmStart_pending (d : Desc) (cmd : Option Cmd) (s : State) :
    (applyHmStart d cmd s).pending = s.pending := by
  simp only [applyHmStart]
  repeat' split
  all_goals simp_all
@[simp] theorem applyHmSet_pending (d : Desc) (cmd : Option Cmd) (s : State) :
    (applyHmSet d cmd s).pending = s.pending := by
  simp only [applyHmSet]
  repeat' split
  all_goals simp_all
@[simp] theorem applyLimClear_pending (d : Desc) (cmd : Option Cmd) (s : State) :
    (applyLimClear d cmd s).pending = s.pending := by
  simp only [applyLimClear]
  repeat' split
  all_goals simp_all
@[simp] theorem applyCtLoad_pending (d : Desc) (cmd : Option Cmd) (s : State) :
    (applyCtLoad d cmd s).pending = s.pending := by
  simp [applyCtLoad]
@[simp] theorem applyCtCommit_pending (d : Desc) (cmd : Option Cmd) (s : State) :
    (applyCtCommit d cmd s).pending = s.pending := by
  simp [applyCtCommit]
@[simp] theorem applyVmSet_pending (d : Desc) (cmd : Option Cmd) (s : State) :
    (applyVmSet d cmd s).pending = s.pending := by
  simp [applyVmSet]
@[simp] theorem State.drawerUe_pending (s : State) (c : Nat) (w : Nat) :
    (s.drawerUe c w).pending = s.pending := by
  unfold State.drawerUe
  repeat' split
  all_goals simp
@[simp] theorem State.drawerBad_pending (s : State) (c : Nat) (w : Nat) :
    (s.drawerBad c w).pending = s.pending := by
  simp [State.drawerBad]
@[simp] theorem State.foundMarked_pending (s : State) (c : Nat) :
    (s.foundMarked c).pending = s.pending := by
  unfold State.foundMarked
  repeat' split
  all_goals simp
@[simp] theorem State.evict_pending (s : State) (e : Nat) (k : Nat) :
    (s.evict e k).pending = s.pending := by
  simp [State.evict]
@[simp] theorem State.bringDrawer_pending (s : State) (c : Nat) (e : Nat) :
    (s.bringDrawer c e).1.pending = s.pending := by
  unfold State.bringDrawer
  repeat' split
  all_goals simp
@[simp] theorem State.flagsSeen_pending (s : State) (c : Nat) :
    (s.flagsSeen c).pending = s.pending := by
  simp [State.flagsSeen]
@[simp] theorem State.dispatchTo_pending (s : State) (e : Nat) (k : Nat) (c : Nat) (i : Nat) (x : StageRun) (ecc : Option (Fin 1024)) :
    (s.dispatchTo e k c i x ecc).pending = s.pending := by
  simp [State.dispatchTo]
@[simp] theorem State.readyOnCredit_pending (s : State) (c : Nat) (i : Nat) :
    (s.readyOnCredit c i).pending = s.pending := by
  unfold State.readyOnCredit
  repeat' split
  all_goals simp
@[simp] theorem State.shelfCredit_pending (s : State) :
    (s.shelfCredit).pending = s.pending := by
  simp [State.shelfCredit]
@[simp] theorem State.markTok_pending (s : State) (c : Nat) (j : Nat) :
    (s.markTok c j).pending = s.pending := by
  unfold State.markTok
  repeat' split
  all_goals simp
@[simp] theorem State.waive_pending (s : State) (c : Nat) (i : Nat) :
    (s.waive c i).pending = s.pending := by
  unfold State.waive
  repeat' split
  all_goals simp
@[simp] theorem State.settle_pending (s : State) (c : Nat) (i : Nat) :
    (s.settle c i).pending = s.pending := by
  unfold State.settle
  repeat' split
  all_goals simp
@[simp] theorem State.cancelRun_pending (s : State) (c : Nat) :
    (s.cancelRun c).pending = s.pending := by
  unfold State.cancelRun
  repeat' split
  all_goals simp
@[simp] theorem State.tokLatch_pending (s : State) :
    (s.tokLatch).pending = s.pending := by
  simp [State.tokLatch]
@[simp] theorem State.assignHome_pending (s : State) (c : Nat) :
    (s.assignHome c).pending = s.pending := by
  simp only [State.assignHome]
  repeat' split
  all_goals simp_all
@[simp] theorem State.countWindow_pending (s : State) :
    (s.countWindow).pending = s.pending := by
  simp [State.countWindow]
@[simp] theorem State.planMoves_pending (s : State) (plan : List (List Move)) (h : Nat) (diff : Nat) :
    (s.planMoves plan h diff).pending = s.pending := by
  simp [State.planMoves]
@[simp] theorem State.compareLoads_pending (s : State) (plan : List (List Move)) :
    (s.compareLoads plan).pending = s.pending := by
  unfold State.compareLoads
  repeat' split
  all_goals simp
@[simp] theorem State.wakeCluster_pending (s : State) :
    (s.wakeCluster).pending = s.pending := by
  unfold State.wakeCluster
  repeat' split
  all_goals simp
@[simp] theorem State.placement_pending (s : State) (plan : List (List Move)) (empty : Option Nat) :
    (s.placement plan empty).pending = s.pending := by
  unfold State.placement
  repeat' split
  all_goals simp
@[simp] theorem State.migrate_pending (s : State) (m : Move) :
    (s.migrate m).pending = s.pending := by
  simp [State.migrate]
@[simp] theorem State.dropSegs_pending (s : State) (g : Nat) (st : BitVec 16) :
    (s.dropSegs g st).pending = s.pending := by
  simp [State.dropSegs]
@[simp] theorem State.toRest_pending (s : State) (c : Nat) (rest : AxMode) (move : AxMode) (g : Option Nat) :
    (s.toRest c rest move g).pending = s.pending := by
  simp [State.toRest]
@[simp] theorem State.release_pending (s : State) (c : Nat) :
    (s.release c).pending = s.pending := by
  simp [State.release]
@[simp] theorem State.joinGroup_pending (s : State) (g : Nat) (c : Nat) :
    (s.joinGroup g c).pending = s.pending := by
  simp [State.joinGroup]
@[simp] theorem applyGrpDefine_pending (d : Desc) (cmd : Option Cmd) (s : State) :
    (applyGrpDefine d cmd s).pending = s.pending := by
  simp [applyGrpDefine]
@[simp] theorem State.startPath_pending (s : State) (g : Nat) (t : Int) :
    (s.startPath g t).pending = s.pending := by
  simp [State.startPath]
@[simp] theorem State.stopPath_pending (s : State) (g : Nat) (st : GrpSt) :
    (s.stopPath g st).pending = s.pending := by
  simp [State.stopPath]
@[simp] theorem State.passSegs_pending (a : Nat) (u1 : State) (u2 : Nat) (u3 : Kin) (u4 : Bool) :
    (State.passSegs a u1 u2 u3 u4).pending = u1.pending := by
  induction a generalizing u1 u2 u3 u4 with
  | zero => rfl
  | succ n ih =>
    simp only [State.passSegs]
    repeat' split
    all_goals simp [ih]
@[simp] theorem State.moveMembers_pending (s : State) (g : Nat) (k : Kin) :
    (s.moveMembers g k).pending = s.pending := by
  simp only [State.moveMembers]
  repeat' split
  all_goals simp_all
@[simp] theorem State.capPath_pending (s : State) (g : Nat) :
    (s.capPath g).pending = s.pending := by
  simp only [State.capPath]
  repeat' split
  all_goals simp_all
@[simp] theorem State.groupRun_pending (s : State) (g : Nat) :
    (s.groupRun g).pending = s.pending := by
  simp only [State.groupRun]
  repeat' split
  all_goals simp_all
@[simp] theorem State.queueSeg_pending (s : State) (g : Nat) (q : Seg) :
    (s.queueSeg g q).pending = s.pending := by
  simp only [State.queueSeg]
  repeat' split
  all_goals simp_all
@[simp] theorem State.openSeg_pending (s : State) (g : Nat) (sq : BitVec 6) (q : Seg) :
    (s.openSeg g sq q).pending = s.pending := by
  simp only [State.openSeg]
  repeat' split
  all_goals simp_all
@[simp] theorem applyGrpLine_pending (d : Desc) (cmd : Option Cmd) (s : State) :
    (applyGrpLine d cmd s).pending = s.pending := by
  simp [applyGrpLine]
@[simp] theorem applyGrpArc_pending (d : Desc) (cmd : Option Cmd) (s : State) :
    (applyGrpArc d cmd s).pending = s.pending := by
  simp [applyGrpArc]
@[simp] theorem applyGrpPos_pending (d : Desc) (cmd : Option Cmd) (s : State) :
    (applyGrpPos d cmd s).pending = s.pending := by
  simp only [applyGrpPos]
  repeat' split
  all_goals simp_all
@[simp] theorem applyGrpHold_pending (d : Desc) (cmd : Option Cmd) (s : State) :
    (applyGrpHold d cmd s).pending = s.pending := by
  simp only [applyGrpHold]
  repeat' split
  all_goals simp_all
@[simp] theorem applyGrpResume_pending (d : Desc) (cmd : Option Cmd) (s : State) :
    (applyGrpResume d cmd s).pending = s.pending := by
  simp only [applyGrpResume]
  repeat' split
  all_goals simp_all
@[simp] theorem State.flushGroup_pending (s : State) (g : Nat) :
    (s.flushGroup g).pending = s.pending := by
  simp [State.flushGroup]
@[simp] theorem applyGrpFlush_pending (d : Desc) (cmd : Option Cmd) (s : State) :
    (applyGrpFlush d cmd s).pending = s.pending := by
  simp [applyGrpFlush]
@[simp] theorem State.setGuard_pending (s : State) (b : Bool) (g : Guard) :
    (s.setGuard b g).pending = s.pending := by
  simp [State.setGuard]
@[simp] theorem State.putSw_pending (s : State) (b : Bool) (n : Nat) (x : BrkSw) :
    (s.putSw b n x).pending = s.pending := by
  simp [State.putSw]
@[simp] theorem State.driveBrakes_pending (s : State) :
    (s.driveBrakes).pending = s.pending := by
  simp [State.driveBrakes]
@[simp] theorem State.putMap2_pending (s : State) (v : W32) (st : W32) :
    (State.putMap2 s v st).pending = s.pending := by
  simp [State.putMap2]
@[simp] theorem State.mapToEn_pending (s : State) :
    (s.mapToEn).pending = s.pending := by
  simp [State.mapToEn]
@[simp] theorem State.putDemands_pending (s : State) :
    (s.putDemands).pending = s.pending := by
  simp [State.putDemands]
@[simp] theorem State.driveTo_pending (s : State) :
    (s.driveTo).pending = s.pending := by
  simp [State.driveTo]
@[simp] theorem State.engaged_pending (s : State) (c : Nat) :
    (s.engaged c).pending = s.pending := by
  simp [State.engaged]
@[simp] theorem State.setGrants_pending (s : State) (b : Bool) (grants : List Nat) (blocked : List Nat) :
    (s.setGrants b grants blocked).pending = s.pending := by
  simp [State.setGrants]
@[simp] theorem State.regrant_pending (s : State) (b : Bool) :
    (s.regrant b).pending = s.pending := by
  simp [State.regrant]
@[simp] theorem State.logGuard_pending (s : State) (b : Bool) (sealed_ : Bool) (op : Nat) (id : Nat) (v : W32) :
    (s.logGuard b sealed_ op id v).pending = s.pending := by
  simp [State.logGuard]
@[simp] theorem State.takeWrite_pending (s : State) (b : Bool) (w : GWrite) :
    (s.takeWrite b w).pending = s.pending := by
  simp [State.takeWrite]
@[simp] theorem State.takeWrites_pending (s : State) (b : Bool) :
    (s.takeWrites b).pending = s.pending := by
  simp [State.takeWrites]
@[simp] theorem State.sbtTorque_pending (s : State) (c : Nat) (t : Option Rat) :
    (s.sbtTorque c t).pending = s.pending := by
  simp [State.sbtTorque]
@[simp] theorem State.sbtFail_pending (s : State) :
    (s.sbtFail).pending = s.pending := by
  unfold State.sbtFail
  repeat' split
  all_goals simp
@[simp] theorem State.sbtCheck_pending (s : State) :
    (s.sbtCheck).pending = s.pending := by
  unfold State.sbtCheck
  repeat' split
  all_goals simp
@[simp] theorem State.guardMode_pending (s : State) (b : Bool) (t : GuardSt) :
    (s.guardMode b t).pending = s.pending := by
  simp [State.guardMode]
@[simp] theorem State.guardSeal_pending (s : State) (b : Bool) :
    (s.guardSeal b).pending = s.pending := by
  simp [State.guardSeal]
@[simp] theorem State.guardSafe_pending (s : State) (b : Bool) (cause : Nat) :
    (s.guardSafe b cause).pending = s.pending := by
  unfold State.guardSafe
  repeat' split
  all_goals simp
@[simp] theorem State.followSeals_pending (s : State) (b : Bool) :
    (s.followSeals b).pending = s.pending := by
  simp [State.followSeals]
@[simp] theorem State.sealChange_pending (s : State) (a : Bool) (b : Bool) :
    (s.sealChange a b).pending = s.pending := by
  simp [State.sealChange]
@[simp] theorem State.safeInputFilter_pending (s : State) (b : Bool) (k : Fin 8) (demand : Bool) :
    (s.safeInputFilter b k demand).pending = s.pending := by
  simp [State.safeInputFilter]
@[simp] theorem State.siDiscrepancy_pending (s : State) (k : Fin 8) :
    (s.siDiscrepancy k).pending = s.pending := by
  simp [State.siDiscrepancy]
@[simp] theorem State.swFault_pending (s : State) (b : Bool) (n : Nat) (bit : Nat) (code : BitVec 16) (present : Bool) :
    (s.swFault b n bit code present).pending = s.pending := by
  simp [State.swFault]
@[simp] theorem State.brakeOverload_pending (s : State) (present : Bool) :
    (s.brakeOverload present).pending = s.pending := by
  simp [State.brakeOverload]
@[simp] theorem State.judgePulse_pending (s : State) (b : Bool) (pass : Bool) :
    (s.judgePulse b pass).pending = s.pending := by
  simp [State.judgePulse]
@[simp] theorem State.checkMap_pending (s : State) (b : Bool) :
    (s.checkMap b).pending = s.pending := by
  simp [State.checkMap]
@[simp] theorem State.sendGuards_pending (s : State) :
    (s.sendGuards).pending = s.pending := by
  simp [State.sendGuards]
@[simp] theorem State.guardAtT0_pending (s : State) :
    (State.guardAtT0 s).pending = s.pending := by
  simp [State.guardAtT0]
@[simp] theorem State.guardPowerFail_pending (s : State) :
    (s.guardPowerFail).pending = s.pending := by
  simp [State.guardPowerFail]
@[simp] theorem State.takeRecs_pending (s : State) (u : Nat) (rs : List Rec) :
    (s.takeRecs u rs).1.pending = s.pending := by
  simp only [State.takeRecs]
  repeat' split
  all_goals simp_all
@[simp] theorem State.withholdRow_pending (s : State) (u : Nat) (at_ : W32) (n : Nat) :
    (s.withholdRow u at_ n).pending = s.pending := by
  simp [State.withholdRow]
@[simp] theorem State.writeRow_pending (s : State) (u : Nat) (dec : Bool) (at_ : W64) (vals : List (W24 × Bool)) :
    (s.writeRow u dec at_ vals).pending = s.pending := by
  simp [State.writeRow]
@[simp] theorem State.fireUnit_pending (s : State) (u : Nat) (f : Fire) :
    (s.fireUnit u f).pending = s.pending := by
  simp [State.fireUnit]
@[simp] theorem State.trigLow_pending (s : State) :
    (s.trigLow).pending = s.pending := by
  simp [State.trigLow]
@[simp] theorem State.detect_pending (s : State) (u : Nat) (f : Fire) :
    (s.detect u f).pending = s.pending := by
  simp only [State.detect]
  repeat' split
  all_goals simp_all
@[simp] theorem State.resolve_pending (s : State) (u : Nat) :
    (s.resolve u).pending = s.pending := by
  unfold State.resolve
  repeat' split
  all_goals simp
@[simp] theorem State.groupFire_pending (s : State) (g : Fire) (u : Nat) :
    (s.groupFire g u).pending = s.pending := by
  unfold State.groupFire
  repeat' split
  all_goals simp
@[simp] theorem State.resolveGroup_pending (s : State) (m : Nat) :
    (s.resolveGroup m).pending = s.pending := by
  simp only [State.resolveGroup]
  repeat' split
  all_goals simp_all
@[simp] theorem State.resolveGroups_pending (s : State) :
    (s.resolveGroups).pending = s.pending := by
  simp [State.resolveGroups]
@[simp] theorem State.levelRow_pending (s : State) (u : Nat) (k : Nat) (r : Row) :
    (s.levelRow u k r).pending = s.pending := by
  simp only [State.levelRow]
  repeat' split
  all_goals simp_all
@[simp] theorem State.triggers_pending (s : State) (u : Nat) (r : Row) :
    (s.triggers u r).pending = s.pending := by
  simp [State.triggers]
@[simp] theorem State.decRow_pending (s : State) (u : Nat) (r : Row) :
    (s.decRow u r).pending = s.pending := by
  simp [State.decRow]
@[simp] theorem State.acqRow_pending (s : State) (u : Nat) (r : Row) :
    (s.acqRow u r).pending = s.pending := by
  simp [State.acqRow]
@[simp] theorem State.sampleRows_pending (s : State) (lines : List (Nat × Bool)) :
    (s.sampleRows lines).pending = s.pending := by
  simp [State.sampleRows]
@[simp] theorem State.endRows_pending (s : State) :
    (s.endRows).pending = s.pending := by
  simp [State.endRows]
@[simp] theorem State.acqStage_pending (s : State) (u : Nat) :
    (s.acqStage u).pending = s.pending := by
  simp only [State.acqStage]
  repeat' split
  all_goals simp_all
@[simp] theorem applyAcqStart_pending (d : Desc) (cmd : Option Cmd) (s : State) :
    (applyAcqStart d cmd s).pending = s.pending := by
  simp [applyAcqStart]
@[simp] theorem applyAcqStop_pending (d : Desc) (cmd : Option Cmd) (s : State) :
    (applyAcqStop d cmd s).pending = s.pending := by
  simp [applyAcqStop]
@[simp] theorem applyAcqArm_pending (d : Desc) (cmd : Option Cmd) (s : State) :
    (applyAcqArm d cmd s).pending = s.pending := by
  simp [applyAcqArm]
@[simp] theorem applyAcqDisarm_pending (d : Desc) (cmd : Option Cmd) (s : State) :
    (applyAcqDisarm d cmd s).pending = s.pending := by
  simp [applyAcqDisarm]
@[simp] theorem applyAcqForce_pending (d : Desc) (cmd : Option Cmd) (s : State) :
    (applyAcqForce d cmd s).pending = s.pending := by
  simp [applyAcqForce]
@[simp] theorem State.acqEvent_pending (s : State) (u : Nat) (slot : Nat) (stamp : Nat) :
    (s.acqEvent u slot stamp).pending = s.pending := by
  simp [State.acqEvent]
@[simp] theorem State.trigIoPulseEnd_pending (s : State) :
    (s.trigIoPulseEnd).pending = s.pending := by
  unfold State.trigIoPulseEnd
  repeat' split
  all_goals simp
@[simp] theorem State.acqLatch_pending (s : State) (v : BitVec 32) :
    (s.acqLatch v).pending = s.pending := by
  simp [State.acqLatch]
@[simp] theorem State.schedule_pending (s : State) (k : Nat) (t : Int) (late : Bool) :
    (s.schedule k t late).pending = s.pending := by
  simp [State.schedule]
@[simp] theorem State.firstCheck_pending (s : State) (k : Nat) (v : Rat) (above : Bool) :
    (s.firstCheck k v above).1.pending = s.pending := by
  simp only [State.firstCheck]
  repeat' split
  all_goals simp_all
@[simp] theorem State.evalSlot_pending (s : State) (k : Nat) :
    (s.evalSlot k).pending = s.pending := by
  simp only [State.evalSlot]
  repeat' split
  all_goals simp_all
@[simp] theorem State.evalSlots_pending (s : State) (c : Nat) :
    (s.evalSlots c).pending = s.pending := by
  simp [State.evalSlots]
@[simp] theorem State.farSets_pending (s : State) (c : Nat) (i : Nat) :
    (s.farSets c i).pending = s.pending := by
  simp [State.farSets]
@[simp] theorem State.driveGo_pending (s : State) (n : Nat) :
    (s.driveGo n).pending = s.pending := by
  simp [State.driveGo]
@[simp] theorem State.effectGo_pending (s : State) (t : State) :
    (s.effectGo t).pending = t.pending := by
  simp [State.effectGo]
@[simp] theorem State.goPulse_pending (s : State) (k : Nat) (n : Nat) (until_ : W64) :
    (s.goPulse k n until_).pending = s.pending := by
  simp [State.goPulse]
@[simp] theorem State.goToggle_pending (s : State) (n : Nat) :
    (s.goToggle n).pending = s.pending := by
  simp [State.goToggle]
@[simp] theorem State.startHeld_pending (s : State) (c : Nat) (k : Nat) (t : Int) (cam : Bool) :
    (s.startHeld c k t cam).pending = s.pending := by
  simp only [State.startHeld]
  repeat' split
  all_goals simp_all
@[simp] theorem State.goEdge_pending (s : State) (g : GoEdge) :
    (s.goEdge g).pending = s.pending := by
  unfold State.goEdge
  repeat' split
  all_goals simp
@[simp] theorem State.fireAction_pending (s : State) (k : Nat) (e : Ev) (t : W64) :
    (s.fireAction k e t).pending = s.pending := by
  unfold State.fireAction
  repeat' split
  all_goals simp
@[simp] theorem State.fire_pending (s : State) (n : Nat) (e : Ev) (f : EvFire) :
    (s.fire n e f).pending = s.pending := by
  simp [State.fire]
@[simp] theorem State.edgeAfter_pending (s : State) (g : Option GoEdge) :
    (s.edgeAfter g).pending = s.pending := by
  unfold State.edgeAfter
  repeat' split
  all_goals simp
@[simp] theorem State.edgeNow_pending (s : State) (g : GoEdge) :
    (s.edgeNow g).pending = s.pending := by
  simp [State.edgeNow]
@[simp] theorem State.fireNow_pending (s : State) (n : Nat) (e : Ev) (f : EvFire) :
    (s.fireNow n e f).pending = s.pending := by
  unfold State.fireNow
  repeat' split
  all_goals simp
@[simp] theorem State.eventFire_pending (s : State) (n : Nat) :
    (s.eventFire n).pending = s.pending := by
  simp only [State.eventFire]
  repeat' split
  all_goals simp_all
@[simp] theorem applyEvArm_pending (d : Desc) (cmd : Option Cmd) (s : State) :
    (applyEvArm d cmd s).pending = s.pending := by
  simp [applyEvArm]
@[simp] theorem applyEvDisarm_pending (d : Desc) (cmd : Option Cmd) (s : State) :
    (applyEvDisarm d cmd s).pending = s.pending := by
  simp [applyEvDisarm]
@[simp] theorem State.ringErr_pending (s : State) (code : Nat) (kind : Nat) (n : Nat) :
    (s.ringErr code kind n).pending = s.pending := by
  simp [State.ringErr]
@[simp] theorem State.ringBusy_pending (s : State) (kind : Nat) (n : Nat) :
    (s.ringBusy kind n).pending = s.pending := by
  simp [State.ringBusy]
@[simp] theorem State.writeBase_pending (s : State) (r : Reg) (v : W32) :
    (s.writeBase r v).pending = s.pending := by
  simp [State.writeBase]
@[simp] theorem State.startRing_pending (s : State) (kind : Nat) (n : Nat) :
    (s.startRing kind n).pending = s.pending := by
  simp [State.startRing]
@[simp] theorem State.writeRingCfg_pending (s : State) (v : W32) :
    (s.writeRingCfg v).pending = s.pending := by
  simp [State.writeRingCfg]
@[simp] theorem State.ringOff_pending (s : State) (kind : Nat) (n : Nat) :
    (s.ringOff kind n).pending = s.pending := by
  simp [State.ringOff]
@[simp] theorem State.writeHostCtl_pending (s : State) (v : W32) :
    (s.writeHostCtl v).pending = s.pending := by
  simp [State.writeHostCtl]
@[simp] theorem State.hostLatch_pending (s : State) (v : BitVec 32) :
    (s.hostLatch v).pending = s.pending := by
  simp [State.hostLatch]
@[simp] theorem State.dbBad_pending (s : State) (kind : Nat) (n : Nat) (w : Nat) :
    (s.dbBad kind n w).pending = s.pending := by
  simp [State.dbBad]
@[simp] theorem State.judge_pending (s : State) (page : List (Nat × Byte)) (kind : Nat) (n : Nat) :
    (s.judge page kind n).pending = s.pending := by
  simp [State.judge]
@[simp] theorem State.seeAlive_pending (s : State) (v : W32) :
    (s.seeAlive v).pending = s.pending := by
  simp [State.seeAlive]
@[simp] theorem State.fetchOne_pending (s : State) (n : Nat) (r : RawDesc) :
    (s.fetchOne n r).pending = s.pending := by
  simp only [State.fetchOne]
  repeat' split
  all_goals simp_all
@[simp] theorem State.fetchTurn_pending (s : State) (descs : List (Nat × RawDesc)) :
    (s.fetchTurn descs).pending = s.pending := by
  simp [State.fetchTurn]
@[simp] theorem State.fetchTurns_pending (a : Nat) (u1 : State) (u2 : List (Nat × RawDesc)) :
    (State.fetchTurns a u1 u2).pending = u1.pending := by
  induction a generalizing u1 with
  | zero => rfl
  | succ n ih =>
    unfold State.fetchTurns
    split <;> simp [ih]
@[simp] theorem State.writeHeads_pending (s : State) :
    (s.writeHeads).pending = s.pending := by
  simp [State.writeHeads]
@[simp] theorem State.doorbellPoll_pending (s : State) (page : List (Nat × BitVec 8)) (descs : List (Nat × RawDesc)) :
    (s.doorbellPoll page descs).pending = s.pending := by
  simp [State.doorbellPoll]
@[simp] theorem State.cqSignal_pending (s : State) (n : Nat) :
    (s.cqSignal n).pending = s.pending := by
  simp [State.cqSignal]
@[simp] theorem State.countWritten_pending (s : State) (e : CqEntry) :
    (s.countWritten e).pending = s.pending := by
  simp [State.countWritten]
@[simp] theorem State.countDiscard_pending (s : State) (e : CqEntry) :
    (s.countDiscard e).pending = s.pending := by
  simp [State.countDiscard]
@[simp] theorem State.msixFlush_pending (s : State) :
    (s.msixFlush).pending = s.pending := by
  simp [State.msixFlush]
@[simp] theorem State.msixUnmask_pending (s : State) (v : Fin 64) :
    (s.msixUnmask v).pending = s.pending := by
  simp [State.msixUnmask]
@[simp] theorem State.dmaError_pending (s : State) (kind : Fin 4) (n : Fin 64) (entry : Bool) :
    (s.dmaError kind n entry).pending = s.pending := by
  simp only [State.dmaError]
  repeat' split
  all_goals simp_all
@[simp] theorem State.bar2Write_pending (s : State) (a : BitVec 24) (v : BitVec 32) :
    (State.bar2Write s a v).pending = s.pending := by
  simp [State.bar2Write]
@[simp] theorem State.configRequest_pending (s : State) (q : CfgReq) :
    (s.configRequest q).pending = s.pending := by
  unfold State.configRequest
  repeat' split
  all_goals simp
@[simp] theorem applyNop_pending (x : Desc) (cmd : Option Cmd) (s : State) :
    (applyNop x cmd s).pending = s.pending := by
  simp [applyNop]
@[simp] theorem applyFwWrite_pending (d : Desc) (cmd : Option Cmd) (s : State) :
    (applyFwWrite d cmd s).pending = s.pending := by
  simp [applyFwWrite]
@[simp] theorem applyFwVerify_pending (x : Desc) (cmd : Option Cmd) (s : State) :
    (applyFwVerify x cmd s).pending = s.pending := by
  simp [applyFwVerify]
@[simp] theorem applyFwActivate_pending (x : Desc) (cmd : Option Cmd) (s : State) :
    (applyFwActivate x cmd s).pending = s.pending := by
  simp [applyFwActivate]
@[simp] theorem applyFwInfo_pending (x : Desc) (cmd : Option Cmd) (s : State) :
    (applyFwInfo x cmd s).pending = s.pending := by
  simp [applyFwInfo]
@[simp] theorem applyLpLoad_pending (d : Desc) (cmd : Option Cmd) (s : State) :
    (applyLpLoad d cmd s).pending = s.pending := by
  simp [applyLpLoad]
@[simp] theorem applyLpCommit_pending (d : Desc) (cmd : Option Cmd) (s : State) :
    (applyLpCommit d cmd s).pending = s.pending := by
  simp [applyLpCommit]
@[simp] theorem State.chestFail_pending (s : State) (k : Nat) (cause : Nat) :
    (s.chestFail k cause).pending = s.pending := by
  simp [State.chestFail]
@[simp] theorem State.chestCheck_pending (s : State) (k : Nat) (retire : Nat) (fault : Bool) :
    (s.chestCheck k retire fault).pending = s.pending := by
  simp [State.chestCheck]
@[simp] theorem State.startEntry_pending (s : State) (cause : Nat) (pages : List Nat) (cmds : List Cmd) :
    (s.startEntry cause pages cmds).pending = s.pending := by
  simp [State.startEntry]
@[simp] theorem State.nextEntry_pending (s : State) (cause : Nat) (cmds : List Cmd) :
    (s.nextEntry cause cmds).pending = s.pending := by
  simp [State.nextEntry]
@[simp] theorem State.abandonFlush_pending (s : State) :
    (s.abandonFlush).pending = s.pending := by
  unfold State.abandonFlush
  repeat' split
  all_goals simp
@[simp] theorem State.powerFlush_pending (s : State) (cause : Nat) :
    (s.powerFlush cause).pending = s.pending := by
  simp [State.powerFlush]
@[simp] theorem State.flushStart_pending (s : State) :
    (s.flushStart).pending = s.pending := by
  unfold State.flushStart
  repeat' split
  all_goals simp
@[simp] theorem State.commitEntry_pending (s : State) (f : Flush) :
    (s.commitEntry f).pending = s.pending := by
  simp [State.commitEntry]
@[simp] theorem State.enterHold_pending (s : State) :
    (s.enterHold).pending = s.pending := by
  simp [State.enterHold]
@[simp] theorem State.flushCommit_pending (s : State) (retire0 : Nat) (retire1 : Nat) (fault0 : Bool) (fault1 : Bool) :
    (s.flushCommit retire0 retire1 fault0 fault1).pending = s.pending := by
  unfold State.flushCommit
  repeat' split
  all_goals simp
@[simp] theorem State.opMinuteTick_pending (s : State) :
    (s.opMinuteTick).pending = s.pending := by
  simp [State.opMinuteTick]
@[simp] theorem State.extreme_pending (s : State) (off : Nat) (v : W32) (first : Bool) (better : Bool) :
    (s.extreme off v first better).pending = s.pending := by
  simp [State.extreme]
@[simp] theorem State.vinTaken_pending (s : State) (vin : BitVec 16) :
    (s.vinTaken vin).pending = s.pending := by
  simp [State.vinTaken]
@[simp] theorem State.loadMax_pending (s : State) :
    (s.loadMax).pending = s.pending := by
  simp [State.loadMax]
@[simp] theorem State.countCauses_pending (s : State) :
    (s.countCauses).pending = s.pending := by
  simp [State.countCauses]
@[simp] theorem State.rebuild_pending (s : State) (a : Chest) (b : Chest) :
    (s.rebuild a b).pending = s.pending := by
  simp [State.rebuild]
@[simp] theorem State.restoreTime_pending (s : State) :
    (s.restoreTime).pending = s.pending := by
  simp [State.restoreTime]
@[simp] theorem State.reportRecovery_pending (s : State) (a : Chest) (b : Chest) (lost : List Nat) (top : Nat) :
    (s.reportRecovery a b lost top).pending = s.pending := by
  simp [State.reportRecovery]
@[simp] theorem State.recRecovery_pending (s : State) (bad0 : List Nat) (bad1 : List Nat) (fault0 : Bool) (fault1 : Bool) :
    (s.recRecovery bad0 bad1 fault0 fault1).pending = s.pending := by
  simp [State.recRecovery]
@[simp] theorem applyRecFlush_pending (x : Desc) (cmd : Option Cmd) (s : State) :
    (applyRecFlush x cmd s).pending = s.pending := by
  simp [applyRecFlush]
@[simp] theorem applyRecRead_pending (d : Desc) (cmd : Option Cmd) (s : State) :
    (applyRecRead d cmd s).pending = s.pending := by
  unfold applyRecRead
  repeat' split
  all_goals simp
@[simp] theorem State.histBump_pending (s : State) (n : Nat) (base : Nat) (bin : Nat) :
    (s.histBump n base bin).pending = s.pending := by
  simp [State.histBump]
@[simp] theorem State.axExtreme_pending (s : State) (n : Nat) (off : Nat) (v : W32) :
    (s.axExtreme n off v).pending = s.pending := by
  simp [State.axExtreme]
@[simp] theorem State.recordRun_pending (s : State) (n : Nat) (ep : Nat) (i : Rat) (v : Rat) (rated : Rat) :
    (s.recordRun n ep i v rated).pending = s.pending := by
  simp [State.recordRun]
@[simp] theorem State.setLaw_pending (s : State) (c : Nat) (l : Law) :
    (s.setLaw c l).pending = s.pending := by
  simp [State.setLaw]
@[simp] theorem State.setPh_pending (s : State) (c : Nat) (vs : List (Nat × W24)) :
    (s.setPh c vs).pending = s.pending := by
  simp [State.setPh]
@[simp] theorem State.lawFeedback_pending (s : State) (c : Nat) :
    (s.lawFeedback c).pending = s.pending := by
  simp [State.lawFeedback]
@[simp] theorem State.lawObserver_pending (s : State) (c : Nat) :
    (s.lawObserver c).pending = s.pending := by
  simp [State.lawObserver]
@[simp] theorem State.notch_pending (s : State) (c : Nat) (n : Nat) (x : Rat) :
    (s.notch c n x).1.pending = s.pending := by
  simp only [State.notch]
  repeat' split
  all_goals simp_all
@[simp] theorem State.notchChain_pending (s : State) (c : Nat) (x : Rat) :
    (s.notchChain c x).1.pending = s.pending := by
  simp [State.notchChain]
@[simp] theorem State.notchCoefs_pending (s : State) (c : Nat) (n : Nat) :
    (s.notchCoefs c n).pending = s.pending := by
  simp [State.notchCoefs]
@[simp] theorem State.cascadePh_pending (s : State) (c : Nat) (v : Rat) (a : Rat) :
    (s.cascadePh c v a).pending = s.pending := by
  simp [State.cascadePh]
@[simp] theorem State.loops_pending (s : State) (c : Nat) (k : Kin) :
    (s.loops c k).pending = s.pending := by
  simp [State.loops]
@[simp] theorem State.writeMode_pending (s : State) (c : Nat) :
    (s.writeMode c).pending = s.pending := by
  simp [State.writeMode]
@[simp] theorem State.markRan_pending (s : State) (c : Nat) :
    (s.markRan c).pending = s.pending := by
  simp [State.markRan]
@[simp] theorem State.lawCascade_pending (s : State) (c : Nat) :
    (s.lawCascade c).pending = s.pending := by
  simp [State.lawCascade]
@[simp] theorem State.lawFault_pending (s : State) (c : Nat) (i : Nat) (bit : Nat) (code : BitVec 16) (sev : Sev) (pay : optParam Payload 0) :
    (s.lawFault c i bit code sev pay).pending = s.pending := by
  simp only [State.lawFault]
  repeat' split
  all_goals simp_all
@[simp] theorem State.currentTrips_pending (s : State) (c : Nat) (i : Nat) (vsn : Nat) (oc : Nat) (cs : Nat) :
    (s.currentTrips c i vsn oc cs).pending = s.pending := by
  simp [State.currentTrips]
@[simp] theorem State.lawCurrent_pending (s : State) (c : Nat) (i : Nat) :
    (s.lawCurrent c i).pending = s.pending := by
  simp [State.lawCurrent]
@[simp] theorem State.lawEmit_pending (s : State) (c : Nat) (i : Nat) :
    (s.lawEmit c i).pending = s.pending := by
  unfold State.lawEmit
  repeat' split
  all_goals simp
@[simp] theorem State.checkLoops_pending (s : State) (c : Nat) (i : Nat) (a : Asks) :
    (s.checkLoops c i a).1.pending = s.pending := by
  simp [State.checkLoops]
@[simp] theorem State.checkPlausible_pending (s : State) (c : Nat) (i : Nat) (a : Asks) :
    (s.checkPlausible c i a).1.pending = s.pending := by
  unfold State.checkPlausible
  dsimp only
  split <;> simp
@[simp] theorem State.takeStep_pending (s : State) (c : Nat) (i : Nat) (o : Osc) (a : Asks) :
    (s.takeStep c i o a).1.pending = s.pending := by
  unfold State.takeStep
  repeat' split
  all_goals simp
@[simp] theorem State.moveN3_pending (s : State) (c : Nat) (o : Osc) :
    (State.moveN3 s c o).pending = s.pending := by
  simp [State.moveN3]
@[simp] theorem State.oscWatch_pending (s : State) (c : Nat) (i : Nat) (o : Osc) (hit : Bool) (a : Asks) :
    (s.oscWatch c i o hit a).1.pending = s.pending := by
  simp only [State.oscWatch]
  repeat' split
  all_goals simp_all
@[simp] theorem State.oscAct_pending (s : State) (c : Nat) (i : Nat) (o : Osc) (hit : Bool) (a : Asks) :
    (s.oscAct c i o hit a).1.pending = s.pending := by
  simp only [State.oscAct]
  repeat' split
  all_goals simp_all
@[simp] theorem State.oscBlock_pending (s : State) (c : Nat) (i : Nat) (o : Osc) (a : Asks) :
    (s.oscBlock c i o a).1.pending = s.pending := by
  simp only [State.oscBlock]
  repeat' split
  all_goals simp_all
@[simp] theorem State.oscillation_pending (s : State) (c : Nat) (i : Nat) (a : Asks) :
    (s.oscillation c i a).1.pending = s.pending := by
  simp only [State.oscillation]
  repeat' split
  all_goals simp_all
@[simp] theorem State.checkRange_pending (s : State) (c : Nat) (i : Nat) :
    (s.checkRange c i).pending = s.pending := by
  simp [State.checkRange]
@[simp] theorem State.checkFlags_pending (s : State) (c : Nat) (i : Nat) :
    (s.checkFlags c i).pending = s.pending := by
  simp [State.checkFlags]
@[simp] theorem State.stopLate_pending (s : State) (c : Nat) (i : Nat) (since : W64) (a : Asks) :
    (s.stopLate c i since a).1.pending = s.pending := by
  unfold State.stopLate
  repeat' split
  all_goals simp
@[simp] theorem State.stopStep_pending (s : State) (c : Nat) (i : Nat) (a : Asks) :
    (s.stopStep c i a).1.pending = s.pending := by
  simp only [State.stopStep]
  repeat' split
  all_goals simp_all
@[simp] theorem State.lawSupervise_pending (s : State) (c : Nat) (i : Nat) :
    (s.lawSupervise c i).pending = s.pending := by
  simp only [State.lawSupervise]
  repeat' split
  all_goals simp_all
@[simp] theorem State.lawRecord_pending (s : State) (c : Nat) (cancel : Bool) :
    (s.lawRecord c cancel).pending = s.pending := by
  simp [State.lawRecord]
@[simp] theorem State.newLibState_pending (s : State) (c : Nat) :
    (s.newLibState c).pending = s.pending := by
  simp [State.newLibState]
@[simp] theorem State.library_pending (s : State) (c : Nat) (i : Nat) (cancel : Bool) :
    (s.library c i cancel).pending = s.pending := by
  unfold State.library
  repeat' split
  all_goals simp
@[simp] theorem State.endFlags_pending (s : State) (e : Nat) (c : Nat) :
    (s.endFlags e c).pending = s.pending := by
  simp [State.endFlags]
@[simp] theorem State.fatalLog_pending (s : State) (e : Nat) (c : Nat) (i : Nat) :
    (s.fatalLog e c i).pending = s.pending := by
  simp [State.fatalLog]
@[simp] theorem State.landStage_pending (s : State) (c : Nat) (i : Nat) (fatal : Bool) :
    (s.landStage c i fatal).pending = s.pending := by
  unfold State.landStage
  repeat' split
  all_goals simp
@[simp] theorem State.keepOwn_pending (s : State) (r : EngRun) :
    (s.keepOwn r).pending = s.pending := by
  simp [State.keepOwn]
@[simp] theorem State.freeEngine_pending (s : State) (e : Nat) (r : EngRun) :
    (s.freeEngine e r).pending = s.pending := by
  simp [State.freeEngine]
@[simp] theorem State.stageDone_pending (s : State) (e : Nat) (r : EngRun) (fin : EngEnd) :
    (s.stageDone e r fin).pending = s.pending := by
  simp [State.stageDone]
@[simp] theorem State.noteLostOf_pending (s : State) (c : Nat) :
    (s.noteLostOf c).pending = s.pending := by
  unfold State.noteLostOf
  repeat' split
  all_goals simp
@[simp] theorem State.noteLost_pending (s : State) :
    (s.noteLost).pending = s.pending := by
  simp [State.noteLost]
@[simp] theorem State.i2cCtl_pending (s : State) (v : W32) :
    (State.i2cCtl s v).pending = s.pending := by
  simp [State.i2cCtl]
@[simp] theorem State.ownBack_pending (s : State) (p : Nat) (c : Cell) :
    (s.ownBack p c).pending = s.pending := by
  simp [State.ownBack]
@[simp] theorem State.ownRx_pending (s : State) (p : Nat) (rx : RxCell) :
    (s.ownRx p rx).1.pending = s.pending := by
  simp only [State.ownRx]
  repeat' split
  all_goals simp_all
@[simp] theorem State.ownCellReturn_pending (s : State) (p : Fin 4) (rx : RxCell) :
    (s.ownCellReturn p rx).pending = s.pending := by
  simp [State.ownCellReturn]
@[simp] theorem State.cellForward_pending (s : State) (p : Fin 4) (rx : RxCell) :
    (s.cellForward p rx).pending = s.pending := by
  simp [State.cellForward]
@[simp] theorem State.nodeFaults_pending (s : State) (ctx : Nat) (r : Nat) (n : Nat) (nst : BitVec 16) :
    (s.nodeFaults ctx r n nst).pending = s.pending := by
  simp [State.nodeFaults]
@[simp] theorem State.takeRecord_pending (s : State) (c : Cell) (r : Nat) (n : Nat) (ctx : Nat) (o : Nat) :
    (s.takeRecord c r n ctx o).pending = s.pending := by
  simp only [State.takeRecord]
  repeat' split
  all_goals simp_all
@[simp] theorem State.confirmDir_pending (s : State) (r : Nat) (n : Nat) :
    (s.confirmDir r n).pending = s.pending := by
  simp only [State.confirmDir]
  repeat' split
  all_goals simp_all
@[simp] theorem State.takeNext_pending (c : Cell) (r n : Nat) (t : State × Nat) (ctx : Nat) :
    (State.takeNext c r n t ctx).1.pending = t.1.pending := by
  simp [State.takeNext]
@[simp] theorem State.takeUp_pending (s : State) (c : Cell) (r : Nat) (k : Carrier) :
    (s.takeUp c r k).pending = s.pending := by
  simp [State.takeUp]
@[simp] theorem State.lateUp_pending (s : State) (c : Cell) (r : Nat) (crcBad : Bool) :
    (s.lateUp c r crcBad).pending = s.pending := by
  simp [State.lateUp]
@[simp] theorem State.dropAdm_pending (s : State) (a : Adm) :
    (s.dropAdm a).pending = s.pending := by
  simp [State.dropAdm]
@[simp] theorem State.enumRead_pending (s : State) (r : Nat) (n : Nat) (v : Nat) :
    (s.enumRead r n v).pending = s.pending := by
  simp [State.enumRead]
@[simp] theorem State.admDone_pending (s : State) (a : Adm) (c : Cell) :
    (s.admDone a c).pending = s.pending := by
  unfold State.admDone
  repeat' split
  all_goals simp
@[simp] theorem State.adminTimeout_pending (s : State) :
    (s.adminTimeout).pending = s.pending := by
  unfold State.adminTimeout
  repeat' split
  all_goals simp
@[simp] theorem State.tunDrop_pending (s : State) (key : Nat) (t : Tun) :
    (s.tunDrop key t).pending = s.pending := by
  simp [State.tunDrop]
@[simp] theorem State.tunnelSegment_pending (s : State) (p : Fin 4) (rx : RxCell) :
    (s.tunnelSegment p rx).pending = s.pending := by
  simp [State.tunnelSegment]
@[simp] theorem applySigRead_pending (d : Desc) (cmd : Option Cmd) (s : State) :
    (applySigRead d cmd s).pending = s.pending := by
  simp only [applySigRead]
  repeat' split
  all_goals simp_all
@[simp] theorem applySigWrite_pending (d : Desc) (cmd : Option Cmd) (s : State) :
    (applySigWrite d cmd s).pending = s.pending := by
  simp only [applySigWrite]
  repeat' split
  all_goals simp_all
@[simp] theorem State.pwMismatch_pending (s : State) (b : Bool) :
    (s.pwMismatch b).pending = s.pending := by
  simp [State.pwMismatch]
@[simp] theorem State.checkPassword_pending (s : State) (b : Bool) (p : BitVec 128) :
    (s.checkPassword b p).1.pending = s.pending := by
  simp only [State.checkPassword]
  repeat' split
  all_goals simp_all
@[simp] theorem State.protected__pending (s : State) (b : Bool) (p : BitVec 128) (cmd : Option Cmd)
    (k : State → State) (hk : ∀ t, (k t).pending = t.pending) :
    (s.protected_ b p cmd k).pending = s.pending := by
  have hc := State.checkPassword_pending s b p
  simp only [State.protected_]
  split
  · simp
  · split <;> next h => rw [h] at hc; simpa [hk] using hc
@[simp] theorem applyGWrite_pending (b : Bool) (d : Desc) (cmd : Option Cmd) (s : State) :
    (applyGWrite b d cmd s).pending = s.pending := by
  simp [applyGWrite]
@[simp] theorem applyGRead_pending (b : Bool) (d : Desc) (cmd : Option Cmd) (s : State) :
    (applyGRead b d cmd s).pending = s.pending := by
  simp [applyGRead]
@[simp] theorem applyGConfirm_pending (b : Bool) (d : Desc) (cmd : Option Cmd) (s : State) :
    (applyGConfirm b d cmd s).pending = s.pending := by
  simp [applyGConfirm]
@[simp] theorem applyGPassword_pending (b : Bool) (d : Desc) (cmd : Option Cmd) (s : State) :
    (applyGPassword b d cmd s).pending = s.pending := by
  simp [applyGPassword]
@[simp] theorem applyGFaultClear_pending (b : Bool) (d : Desc) (cmd : Option Cmd) (s : State) :
    (applyGFaultClear b d cmd s).pending = s.pending := by
  simp [applyGFaultClear]
@[simp] theorem applyGLogRead_pending (b : Bool) (d : Desc) (cmd : Option Cmd) (s : State) :
    (applyGLogRead b d cmd s).pending = s.pending := by
  unfold applyGLogRead
  repeat' split
  all_goals simp
@[simp] theorem applyGReset_pending (b : Bool) (d : Desc) (cmd : Option Cmd) (s : State) :
    (applyGReset b d cmd s).pending = s.pending := by
  simp [applyGReset]
@[simp] theorem applyGaSbt_pending (d : Desc) (cmd : Option Cmd) (s : State) :
    (applyGaSbt d cmd s).pending = s.pending := by
  simp [applyGaSbt]
@[simp] theorem State.hostStop_pending (s : State) (c : Nat) :
    (s.hostStop c).pending = s.pending := by
  simp [State.hostStop]
@[simp] theorem State.hostLost_pending (s : State) (cause : Nat) :
    (s.hostLost cause).pending = s.pending := by
  simp [State.hostLost]
@[simp] theorem State.emptyCq_pending (s : State) (n : Nat) :
    (s.emptyCq n).pending = s.pending := by
  simp [State.emptyCq]
@[simp] theorem State.emptyCqs_pending (s : State) :
    (s.emptyCqs).pending = s.pending := by
  simp [State.emptyCqs]
@[simp] theorem State.cmdRingsOff_pending (s : State) :
    (s.cmdRingsOff).pending = s.pending := by
  simp [State.cmdRingsOff]
@[simp] theorem State.strmRingsOff_pending (s : State) :
    (s.strmRingsOff).pending = s.pending := by
  simp [State.strmRingsOff]
@[simp] theorem State.clearSqs_pending (s : State) :
    (s.clearSqs).pending = s.pending := by
  simp [State.clearSqs]
@[simp] theorem State.resetHostIf_pending (s : State) :
    (s.resetHostIf).pending = s.pending := by
  simp [State.resetHostIf]
@[simp] theorem State.supply_pending (s : State) (code : BitVec 16) (sev : Sev) :
    (s.supply code sev).pending = s.pending := by
  simp [State.supply]
@[simp] theorem State.restDom_pending (s : State) (d : Nat) (t : DomTgt) (cmds : List (Option Cmd)) :
    (s.restDom d t cmds).pending = s.pending := by
  simp only [State.restDom]
  repeat' split
  all_goals simp_all
@[simp] theorem applyPwrSet_pending (d : Desc) (cmd : Option Cmd) (s : State) :
    (applyPwrSet d cmd s).pending = s.pending := by
  simp only [applyPwrSet]
  repeat' split
  all_goals simp_all
@[simp] theorem State.autoRet_pending (s : State) (d : Nat) :
    (s.autoRet d).pending = s.pending := by
  simp [State.autoRet]
@[simp] theorem State.clearCluster_pending (s : State) (q : Nat) :
    (s.clearCluster q).pending = s.pending := by
  simp [State.clearCluster]
@[simp] theorem State.beginEntry_pending (s : State) (d : Nat) :
    (s.beginEntry d).pending = s.pending := by
  simp [State.beginEntry]
@[simp] theorem State.retentionEntry_pending (s : State) :
    (s.retentionEntry).pending = s.pending := by
  simp [State.retentionEntry]
@[simp] theorem State.replay_pending (s : State) (d : Nat) :
    (s.replay d).pending = s.pending := by
  simp only [State.replay]
  repeat' split
  all_goals simp_all
@[simp] theorem State.zeroBank_pending (s : State) (d : Nat) :
    (s.zeroBank d).pending = s.pending := by
  simp [State.zeroBank]
@[simp] theorem State.reloadIm_pending (s : State) (p : Nat → Bool) :
    (s.reloadIm p).pending = s.pending := by
  simp [State.reloadIm]
@[simp] theorem State.loseMemories_pending (s : State) (d : Nat) (lost : BitVec 12) :
    (s.loseMemories d lost).pending = s.pending := by
  simp [State.loseMemories]
@[simp] theorem State.domOn_pending (s : State) (d : Nat) (lost : BitVec 12) :
    (s.domOn d lost).pending = s.pending := by
  simp [State.domOn]
@[simp] theorem State.wakeComplete_pending (s : State) (d : Fin 23) (lost : BitVec 12) :
    (s.wakeComplete d lost).pending = s.pending := by
  simp [State.wakeComplete]
@[simp] theorem State.clearLatched_pending (s : State) (rs : List Reg) (n : Nat) :
    (s.clearLatched rs n).pending = s.pending := by
  simp [State.clearLatched]
@[simp] theorem State.coldLinks_pending (s : State) (ps : List Nat) :
    (s.coldLinks ps).pending = s.pending := by
  simp [State.coldLinks]
@[simp] theorem State.coldNear_pending (s : State) :
    (s.coldNear).pending = s.pending := by
  simp [State.coldNear]
@[simp] theorem State.coldAcq_pending (s : State) :
    (s.coldAcq).pending = s.pending := by
  simp [State.coldAcq]
@[simp] theorem State.coldDomain_pending (s : State) (d : Nat) :
    (s.coldDomain d).pending = s.pending := by
  simp [State.coldDomain]
@[simp] theorem State.domHinge_pending (s : State) :
    (s.domHinge).pending = s.pending := by
  simp [State.domHinge]
@[simp] theorem State.killAll_pending (s : State) :
    (s.killAll).pending = s.pending := by
  simp [State.killAll]
@[simp] theorem State.cut_pending (s : State) (ds : List Nat) :
    (s.cut ds).pending = s.pending := by
  simp [State.cut]
@[simp] theorem State.shutdown_pending (s : State) (cause : Nat) :
    (s.shutdown cause).pending = s.pending := by
  simp [State.shutdown]
@[simp] theorem State.powerFailTrigger_pending (s : State) :
    (s.powerFailTrigger).pending = s.pending := by
  simp [State.powerFailTrigger]
@[simp] theorem State.dropOutputs_pending (s : State) (r : State) :
    (s.dropOutputs r).pending = r.pending := by
  simp [State.dropOutputs]
@[simp] theorem State.intoReset_pending (s : State) (core : Bool) :
    (s.intoReset core).pending = s.pending := by
  simp [State.intoReset]
@[simp] theorem State.resetBy_pending (s : State) (cause : Nat) (core : Bool) :
    (s.resetBy cause core).pending = s.pending := by
  simp [State.resetBy]
@[simp] theorem State.assertReset_pending (s : State) :
    (s.assertReset).pending = s.pending := by
  simp [State.assertReset]
@[simp] theorem State.bankOff_pending (s : State) (b : Nat) (c : Nat) :
    (s.bankOff b c).pending = s.pending := by
  unfold State.bankOff
  repeat' split
  all_goals simp
@[simp] theorem State.vioFail_pending (s : State) (b : Fin 4) :
    (s.vioFail b).pending = s.pending := by
  simp [State.vioFail]
@[simp] theorem State.commitAll_pending (a : Nat) (u1 : State) :
    (State.commitAll a u1).pending = u1.pending := by
  induction a generalizing u1 with
  | zero => rfl
  | succ n ih =>
    simp only [State.commitAll]
    repeat' split
    all_goals simp [ih]
@[simp] theorem State.resetAfterFlush_pending (s : State) (cause : Nat) (core : Bool) :
    (s.resetAfterFlush cause core).pending = s.pending := by
  simp [State.resetAfterFlush]
@[simp] theorem State.writeRst_pending (s : State) (v : W32) :
    (s.writeRst v).pending = s.pending := by
  simp [State.writeRst]
@[simp] theorem State.countWatchdog_pending (s : State) (n : Nat) :
    (s.countWatchdog n).pending = s.pending := by
  simp [State.countWatchdog]
@[simp] theorem State.bootWatchdog_pending (s : State) :
    (s.bootWatchdog).pending = s.pending := by
  simp [State.bootWatchdog]
@[simp] theorem State.loadPrograms_pending (s : State) :
    (s.loadPrograms).pending = s.pending := by
  simp [State.loadPrograms]
@[simp] theorem State.enablePorts_pending (s : State) :
    (s.enablePorts).pending = s.pending := by
  simp [State.enablePorts]
@[simp] theorem State.bootImage_pending (s : State) (b : Bool) :
    (s.bootImage b).pending = s.pending := by
  simp [State.bootImage]
@[simp] theorem State.refuseStaged_pending (s : State) (b : Fin 18) :
    (s.refuseStaged b).pending = s.pending := by
  simp [State.refuseStaged]
@[simp] theorem State.discard_pending (s : State) (b : Fin 18) :
    (s.discard b).pending = s.pending := by
  simp [State.discard]
@[simp] theorem State.commit_pending (s : State) (b : Fin 18) :
    (s.commit b).pending = s.pending := by
  simp [State.commit]
@[simp] theorem State.writeCommit_pending (s : State) (b : Fin 18) (v : W32) :
    (s.writeCommit b v).pending = s.pending := by
  simp [State.writeCommit]
@[simp] theorem State.commitAllBlocks_pending (s : State) (v : W32) :
    (s.commitAllBlocks v).pending = s.pending := by
  simp [State.commitAllBlocks]
@[simp] theorem State.applied_pending (s : State) (bs : List Nat) :
    (s.applied bs).pending = s.pending := by
  simp [State.applied]
@[simp] theorem State.checkSet_pending (s : State) (bs : List Nat) :
    (s.checkSet bs).pending = s.pending := by
  unfold State.checkSet
  repeat' split
  all_goals simp
@[simp] theorem State.firstIndex_pending (s : State) (n : Nat) :
    (s.firstIndex n).pending = s.pending := by
  simp [State.firstIndex]
@[simp] theorem State.firstIndexOf_pending (t : State) (c : Nat) :
    (State.firstIndexOf t c).pending = t.pending := by
  unfold State.firstIndexOf
  repeat' split
  all_goals simp
@[simp] theorem State.effectDisp_pending (s : State) (t : State) :
    (s.effectDisp t).pending = t.pending := by
  simp [State.effectDisp]
@[simp] theorem State.effectFb_pending (s : State) (t : State) :
    (s.effectFb t).pending = t.pending := by
  simp [State.effectFb]
@[simp] theorem State.effectPwm_pending (t : State) :
    (State.effectPwm t).pending = t.pending := by
  simp [State.effectPwm]
@[simp] theorem State.effectPrf_pending (s : State) (t : State) :
    (s.effectPrf t).pending = t.pending := by
  simp [State.effectPrf]
@[simp] theorem State.effectLnk_pending (s : State) (t : State) :
    (s.effectLnk t).pending = t.pending := by
  simp [State.effectLnk]
@[simp] theorem State.effectRing_pending (s : State) (t : State) :
    (s.effectRing t).pending = t.pending := by
  simp [State.effectRing]
@[simp] theorem State.effectTwin_pending (s : State) (t : State) :
    (s.effectTwin t).pending = t.pending := by
  simp [State.effectTwin]
@[simp] theorem State.applySet_pending (s : State) (bs : List Nat) :
    (s.applySet bs).pending = s.pending := by
  simp [State.applySet]
@[simp] theorem State.applyChecked_pending (s : State) :
    (s.applyChecked).pending = s.pending := by
  simp only [State.applyChecked]
  repeat' split
  all_goals simp_all
@[simp] theorem State.commitCheck_pending (s : State) :
    (s.commitCheck).pending = s.pending := by
  simp [State.commitCheck]
@[simp] theorem State.badItem_pending (s : State) (f : Nat) (sl : ShelfSlot) :
    (s.badItem f sl).pending = s.pending := by
  simp [State.badItem]
@[simp] theorem State.releaseCell_pending (s : State) (f : Nat) (sl : ShelfSlot) (bs : List Byte) :
    (s.releaseCell f sl bs).pending = s.pending := by
  simp [State.releaseCell]
@[simp] theorem State.releaseItem_pending (s : State) (f : Nat) (sl : ShelfSlot) (bs : List Byte) :
    (s.releaseItem f sl bs).pending = s.pending := by
  simp [State.releaseItem]
@[simp] theorem State.releaseRec_pending (s : State) (u : Nat) (bs : List Byte) :
    (s.releaseRec u bs).pending = s.pending := by
  simp [State.releaseRec]
@[simp] theorem State.consume_pending (s : State) (f : Nat) (sl : ShelfSlot) (bs : List Byte) :
    (s.consume f sl bs).pending = s.pending := by
  simp [State.consume]
@[simp] theorem State.setRun1_pending (s : State) (on : Bool) :
    (State.setRun1 s on).pending = s.pending := by
  simp [State.setRun1]
@[simp] theorem State.cycleRun_pending (s : State) :
    (s.cycleRun).pending = s.pending := by
  simp [State.cycleRun]
@[simp] theorem State.cycleStop_pending (s : State) :
    (s.cycleStop).pending = s.pending := by
  simp [State.cycleStop]
@[simp] theorem State.writeCycCtl_pending (s : State) (v : W32) :
    (s.writeCycCtl v).pending = s.pending := by
  simp [State.writeCycCtl]
@[simp] theorem State.sampleNear_pending (s : State) (n : Nat) :
    (s.sampleNear n).pending = s.pending := by
  simp [State.sampleNear]
@[simp] theorem State.takeSamples_pending (s : State) (lines : List (Nat × Bool)) :
    (s.takeSamples lines).pending = s.pending := by
  simp [State.takeSamples]
@[simp] theorem State.carrierTrain_pending (s : State) :
    (s.carrierTrain).pending = s.pending := by
  simp [State.carrierTrain]
@[simp] theorem State.dropEngine_pending (s : State) (e : Nat) :
    (s.dropEngine e).pending = s.pending := by
  unfold State.dropEngine
  repeat' split
  all_goals simp
@[simp] theorem State.abortStage_pending (s : State) (c : Nat) (i : Nat) (x : StageRun) :
    (s.abortStage c i x).pending = s.pending := by
  simp [State.abortStage]
@[simp] theorem State.overrun_pending (s : State) (c : Nat) (stages : List (Nat × StageRun)) :
    (s.overrun c stages).pending = s.pending := by
  simp only [State.overrun]
  repeat' split
  all_goals simp_all
@[simp] theorem State.holeAll_pending (s : State) :
    (s.holeAll).pending = s.pending := by
  simp [State.holeAll]
@[simp] theorem State.dropTx_pending (s : State) (d : Nat) :
    (s.dropTx d).pending = s.pending := by
  simp [State.dropTx]
@[simp] theorem State.dropAllTx_pending (s : State) :
    (s.dropAllTx).pending = s.pending := by
  simp [State.dropAllTx]
@[simp] theorem State.endLost_pending (s : State) :
    (s.endLost).pending = s.pending := by
  simp [State.endLost]
@[simp] theorem State.deadlineAbort_pending (s : State) :
    (s.deadlineAbort).pending = s.pending := by
  simp [State.deadlineAbort]
@[simp] theorem State.drainComplete_pending (s : State) :
    (s.drainComplete).pending = s.pending := by
  simp [State.drainComplete]
@[simp] theorem State.drainCompleteRow_pending (s : State) :
    (s.drainCompleteRow).pending = s.pending := by
  simp [State.drainCompleteRow]
@[simp] theorem State.finishCycle_pending (s : State) :
    (s.finishCycle).pending = s.pending := by
  simp [State.finishCycle]
@[simp] theorem State.abortBg_pending (s : State) (c : Nat) (i : Nat) :
    (s.abortBg c i).pending = s.pending := by
  unfold State.abortBg
  repeat' split
  all_goals simp
@[simp] theorem State.abortAllBg_pending (s : State) :
    (s.abortAllBg).pending = s.pending := by
  simp [State.abortAllBg]
@[simp] theorem State.cycleEnd_pending (s : State) :
    (s.cycleEnd).pending = s.pending := by
  simp [State.cycleEnd]
@[simp] theorem State.sweepDone_pending (s : State) :
    (s.sweepDone).pending = s.pending := by
  simp [State.sweepDone]
@[simp] theorem State.countCabEcc_pending (s : State) (ecc : Ecc) (a : Nat) :
    (s.countCabEcc ecc a).pending = s.pending := by
  unfold State.countCabEcc
  repeat' split
  all_goals simp
@[simp] theorem State.scrubGrant_pending (s : State) (bank : Fin 8) (ecc : Ecc) (w : Fin 16) :
    (s.scrubGrant bank ecc w).pending = s.pending := by
  simp [State.scrubGrant]
@[simp] theorem applyCancelMark_pending (d : Desc) (cmd : Option Cmd) (s : State) :
    (applyCancelMark d cmd s).pending = s.pending := by
  simp [applyCancelMark]
@[simp] theorem applyCtxCancel_pending (d : Desc) (cmd : Option Cmd) (s : State) :
    (applyCtxCancel d cmd s).pending = s.pending := by
  simp [applyCtxCancel]
@[simp] theorem applyLow_pending (op : Nat) (a : Desc) (u2 : Option Cmd) (u3 : State) :
    (applyLow op a u2 u3).pending = u3.pending := by
  unfold applyLow
  repeat' split
  all_goals simp
@[simp] theorem applyGuard_pending (b : Bool) (k : Nat) (a : Desc) (u3 : Option Cmd) (u4 : State) :
    (applyGuard b k a u3 u4).pending = u4.pending := by
  unfold applyGuard
  repeat' split
  all_goals simp
@[simp] theorem applyHigh_pending (op : Nat) (a : Desc) (u2 : Option Cmd) (u3 : State) :
    (applyHigh op a u2 u3).pending = u3.pending := by
  unfold applyHigh
  repeat' split
  all_goals simp
@[simp] theorem applyOp_pending (op : BitVec 8) (a : Desc) (u2 : Option Cmd) (u3 : State) :
    (applyOp op a u2 u3).pending = u3.pending := by
  unfold applyOp
  repeat' split
  all_goals simp
@[simp] theorem State.hingeOne_pending (a : State × List Nat × List Fetched) (f : Fetched) :
    (State.hingeOne a f).1.pending = a.1.pending := by
  obtain ⟨s, held, kept⟩ := a
  simp only [State.hingeOne]
  repeat' split
  all_goals simp
@[simp] theorem State.hingeQueue_pending (s : State) :
    (s.hingeQueue).pending = s.pending := by
  simp [State.hingeQueue]
@[simp] theorem State.hingeMirror_pending (s : State) (m : Mirror) :
    (s.hingeMirror m).pending = s.pending := by
  simp [State.hingeMirror]
@[simp] theorem State.hingeMirrors_pending (s : State) :
    (s.hingeMirrors).pending = s.pending := by
  simp [State.hingeMirrors]
@[simp] theorem State.reserve_pending (s : State) (c : Nat) (i : Nat) (x : StageRun) :
    (s.reserve c i x).pending = s.pending := by
  simp [State.reserve]
@[simp] theorem State.reserveOf_pending (s : State) (c : Nat) (i : Nat) :
    (s.reserveOf c i).pending = s.pending := by
  unfold State.reserveOf
  repeat' split
  all_goals simp
@[simp] theorem State.makeRuns_pending (s : State) :
    (s.makeRuns).pending = s.pending := by
  simp [State.makeRuns]
@[simp] theorem State.startStage_pending (s : State) (c : Nat) (i : Nat) :
    (s.startStage c i).pending = s.pending := by
  unfold State.startStage
  repeat' split
  all_goals simp
@[simp] theorem State.startRuns_pending (s : State) :
    (s.startRuns).pending = s.pending := by
  simp [State.startRuns]
@[simp] theorem State.deliverHeld_pending (s : State) :
    (s.deliverHeld).pending = s.pending := by
  simp [State.deliverHeld]
@[simp] theorem State.applyCntSet_pending (s : State) (n : Nat) :
    (s.applyCntSet n).pending = s.pending := by
  unfold State.applyCntSet
  repeat' split
  all_goals simp
@[simp] theorem State.applyCntSets_pending (s : State) :
    (s.applyCntSets).pending = s.pending := by
  simp [State.applyCntSets]
@[simp] theorem State.disableBad_pending (s : State) :
    (s.disableBad).pending = s.pending := by
  simp [State.disableBad]
@[simp] theorem State.nextCycle_pending (s : State) :
    (s.nextCycle).pending = s.pending := by
  simp [State.nextCycle]
@[simp] theorem State.hingeStages_pending (s : State) :
    (s.hingeStages).pending = s.pending := by
  simp [State.hingeStages]
@[simp] theorem State.hingeSends_pending (s : State) :
    (s.hingeSends).pending = s.pending := by
  simp [State.hingeSends]
@[simp] theorem State.clearPosted_pending (s : State) :
    (s.clearPosted).pending = s.pending := by
  simp [State.clearPosted]
@[simp] theorem State.hinge_pending (s : State) :
    (s.hinge).pending = s.pending := by
  simp [State.hinge]
@[simp] theorem State.hingePoint_pending (s : State) :
    (s.hingePoint).pending = s.pending := by
  simp [State.hingePoint]
@[simp] theorem State.writeGo_pending (s : State) (v : W32) :
    (s.writeGo v).pending = s.pending := by
  simp [State.writeGo]
@[simp] theorem State.writeStage_pending (s : State) (r : Reg) (sel : Nat) (v : W32) :
    (s.writeStage r sel v).pending = s.pending := by
  unfold State.writeStage
  repeat' split
  all_goals simp
@[simp] theorem State.writeRingCmd_pending (s : State) (v : W32) :
    (s.writeRingCmd v).pending = s.pending := by
  simp [State.writeRingCmd]
theorem State.writeOwn_pending (s t : State) (a : Nat) (v : W32) (h : s.writeOwn a v = some t) :
    t.pending = s.pending := by
  unfold State.writeOwn at h
  split at h
  all_goals first | (cases h; done) | (cases h; split <;> simp) | (cases h; simp)
@[simp] theorem State.writeActive_pending (s : State) (r : Reg) (v : W32) :
    (s.writeActive r v).pending = s.pending := by
  unfold State.writeActive
  split
  · next h => exact State.writeOwn_pending _ _ _ _ h
  · repeat' split
    all_goals simp
@[simp] theorem State.writeView_pending (s : State) (r : Reg) (v : W32) :
    (s.writeView r v).pending = s.pending := by
  simp [State.writeView]
@[simp] theorem State.bar0Write_pending (s : State) (a : Nat) (v : W32) :
    (State.bar0Write s a v).pending = s.pending := by
  unfold State.bar0Write
  repeat' split
  all_goals simp

end Sys2Proof.Machine
end

