-- ==== Sys2Proof/WellFormed.lean ====
section
/-! DEFINITION. Which commands can occur: the relations that the rules put on a command's operands
and that the operands' types do not hold already. -/

namespace Sys2Proof

/-- The keys of a list of observations rise strictly and lie below `n`. -/
def keysBelow {β : Type} (n : Nat) : List (Nat × β) → Bool
  | [] => true
  | (k, _) :: l => decide (k < n) && l.all (fun p => decide (k < p.1)) && keysBelow n l

/-- The balls that acquisition can take: 16 lines of eight near axes, and GI0 to GI15 (R656). -/
def wfLines (l : List (Nat × Bool)) : Bool := keysBelow 144 l

/-- Moves of placement: contexts CTX 1 to CTX 255, each at most once, to engines 0 to 23 (R61, R82,
R102). -/
def wfMoves (l : List (Nat × Nat)) : Bool :=
  l.all (fun m => decide (1 ≤ m.1) && decide (m.1 < 256) && decide (m.2 < 24)) && (l.map Prod.fst).Nodup

/-- A register's address is that of a 32-bit word (R765). -/
def wfWord (a : BitVec 24) : Bool := a.toNat % 4 == 0

/-- The command's operands can occur together. -/
def Instr.wf : Instr → Bool
  | .sampleInstant lines => wfLines lines
  -- raw sums of filters of OSR at most 256 (sinc3) and 16 (sinc2) (R272, R278)
  | .sdFrameReady _ r0 r1 r2 _ => [r0, r1, r2].all (fun r => decide (r.natAbs ≤ 2 ^ 24))
  | .sdCompTrip _ k => decide (k.y.natAbs ≤ 256)
  | .fastRow _ sd lines => keysBelow 32 sd && wfLines lines
  | .placementWindow plan set _ => wfMoves plan && wfMoves set
  -- the two directions of one I2C word (R410)
  | .sfpI2CRead v => v.getLsbD 30
  | .sfpI2CWrite v => !v.getLsbD 30
  -- ENABLE of HOST_CTL (R618)
  | .hostEnable v => v.getLsbD 0
  | .hostDisable v => !v.getLsbD 0
  -- the key of SYS_RST, with one of COLD and CORE (R740)
  | .softColdReset v => bitsOf v 15 8 == 0x5A && v.getLsbD 1 && !v.getLsbD 0
  | .softCoreReset v => bitsOf v 15 8 == 0x5A && v.getLsbD 0 && !v.getLsbD 1
  -- the doorbell page holds 4 KiB; a ring holds up to 65,536 entries (R612, R617)
  | .doorbellPoll page descs => keysBelow 4096 page && keysBelow (64 * 65536) descs
  -- nine stream rings (R612); a completion ring's entry is written (R634)
  | .dmaError kind n entry =>
    (kind.val != 2 || decide (n.val < 9)) && (kind.val != 3 || n.val == 0) && (!entry || kind.val == 1)
  | .bar2Write a _ => wfWord a
  | .rcCounterRead a => wfWord a
  | .registerWrite a _ => wfWord a
  | .recRecovery bad0 bad1 _ _ => bad0.Nodup && bad1.Nodup
  -- every far node has its own association number (R484)
  | .enumProbeReturn _ _ assoc => assoc.Nodup
  | .enumProbeTimeout _ assoc => assoc.Nodup
  | _ => true

end Sys2Proof
end

