-- ==== Sys2Proof/Tests/Slice0.lean ====
section
/-! SUPPORT. Tests: commands that cannot occur, examples of the spec, and a state and operands that meet the
hypotheses of each statement. -/

open Sys2Proof Sys2Proof.Machine

namespace Sys2Proof.Tests

set_option Elab.async false

/-! ## Commands that cannot occur -/

/-- The keys of observed lines rise. -/
theorem test_wf_lines : (Instr.sampleInstant [(3, true), (3, false)]).wf = false := by decide
/-- Acquisition takes 144 balls (R656). -/
theorem test_wf_lines_bound : (Instr.sampleInstant [(144, true)]).wf = false := by decide
/-- A fast unit gives at most 32 sigma-delta words. -/
theorem test_wf_sd : (Instr.fastRow 0 [(32, 0)] []).wf = false := by decide
/-- An engine has a number below 24 (R102). -/
theorem test_wf_moves : (Instr.placementWindow [(1, 24)] [] none).wf = false := by decide
/-- CTX 0 is not placed (R61). -/
theorem test_wf_moves_ctx : (Instr.placementWindow [] [(0, 3)] none).wf = false := by decide
/-- A plan moves a context once (R82). -/
theorem test_wf_moves_twice : (Instr.placementWindow [(7, 1), (7, 2)] [] none).wf = false := by decide
/-- Bit 30 of an I2C word says whether it reads (R410). -/
theorem test_wf_i2c_read : (Instr.sfpI2CRead 0x80000000).wf = false := by decide
theorem test_wf_i2c_write : (Instr.sfpI2CWrite 0xC0000000).wf = false := by decide
/-- ENABLE of HOST_CTL (R618). -/
theorem test_wf_enable : (Instr.hostEnable 0).wf = false := by decide
theorem test_wf_disable : (Instr.hostDisable 1).wf = false := by decide
/-- The key of SYS_RST (R740). -/
theorem test_wf_cold : (Instr.softColdReset 0x5B02).wf = false := by decide
theorem test_wf_core : (Instr.softCoreReset 0x5A03).wf = false := by decide
/-- The doorbell page holds 4,096 bytes (R617). -/
theorem test_wf_doorbell : (Instr.doorbellPoll [(4096, 0)] []).wf = false := by decide
/-- Nine stream rings (R612); a completion ring has an entry that is written, a stream ring has not (R634). -/
theorem test_wf_dma : (Instr.dmaError 2 9 false).wf = false := by decide
theorem test_wf_dma_entry : (Instr.dmaError 0 0 true).wf = false := by decide
/-- A register has the address of a 32-bit word (R765). -/
theorem test_wf_register : (Instr.registerWrite 0x020001 0).wf = false := by decide
theorem test_wf_counter : (Instr.rcCounterRead 0x020002).wf = false := by decide
theorem test_wf_bar2 : (Instr.bar2Write 0x000003 0).wf = false := by decide
/-- Recovery names a bad frame once (R707). -/
theorem test_wf_recovery : (Instr.recRecovery [5, 5] [] false false).wf = false := by decide
/-- Every far node has its own association number (R484). -/
theorem test_wf_assoc : (Instr.enumProbeTimeout 0 [0x10, 0x10]).wf = false := by decide
/-- Commands that can occur. -/
theorem test_wf_runs : (Instr.placementWindow [(1, 0), (255, 23)] [(9, 4)] (some 1)).wf = true ∧
    (Instr.sampleInstant [(0, true), (143, false)]).wf = true ∧ (Instr.softColdReset 0x5A02).wf = true := by
  decide

/-! ## States and operands that meet the hypotheses of the statements

Each theorem names its statement, and where the statement has several clauses, its parts are in their order. -/

/-- A state with registers set. -/
def withRegs (s : State) (l : List (Reg × Nat × W32)) : State :=
  l.foldl (fun s x => s.setRg x.1 x.2.1 x.2.2) s

/-- A block that runs cycles, in the phase `p` of one that began at T0 = 1,000,000. -/
def cycling (p : Phase) : State :=
  { bt := 1000500, cyc := { running := true, phase := p, t0 := 1000000, nextT0 := 1031250 } }

theorem wit_StepRunsFrontCommand :
    ({ pending := [.carrierTrain, .shelfCredit] } : State).pending = .carrierTrain :: [.shelfCredit] := rfl
theorem wit_EmptyQueueIsOneClockEdge : State.reset.pending = [] := rfl
theorem wit_CabinetFormKeptByEveryStep :
    CabWf ({ cab := [(0, 1), (0x7FFFFF, 255)] } : State).cab ∧
      ∃ t, step { cab := [(0, 1), (0x7FFFFF, 255)] } = .next t := ⟨by unfold CabWf; decide, _, rfl⟩
theorem wit_OnlyCycleCommandsMoveTheBeat : Instr.shelfCredit.movesBeat = false ∧
    ∃ t, exec .shelfCredit (cycling .active) = .next t := ⟨by decide, _, rfl⟩
/-- The two stamps and the two instants that lie as far apart as R8 allows. -/
theorem wit_StampsOrderAcrossTheWrap : bt32After 0x7FFFFFFE 0xFFFFFFFF = true ∧
    bt32After 0x7FFFFFFF 0xFFFFFFFF = false ∧ (0x17FFFFFFE : W64).toNat - (0xFFFFFFFF : W64).toNat < 2 ^ 31 := by
  decide

/-! ### Examples of the specification -/

/-- Stage words of chapter 02: ENTRY, INIT, SUCC, PRIO, TOKSRC and OUT. -/
theorem test_stage_words :
    let f (w : W64) : List Nat :=
      [(stwEntry w).toNat, stwInit w, (stwSucc w).toNat, stwPrio w, b2n (stwRoc w), stwTok w, b2n (stwOut w)];
    f 0x0800800100088000 = [0x100, 1, 0x0002, 1, 0, 1, 0] ∧ f 0x2200803400080000 = [0x440, 1, 0x0068, 1, 0, 0, 0] ∧
      f 0x3800800001084000 = [0x700, 1, 0, 1, 0, 0, 1] ∧ stwFlow 0x3800800001084000 = 0 ∧
      stwFlowEn 0x3800800001084000 = true ∧ stwItems 0x3800800001084000 = 1 := by decide +kernel
/-- KP_P of chapter 05: 60 a second is the word 0xF0_0005. -/
theorem test_kp_p : sgVal 0xF00005 = 60 := by decide +kernel
/-- Chapter 06: an index 3 counts early, within INDEX_TOL 4 and not within 2. -/
theorem test_index_early :
    let s (tol : W32) : State := { withRegs {} [(FB_CFG, 3, 4), (FB_IDX_CPR, 3, 10000), (FB_IDX_TOL, 3, tol)] with
      fbs := [(3, { cnt := 9997, up := 9997, acc := 9997, obs := 9997, idxRef := some 0 })] }
    let f (tol : W32) := let x := ((s tol).index 3).fb 3; (x.cnt, x.idxRef, x.adj, x.indexErr, x.idxLatch)
    f 4 = (10000, some 10000, 0xFFFFFFFD, 0xFFFFFFFD, 9997) ∧ f 2 = (9997, some 0, 0, 0xFFFFFFFD, 9997) := by
  decide +kernel
/-- Chapter 07: a request of 40 ns with MINP 50 ns and 150 ns: three and eight periods. -/
theorem test_pwm_carry :
    let s (minp : W32) : State := withRegs
      { pwms := [(2, { st := .run, u := { req := 320 }, v := { req := 100000 }, w := { req := 100000 } })] }
      [(PWM_CTL, 2, 1), (PWM_PER, 2, 31250), (PWM_DT, 2, 0x960096), (PWM_MINP, 2, minp)]
    let f (minp : W32) (n : Nat) :=
      let p := (((List.range n).foldl (fun u _ => u.decideZero 2 0) (s minp)).pwm 2).u; (p.on, p.carry, p.sat, p.diff)
    f 50 2 = (0, 640, 0, 640) ∧ f 50 3 = (0, 800, 160, 960) ∧ f 150 7 = (0, 2240, 0, 2240) ∧ f 150 8 = (2560, 0, 0, 0) := by
  decide +kernel
/-- Chapter 08: a target behind the axis at full speed. Chapter 09: the ramp of PUSH. -/
theorem test_target_behind :
    let m : Lims := { v := 1200000, a := 6000000, d := 6000000, j := 1000000000 }
    let pl : Plan := { start := { p := 1000000, v := 1200000, a := 0 }, goal := .pos 756400, lims := m, t0 := 0 }
    (pl.at 6000000).p = 1007164 ∧ (pl.at 6000000).v = 1182000 ∧ pl.reversal 712000000 = some 1123591 ∧
      (pl.at 400000000).v = -1182000 ∧ (pl.at 406000000).p = 1000000 ∧ (pl.at 506000000).p = 880000 ∧
      piecesTime pl.pieces = 712 / 1000 ∧ (runAll pl.start pl.pieces).p = 756400 := by decide +kernel
theorem test_push_ramp :
    let m : Lims := { v := 1200000, a := 1000000, d := 1000000, j := 1000000000 }
    let pl : Plan := { start := { p := 0, v := 0, a := 0 }, goal := .vel (-10000), lims := m, t0 := 0 }
    (pl.at 11000000).p = -55 ∧ (pl.at 11000000).v = -10000 ∧ (pl.at 511000000).p = -5055 := by decide +kernel
/-- Chapter 10: the two records of an UP cell, its carrier's header and the header of a DOWN. -/
theorem test_cells :
    let c : Cell := { typ := 0xA3, payload := octets [0, 0x12, 0xD6, 0x87, 0, 0x12, 0xC4, 0xB0, 1, 0, 0x0C, 0xCD,
      0xFF, 0xFF, 0xFE, 0x0C, 0xFF, 0xFF, 0xF8, 0x30, 1, 2, 0xE0, 0] }
    (inboxWords c 0 false).take 5 = [0x12D687, 0x010000, 0x12C4B0, 0, 0x0CCD00] ∧
      (inboxWords c 12 false).take 5 = [0xFFFE0C, 0x0102FF, 0xFFF830, 0xFF, 0xE00000] ∧
      Cell.header { typ := 0xA2, node := 7, seq := 0x3A41, claim := 0x40, sub := 0x11 } =
        [0xA2, 7, 0, 0x3A, 0x41, 0x40, 0x11] := by decide +kernel
/-- Chapter 11: the path delays of a ring of 48 nodes. -/
theorem test_path_delays :
    let x : Ring := { nodes := 48, foundClosed := true, loopCw := 4346 * 256
                      tbl := (List.range 48).map (fun k => (k + 1, { fwd := 64 }))
                      pdCw := (List.range 48).map (fun k => (k + 1, BitVec.ofNat 32 ((26 + k * 90) * 256))) }
    let y := x.table
    tget 0 y.pdCcw 42 = 0x23600 ∧ tget 0 y.pdCcw 45 = 0x12800 ∧ tget 0 y.pdCcw 48 = 0x1A00 ∧
      tget 0 y.seg 1 = 26 * 256 ∧ tget 0 y.seg 49 = 90 * 256 := by decide +kernel
/-- Chapter 21: a commit set of both blocks that fails. -/
theorem test_failed_commit :
    let s0 : State := { withRegs (cycling .active) [(DISP_CYC_PERIOD, 0, 31250), (PWM_PER, 0, 31250)] with
      pwms := [(0, { enable := true, st := .run })], blks := [(4, { state := .pending }), (8, { state := .pending })] }
    let s := { s0 with stage := tset 0 (tset 0 [] (regKey DISP_AFF 0) 300) (regKey PWM_PER 0) 25000 }.commitCheck;
    s0.bar0Read 0x34 = 0x110 ∧ s.bar0Read 0x25004 = 0x02020004 ∧ s.bar0Read 0x25008 = 0x18 ∧
      s.bar0Read 0x11004 = 0x02030004 := by decide +kernel

/-- PERIOD at both ends of its range; running and stopped. -/
def withPeriod (p : W32) (b : Bool) : State := withRegs { cyc := { running := b } } [(DISP_CYC_PERIOD, 0, p)]
theorem wit_CycleRunFixesTheFirstT0 :
    (withPeriod 12500 false).isOn 1 = true ∧ (withPeriod 12500 false).rf DISP_CYC_PERIOD 0 19 0 = 12500 ∧
    (withPeriod 12500 false).bt.toNat + 1100000 < 2 ^ 64 ∧ (withPeriod 12500 false).cyc.running = false ∧
    (withPeriod 1000000 true).isOn 1 = true ∧ (withPeriod 1000000 true).rf DISP_CYC_PERIOD 0 19 0 = 1000000 ∧
    (withPeriod 1000000 true).bt.toNat + 1100000 < 2 ^ 64 ∧ (withPeriod 1000000 true).cyc.running = true := by
  decide +kernel
theorem wit_CycleStopEndsOrIsRefused : State.reset.isOn 1 = true ∧ State.reset.anyAxis = false ∧
    ({ axes := [(128, { enabled := true })] } : State).isOn 1 = true ∧
    ({ axes := [(128, { enabled := true })] } : State).anyAxis = true := by decide
theorem wit_CycleStepsInTheirPhases :
    (cycling .sill).cyc.running = true ∧ (cycling .sill).cyc.stopPend = false ∧
    ((cycling .sill).cyc.checked = false) ∧ (cycling .sill).cyc.phase = .sill ∧
    (cycling .active).cyc.phase = .active ∧ (cycling .active).cyc.sampled = false ∧
    (cycling .active).cyc.trainSent = false ∧ (cycling .drain).cyc.phase = .drain ∧
    State.reset.cyc.running = false ∧
    ({ cycling .sill with cyc := { (cycling .sill).cyc with stopPend := true } } : State).cyc.stopPend = true := by
  decide
/-- The first and the last bank. -/
theorem wit_ScrubberVisitsItsUnits : State.reset.isOn (7 + 0) = true ∧ State.reset.isOn (7 + 7) = true := by decide

/-- Context 255, its last stage ready, its drawer in the last slot of the last engine. -/
def readyStage : State :=
  { withRegs (cycling .active) [(DISP_TPL_ST_HI 15, 255, 0x00100000)] with
    runs := [(255, some { stages := [(15, some { st := .ready, readyAt := 1000500 })] })]
    ctxs := [(255, { aff := 23 })]
    engs := [(23, { slots := [(11, 255)] })] }
theorem wit_DispatchedStageStartsAtItsEntry :
    readyStage.nextDispatch = some (23, 1, 255, 15, { st := .ready, readyAt := 1000500 }) ∧
    readyStage.resident 255 = some (23, 11) ∧ (readyStage.stage? 255 15).isSome = true := by decide +kernel

/-- A stage of a user context, running on engine 23. -/
def userRun : EngRun := ⟨200, 3, 11, false, true, false, 0xFFFF, 1000000, none, []⟩
/-- Engine 23 at the end of that stage. -/
def ended : State := { cycling .active with engs := [(23, { run := some userRun, fin := some ⟨0x8001, false⟩ })] }
/-- A flow whose first slot holds an item, and whose second is a hole. -/
def shelf (h : Nat) : State :=
  { flows := [(63, { h := h, next := 2, slots := [(0, some ⟨200, 3, true, false, some [1, 2, 3]⟩), (1, some ⟨200, 3, false, true, none⟩)] })] }
/-- A stage that waits for a credit which its flow has. -/
def credited : State :=
  { withRegs (cycling .active) [(DISP_TPL_ST_LO 15, 255, 0x01000000)] with
    runs := [(255, some { stages := [(15, some { st := .credit, tag := 63 })] })] }
/-- A block that sent a carrier to node 1 of ring 1, 1 ns before the deadline. -/
def carrierSent : State :=
  { withRegs (cycling .active) [(LNK_PORT_CTL, 3, 1)] with
    bt := 1024999, lnk := { carriers := [(257, some ⟨1, 0, [1]⟩)] }
    engs := [(0, { slots := [(0, 1)] })] }
/-- Its UP cell, with correct check sums. -/
def upCell : RxCell :=
  let c : Cell := { typ := 0xA3, node := 1, axs := 1 }
  ⟨c, crc8 c.header, crc32c (c.header ++ c.data)⟩
/-- Four contexts of one keep set, enabled, with a plan that moves them to the last cluster. -/
def keepSet : State :=
  { withRegs (cycling .sill) ((DISP_PLACE, 0, 4) :: [1, 2, 3, 255].map (fun c => (DISP_TPL_HDR_HI, c, 0x80000001))) with
    disp := { plan := [[⟨1, 18⟩, ⟨2, 19⟩, ⟨3, 20⟩, ⟨255, 23⟩]] } }
theorem wit_DispatcherRowsDoTheirPart :
    State.reset.isOn 1 = true ∧
    -- STAGE_COMPLETE
    ((ended.eng 23).run = some userRun ∧ (ended.eng 23).xfer = none ∧ ended.libStage 200 3 = false ∧
      (ended.eng 23).fin = some ⟨0x8001, false⟩ ∧ (ended.eng 0).run = none) ∧
    -- STAGE_DISPATCH of a drawer that must move
    (let s := { readyStage with engs := [] };
      s.nextDispatch = some (23, 1, 255, 15, { st := .ready, readyAt := 1000500 }) ∧
      s.resident 255 = none ∧ (s.run 255).isSome = true) ∧
    -- SHELF_CREDIT
    (credited.stage? 255 15 = some { st := .credit, tag := 63 } ∧
      credited.hasCredit 255 15 { st := .credit, tag := 63 } = true) ∧
    -- FLOW_RELEASE
    (tget none ((shelf 1).flow 63).slots 1 = some ⟨200, 3, false, true, none⟩ ∧
      tget none ((shelf 0).flow 63).slots 0 = some ⟨200, 3, true, false, some [1, 2, 3]⟩) ∧
    -- PLACEMENT_WINDOW
    (({ disp := { due := true } } : State).disp.due = true ∧ ({ disp := { window := 255 } } : State).disp.window = 255) := by
  decide +kernel
theorem wit_DispatcherRowsDoTheirPart_moves :
    -- DRAWER_MIGRATION: a keep set as large as a sill takes, and a drawer from the cabinet
    (let s := keepSet;
      s.livePlan.find? (fun g => g.all (fun m => !s.ctxRunning m.ctx)) = some [⟨1, 18⟩, ⟨2, 19⟩, ⟨3, 20⟩, ⟨255, 23⟩] ∧
      s.cyc.phase = .sill ∧ s.cyc.moves + 4 ≤ min 4 (s.rf DISP_PLACE 0 2 0)) ∧
    (let s : State := { withRegs {} [(DISP_TPL_HDR_HI, 255, 0x80000000)] with disp := { plan := [[⟨255, 23⟩]] } };
      s.livePlan.find? (fun g => g.all (fun m => !s.ctxRunning m.ctx)) = some [⟨255, 23⟩] ∧
      s.resident 255 = none ∧ s.slotFor 23 = some (0, false)) := by
  decide +kernel
theorem wit_DispatcherRowsDoTheirPart_cells :
    -- UP_CELL_ARRIVAL: with a wrong CRC, and valid
    (carrierSent.ownRx 3 { upCell with crc := upCell.crc + 1 }).2 = (true, false) ∧
      (carrierSent.ownRx 3 upCell).2 = (true, true) ∧ upCell.cell.typ = 0xA3 ∧ upCell.cell.axs = 1 ∧
      upCell.cell.sub = 0 ∧ carrierSent.resident 1 = some (0, 0) ∧
      (let u := ({ carrierSent with bt := 1025000 }.ownRx 3 upCell).1;
        u.cyc.t0 + BitVec.ofNat 64 u.deadline ≤ u.bt) ∧
      let u := (carrierSent.ownRx 3 upCell).1
      u.cyc.phase = .active ∧ upCell.cell.seq = u.cyc16 ∧ u.bt < u.cyc.t0 + BitVec.ofNat 64 u.deadline ∧
      tget none u.lnk.carriers (nodeKey 1 upCell.cell.node.toNat) = some ⟨1, 0, [1]⟩ := by
  decide +kernel

/-! ### Loop Engines -/

/-- The example of chapter 04: word b1 of the 16-tap filter, and the TEND of the first cancel. -/
theorem test_decode_filter_word :
    slotCmac 0x30B5F91B35221002 = encCmac (.mac false false 0 22 23) ∧
    slotMem 0x30B5F91B35221002 = 0xE46CD4 ∧
    decCmac (slotCmac 0x30B5F91B35221002) = some (.mac false false 0 22 23) ∧
    decMem (slotMem 0x30B5F91B35221002) = some (.dual 18 1 true (.ld 19) 2 true) ∧
    decAlu (slotAlu 0x30B5F91B35221002) = some (.dbnz 0x1002) ∧
    decAlu (slotAlu 0x0000000000280004) = some (.tend 0x0004) ∧
    decCmac (slotCmac 0x0000000000280004) = some .nop ∧ decMem (slotMem 0x0000000000280004) = some .nop := by
  decide +kernel

/-- Engine `x` of the last cluster runs the user stage. -/
def onEngine (x : Engine) : State := { cycling .active with engs := [(23, { x with run := some userRun, pc := 0x1000 })] }
/-- The word holds one operation. -/
def lone : Issue := { e := 23 }

/-- An engine outside a handler, and one inside a handler with a breakpoint at its word. -/
theorem wit_Steady : Steady (onEngine {}) 23 userRun ∧ Alone lone ∧
    Steady (withRegs (onEngine { sw := 0x800 }) [(LE_BKPT, 0, 0x80001000)]) 23 userRun := by
  unfold Steady Alone; decide +kernel
theorem wit_LoopWordsRoundTrip : (CmacOp.asra 3 24).legal = true ∧ (CmacOp.asla 0 1).legal = true ∧
    (MemOp.pair 30 7 1023).legal = true ∧ (AluOp.mvcTo 0x22 31).legal = true ∧
    (AluOp.mvcFrom 31 0x25).legal = true ∧ (AluOp.mvxTo 3 2 31).legal = true ∧
    decCmac (encCmac (.asra 3 24)) = some (.asra 3 24) ∧ decMem (encMem (.pair 30 7 1023)) = some (.pair 30 7 1023) ∧
    decAlu (encAlu (.mvcTo 0x22 31)) = some (.mvcTo 0x22 31) := by decide
/-- The shift by 24 has its own clause. -/
theorem wit_ShiftsAndImmediates : Steady (onEngine {}) lone.e userRun ∧ Alone lone ∧ 24 ≤ 24 :=
  ⟨wit_Steady.1, wit_Steady.2.1, by decide⟩
theorem wit_StoresOfAccumulatorsSaturate : Steady (onEngine {}) lone.e userRun ∧ Alone lone :=
  ⟨wit_Steady.1, wit_Steady.2.1⟩
theorem wit_AluRowsWriteResultAndFlags : Steady (onEngine {}) lone.e userRun ∧ Alone lone ∧ 24 ≤ 24 :=
  ⟨wit_Steady.1, wit_Steady.2.1, by decide⟩
theorem wit_ControlRegisterRows : Steady (onEngine {}) lone.e userRun ∧ Alone lone ∧
    (0x22 : BitVec 6).toNat ≤ 0x22 ∧ (0x25 : BitVec 6).toNat ≤ 0x25 ∧ (2 : BitVec 2) ≠ 3 :=
  ⟨wit_Steady.1, wit_Steady.2.1, by decide⟩
theorem wit_TransfersTakeTwoDelaySlots :
    (Steady (onEngine {}) 23 userRun ∧ ((onEngine {}).eng 23).lands = [] ∧ ((onEngine {}).eng 23).exh = false) ∧
    (∀ b, Steady (onEngine { sw := 0x800, resumable := b }) 23 userRun) ∧
    ((onEngine { sw := 0x800, resumable := true }).eng 23).exh = true ∧
    bitOf ((onEngine {}).rg LE_BKPT) 31 = false ∧ bitOf ((onEngine {}).rg LE_TRACE) 31 = false := by
  unfold Steady; decide +kernel
theorem wit_CmacRowsAccumulate : Steady (onEngine {}) lone.e userRun ∧ Alone lone ∧
    (2 : BitVec 2).toNat % 2 = 0 ∧ (30 : BitVec 5).toNat % 2 = 0 ∧ (24 : BitVec 5).toNat ≤ 24 ∧
    (8 : BitVec 5).toNat ≤ 8 := ⟨wit_Steady.1, wit_Steady.2.1, by decide⟩
/-- The three cases at OFS below, at and above the length. -/
theorem wit_AddressesFollowTheirModes :
    let x : Engine := { len := [(1, 8), (2, 8)], ofs := [(1, 7), (2, 8)] }
    (tget 0 x.len 0).toNat = 0 ∧ (tget 0 x.ofs 1).toNat < (tget 0 x.len 1).toNat ∧
      (tget 0 x.len 2).toNat ≤ (tget 0 x.ofs 2).toNat := by decide
/-- The last address, by an absolute mode; and a pair whose second word wraps. -/
theorem wit_MemoryRowsLoadAndStore : Steady (onEngine {}) lone.e userRun ∧ Alone lone ∧ lone.rdA = .ok ∧
    lone.rdB = .ok ∧ (((onEngine {}).eng 23).viaMode (.abs 0x3FFF)).a = 0x3FFF ∧ ((onEngine {}).eng 23).bad = [] ∧
    (30 : BitVec 5) ≠ 31 ∧ (19 : BitVec 5) ≠ 18 ∧ userRun.slot < 12 ∧ ((onEngine {}).eng 23).xfer = none :=
  ⟨wit_Steady.1, wit_Steady.2.1, by decide +kernel⟩
/-- A run of a near axis's stage. -/
def nearRun : EngRun := ⟨200, 3, 11, false, false, true, 0, 0, none, []⟩
/-- A transfer of the cabinet's last words. -/
def lastWords : Xfer := ⟨true, 0x1FFFC0, 0x37C0, 64, []⟩
theorem wit_OutboxAndCabinetTransfers :
    (Steady (onEngine {}) 23 userRun ∧ Alone lone ∧ userRun.flowEn = true ∧ ((onEngine {}).eng 23).xfer = none) ∧
    (let s : State := { onEngine {} with
      engs := [(23, { run := some nearRun })], runs := [(200, some { stages := [(3, some {})] })] };
      Steady s 23 nearRun ∧ nearRun.near = true ∧ s.stage? 200 3 = some {}) ∧
    (let s := onEngine { xfer := some lastWords };
      (s.eng 23).xfer = some lastWords ∧ 0 < lastWords.len ∧ s.isOn (bankDom (4 * 0x1FFFC0)) = true ∧
      s.isOn (bankDom (4 * 0x1FFFFF)) = true ∧ (s.eng 0).xfer = none) := by
  unfold Steady Alone; decide +kernel
/-- Each reserved slot, each forbidden combination, and the two uncorrectable words. -/
theorem wit_IllegalWordsPerformNothing : Steady (onEngine {}) 23 userRun ∧
    decCmac (slotCmac (leWord 0x3FFFF 0 0)) = none ∧ decMem (slotMem (leWord 0 (encMem (.pair 31 0 0)) 0)) = none ∧
    decAlu (slotAlu (leWord 0 0 0x3F0000)) = none ∧
    (CmacOp.mpy2 false false 1 0 0).pair? = some (1, 0, 0) ∧ nearRun.flowEn = false ∧ userRun.near = false ∧
    Steady (onEngine { xfer := some lastWords }) 23 userRun ∧ ((onEngine {}).eng 23).exh = false ∧
    (2 : BitVec 2).toNat ∈ (CmacOp.mpy2 false false 2 0 0).writes ∧ (3 : BitVec 2).toNat ∈ (CmacOp.mpy2 false false 2 0 0).writes ∧
    (AluOp.br 0).transfer = true ∧ ((onEngine {}).eng 23).lands = [] ∧
    (((onEngine {}).eng 23).viaMode (.abs 0x3000)).a = 0x3000 := by
  unfold Steady; decide +kernel
theorem wit_LoopEngineUpkeep : State.reset.isOn (engDom 23) = true ∧
    ({ pwr := { dom := [(6, { st := .off })] } } : State).isOn (engDom 23) = false ∧
    (cycling .sill).cyc.phase = .sill ∧ State.reset.isOn 1 = true ∧
    (0x1FBF : BitVec 13).toNat ∈ ({ imFix := [0x1FBF] } : Engine).imFix ∧
    (0x1FBF : BitVec 13).toNat ∉ ({} : Engine).imFix := by decide

/-! ### Near axes -/

/-- Near axis 7 is that of context 128, an enabled axis of an enabled context; more registers and feedback. -/
def nearAxis (l : List (Reg × Nat × W32)) (x : Fb := {}) : State :=
  { withRegs (cycling .active) ([(DISP_TPL_HDR_LO, 128, 0x801C0000), (DISP_TPL_HDR_HI, 128, 0x80000000)] ++ l) with
    axes := [(128, { enabled := true })], fbs := [(7, x)] }
/-- Its ledgers balance across a wrap. -/
def balanced : Fb := { obs := 0, acc := 0xFFFFFFFF, disc := 1, cnt := 0xFFFFFFFD, up := 1, dn := 3, adj := 1 }
theorem wit_EdgeLedgersBalance : EdgeLedgers (nearAxis [] balanced) ∧
    ∃ t, step (nearAxis [] balanced) = .next t := by
  refine ⟨fun n => ?_, _, rfl⟩
  by_cases h : 7 = n
  · subst h; decide
  · have : (nearAxis [] balanced).fb n = {} := if_neg h
    rw [this]; decide
/-- A phase with a carry in RUN. -/
def owing : State := { pwms := [(7, { st := .run, w := { carry := -5, diff := 0xFFFFFFFD, sat := 2 } })] }
theorem wit_VoltSecondLedgersBalance : VoltLedgers owing ∧ ∃ t, step owing = .next t := by
  refine ⟨fun m k => ?_, _, rfl⟩
  by_cases h : 7 = m
  · subst h
    match k with
    | 0 => decide
    | 1 => decide
    | k + 2 => rw [show (owing.pwm 7).phase (k + 2) = (owing.pwm 7).phase 2 from rfl]; decide
  · have : owing.pwm m = {} := if_neg h
    rw [this]
    match k with
    | 0 => decide
    | 1 => decide
    | k + 2 => rw [show ({} : Pwm).phase (k + 2) = ({} : Pwm).phase 2 from rfl]; decide
/-- An edge at MIN_EDGE and 1 ns before it, the reverse edge, both lines, a quarantined edge, and the index. -/
theorem wit_QuadratureEdgesCountOrWait :
    let e : Nat := 10 * State.reset.rf FB_EDGE 7 9 0
    let at_ (n : Nat) : State := nearAxis [] { lastEdge := some (1000500 - BitVec.ofNat 64 n) }
    (at_ e).isOn 21 = true ∧ (at_ e).isOn 22 = true ∧ ((at_ e).fb 7).quar = none ∧
    ¬ ((at_ e).bt - (1000500 - BitVec.ofNat 64 e)).toNat < 10 * (at_ e).rf FB_EDGE 7 9 0 ∧
    ((at_ (e - 1)).bt - (1000500 - BitVec.ofNat 64 (e - 1))).toNat < 10 * (at_ (e - 1)).rf FB_EDGE 7 9 0 ∧
    (true != ((at_ e).fb 7).a) = !(false != ((at_ e).fb 7).b) ∧ (true != ((at_ e).fb 7).b) = true ∧
    (let q : QEdge := ⟨false, 1000499, true, true, false⟩
     let s := nearAxis [] { a := true, quar := some q };
     (s.fb 7).quar = some q ∧ (false != (s.fb 7).a) = !(false != (s.fb 7).b) ∧
      q.lineB = (false != (s.fb 7).b) ∧ (s.bt - q.at_).toNat < 10 * s.rf FB_EDGE 7 9 0) ∧
    (let s := nearAxis [(FB_CFG, 7, 0x18)] { armed := true };
     true = bitOf (s.rg FB_CFG 7) 4 ∧ false = bitOf (s.rg FB_CFG 7) 5 ∧ s.rf FB_CFG 7 3 2 = 2 ∧
      (s.fb 7).lastEdge = none) := by decide +kernel
theorem wit_FeedbackRegistersTakeTheirWrites :
    let s := nearAxis [(FB_AXIS_SEL, 0, 7)]
    s.isOn 1 = true ∧ s.ctxOfNear 7 = 128 ∧ s.ctxEn 128 = true ∧ State.reset.ctxEn (State.reset.ctxOfNear 0) = false ∧
      bitOf (1 : W32) 0 = true ∧ bitOf (0xFFFFFFFE : W32) 0 = false := by decide +kernel
theorem wit_FeedbackReceiversReport :
    (let s := nearAxis [(FB_CFG, 7, 0x40)] { hall := 1 };
     s.isOn 21 = true ∧ s.isOn 22 = true ∧ s.ctxOfNear 7 = 128 ∧ bitOf (s.rg FB_CFG 7) 6 = true ∧
      (s.fb 7).hall ≠ 7 ∧ (s.fb 7).hall ≠ 6 ∧ (s.fb 7).hall ≠ 3) ∧
    (let s := nearAxis [(FB_CFG, 7, 2)] { ssiRun := some (1000000, false) };
     s.rf FB_CFG 7 1 0 = 2 ∧ s.cyc.running = true ∧ (s.fb 7).ssiRun = some (1000000, false) ∧
      s.cyc.phase ≠ .idle ∧ s.cyc.t0.toNat + s.rf DISP_CYC_SAMPLE 0 19 0 - s.rf FB_SSI_LEAD 7 19 0 = 971000 ∧
      s.cyc.nextT0.toNat + s.rf DISP_CYC_SAMPLE 0 19 0 - s.rf FB_SSI_LEAD 7 19 0 = 1002250 ∧
      971000 < s.bt.toNat ∧ s.bt.toNat ≤ 1002250) := by
  decide +kernel
theorem wit_FeedbackReceiversReport_comparators :
    (let s := nearAxis [(FB_CFG, 7, 0x200), (FB_SD_CMPH 2, 7, 0x008000), (FB_SD_CMPL 2, 7, 0xFF8000)];
     let out (y : Int) : Bool := decide (((s.rg (FB_SD_CMPH 2) 7).setWidth 24).toInt < y * 2 ^ 15 ∨
       y * 2 ^ 15 < ((s.rg (FB_SD_CMPL 2) 7).setWidth 24).toInt);
     out 2 = true ∧ out 1 = false ∧ out (-1) = false ∧ out (-2) = true) := by
  decide +kernel
theorem wit_FeedbackReceiversReport_streams :
    (let s := nearAxis [(FB_CFG, 7, 0x60200)] { stuck := 4 };
     bitOf (s.rg FB_CFG 7) 9 = true ∧ (s.fb 7).stuck.getLsbD 2 = true ∧ s.rf FB_CFG 7 18 17 ≠ 0 ∧
      s.sdAny 7 = true ∧ s.isOn 7 = true ∧ s.ctxOfNear 7 ≠ 0 ∧ (State.reset.fb 7).stuck.getLsbD 2 = false) := by
  decide +kernel
/-- Module 7 in RUN, with a landed set. -/
def inRun (l : List (Reg × Nat × W32)) : State :=
  { withRegs (cycling .active) l with bgTo := 0, pwms := [(7, { st := .run, enable := true, landed := true })] }
theorem wit_PwmModulesDecideAtZeroAndCentre :
    (let s := inRun [(PWM_CTL, 7, 3)];
     s.isOn 21 = true ∧ (s.pwm 7).st = .run ∧ s.rf PWM_CTL 7 1 0 = 3 ∧ (s.pwm 7).landed = true ∧
      (s.pwm 7).defer = none) ∧
    (let s := inRun [(PWM_CTL, 7, 0x21)];
     s.rf PWM_CTL 7 1 0 ≠ 3 ∧ bitOf (s.rg PWM_CTL 7) 5 = true ∧ 7 = (6 : Fin 7).val + 1 ∧
      0 < 8 * s.rf PWM_PER 7 19 0) ∧
    (State.reset.pwm 7).st ≠ .run := by decide +kernel
theorem wit_PwmStateMachine :
    (let s : State := { bgTo := 0 };
     s.isOn 1 = true ∧ (s.pwm 0).st = .disabled ∧ (s.pwm 0).enable = false ∧ s.mapped 0 = 0 ∧
      s.rg PWM_FLT_LATCH 0 = 0 ∧ s.cyc.running = false) ∧
    (({ bgTo := 0x100 } : State).mapped 0 ≠ 0) ∧
    (let s := inRun [(PWM_MOD_SEL, 0, 7)];
     s.rf PWM_MOD_SEL 0 2 0 = 7 ∧ (s.pwm 7).st = .run ∧ s.isOn 21 = true ∧
      ({ s with pwmFlt := 0x80 } : State).mapped 7 ≠ 0) ∧
    (let s : State := { bgTo := 0, pwms := [(7, { enable := true })] };
     (s.pwm 7).st ≠ .run ∧ (s.pwm 7).enable = true ∧ s.mapped 7 = 0 ∧ s.rg PWM_FLT_LATCH 7 = 0) := by
  decide +kernel

/-! ### Descriptors -/

/-- A payload from fields: the descriptor's byte at which each begins, its length in bytes, its value. -/
def fields (l : List (Nat × Nat × Int)) : BitVec 384 :=
  l.foldl (fun p x => p ||| (BitVec.ofNat 384 (x.2.2 % 2 ^ (8 * x.2.1)).toNat <<< (8 * (x.1 - 16)))) 0
/-- A descriptor of a target, with AUX and fields. -/
def desc (t : Nat) (aux : W32 := 0) (l : List (Nat × Nat × Int) := []) : Desc :=
  { target := BitVec.ofNat 32 t, aux := aux, payload := fields l }
/-- The descriptor row takes effect. -/
def ready (s : State) (c : Instr) : Bool :=
  match c.desc? with
  | some (op, d) => s.isOn 1 && (fetchCheck op d).isNone && ((taken s op d).gate op d).isNone
  | none => false
/-- The state in which it does. -/
def before (s : State) (c : Instr) : State :=
  match c.desc? with
  | some (op, d) => taken s op d
  | none => s
/-- What `ready` says. -/
theorem ready_iff (s : State) (c : Instr) (op : BitVec 8) (d : Desc) (h : c.desc? = some (op, d)) :
    ready s c = true ↔ Ready s op d := by
  simp [ready, h, Ready, Bool.and_eq_true, Option.isNone_iff_eq_none, and_assoc]

/-- The bytes of a NOP descriptor as chapter 15 lays them out, and the bytes of its opcode's row. -/
theorem test_descriptor_bytes :
    descBytes 0x11 { flags := 0x09, tag := 0x1234, target := 0x25, execAt := 0x89ABCDEF, aux := 1
                     payload := fields [(16, 8, -65536)] } =
      [0x11, 0x09, 0x34, 0x12, 0x25, 0, 0, 0, 0xEF, 0xCD, 0xAB, 0x89, 1, 0, 0, 0,
        0, 0, 0xFF, 0xFF, 0xFF, 0xFF, 0xFF, 0xFF] ++ List.replicate 40 0 := by decide +kernel

set_option maxRecDepth 20000 in
/-- Each reserved field, each kind of target at both ends of its range, each gate, and CORE off. -/
theorem wit_DescriptorsAreCheckedThenGated :
    (Instr.nop {}).desc? = some (0x00, {}) ∧
    ({ pwr := { dom := [(1, { st := .off })] } } : State).isOn 1 = false ∧ State.reset.isOn 1 = true ∧
    fetchCheck 0x00 { flags := 3 } = some 0x0102 ∧ fetchCheck 0x00 { execAt := 1 } = some 0x0102 ∧
    fetchCheck 0x00 { aux := 0x80000000 } = some 0x0102 ∧ fetchCheck 0x18 (desc 1 0 [(63, 1, 1)]) = some 0x0102 ∧
    fetchCheck 0x18 (desc 0) = some 0x0103 ∧ fetchCheck 0x18 (desc 129) = some 0x0103 ∧
    fetchCheck 0x18 (desc 1) = none ∧ fetchCheck 0x18 (desc 128) = none ∧
    fetchCheck 0x23 (desc 129) = none ∧ fetchCheck 0x23 (desc 160) = none ∧ fetchCheck 0x50 (desc 161) = none ∧
    fetchCheck 0x50 (desc 168) = none ∧ fetchCheck 0x01 (desc 255) = none ∧ fetchCheck 0x00 (desc 0) = none ∧
    fetchCheck 0x42 (desc (2 ^ 25 - 1) 1) = none ∧ fetchCheck 0x42 (desc (2 ^ 25) 1) = some 0x0102 ∧
    opRow 0x02 = none ∧
    (taken State.reset 0x84 (desc 1)).gate 0x84 (desc 1) = some 0x0820 ∧
    (taken { twin := { st := .standby } } 0x18 (desc 1)).gate 0x18 (desc 1) = some 0x0710 ∧
    (taken State.reset 0x84 { sq := 62, target := 1 }).gate 0x84 { sq := 62, target := 1 } = some 0x0821 ∧
    (taken { boot := { st := .recovery } } 0x18 (desc 1)).gate 0x18 (desc 1) = some 0x0108 := by
  decide +kernel

/-! ### Motion -/

/-- Context 128 is an enabled axis with VMAX, AMAX, DMAX, JMAX and QSTOP of 2^20 counts, at 100 counts; its
limit inputs, active low, are inactive when `lim` says so. -/
def moving (x : Axis := {}) (lim : Bool := true) : State :=
  let s := withRegs (cycling .active) [(DISP_TPL_HDR_HI, 128, 0x80000000)]
  let s := [0x200, 0x203, 0x206, 0x209, 0x20C].foldl (fun s w => s.setDrawer 128 (w + 1) 0x1000) s
  { s with axes := [(128, { x with
    enabled := true, kin := { x.kin with p := 100 }, inP := { filt := lim }, inN := { filt := lim } })] }
/-- VMAX in counts a second. -/
theorem test_vmax : (moving).dw48 128 0x200 = 2 ^ 20 := by decide +kernel
/-- AX_MOVE to 116 counts, and the limits of its fields; a negative one. -/
def moveTo : Desc := desc 128 0 [(16, 8, 116 * 65536), (24, 8, 0x7FFFFFFFFFFFFFFF)]
def badMove : Desc := desc 128 0 [(16, 8, 116 * 65536), (48, 8, -1)]
/-- AX_VEL, AX_PVT with one and two segments, AX_GEAR and AX_CAM. -/
def velAt : Desc := desc 128 0 [(16, 8, -65536)]
def pvt1 : Desc := desc 128 1 [(16, 8, 65536), (24, 8, 2 ^ 36), (32, 4, 65535)]
def pvt2 : Desc := desc 128 2 [(16, 8, 65536), (24, 8, 2 ^ 36), (32, 4, 1), (36, 8, -1), (44, 8, -(2 ^ 36)), (52, 4, 65535)]
def gearOf (aux : W32) : Desc := desc 128 aux [(16, 4, -0x80000000), (20, 4, 0xFFFFFFFF), (24, 1, 15)]
def camOf : Desc := desc 128 0 [(16, 1, 63), (17, 1, 15), (32, 8, 99 * 65536)]
/-- Segments that wait. -/
def queued (n : Nat) : State := moving { mode := .pvt, pvt := List.replicate n ⟨0, 0, 1, none⟩ }
/-- Master 15 is a virtual one, and a cam table. -/
def mastered (x : Cam) : State :=
  let s := withRegs (moving {}) [(PRF_MS_CFG, 15, 4)]
  { s with cams := [(63, x)] }
/-- Where a row takes effect: refused by the axis, and by what the descriptor asks. -/
theorem wit_MovesBeginTheirMode_refused :
    (let s : State := { axes := [(128, {})] };
     ready s (.axMove moveTo) = true ∧ (before s (.axMove moveTo)).notReady 128 = some 0x0322) ∧
    (let s := moving { group := some 31 };
     ready s (.hmSet (desc 128)) = true ∧ (before s (.hmSet (desc 128))).notReady 128 = some 0x0323) ∧
    (ready (moving {}) (.axMove badMove) = true ∧ (badMove.les 48 8 : Rat) / 2 ^ 16 < 0 ∧
      (before (moving {}) (.axMove badMove)).notReady 128 = none) ∧
    (let s := moving {} false;
     ready s (.axMove moveTo) = true ∧ (before s (.axMove moveTo)).limActive 128 16 = true) ∧
    (let s := (moving { homed := true }).setDrawer 128 0x300 0x10;
     (before s (.axMove moveTo)).swlOn 128 = true ∧ (before s (.axMove moveTo)).outsideSwl 128 116 = true ∧
      (before s (.axMove moveTo)).limActive 128 16 = false) := by decide +kernel
theorem wit_MovesBeginTheirMode_moves :
    (let u := before (moving {}) (.axMove moveTo);
     ready (moving {}) (.axMove moveTo) = true ∧ u.notReady 128 = none ∧ bitOf moveTo.aux 1 = false ∧
      u.limActive 128 16 = false ∧ u.swlOn 128 = false ∧ (0 : Rat) ≤ (moveTo.les 24 8 : Rat) / 2 ^ 16) ∧
    (let u := before (moving {}) (.axVel velAt);
     ready (moving {}) (.axVel velAt) = true ∧ u.notReady 128 = none ∧ u.limActive 128 (-1) = false ∧
      0 < min 1 (u.dw48 128 0x200)) ∧
    (ready (moving {}) (.axCam (desc 128 0xFF02)) = true ∧ bitOf (0xFF02 : W32) 1 = true ∧
      (desc 128 0xFF02 [(16, 1, 64)]).le 16 1 = 64 ∧ ready (moving {}) (.axMove { badMove with aux := 2 }) = true) ∧
    ready (moving {}) (.axStop (desc 128 0)) = true ∧ ready (moving {}) (.axStop (desc 128 1)) = true ∧
    (ready (moving {}) (.axPvt pvt1) = true ∧ ready (moving {}) (.axPvt pvt2) = true ∧
      (before (moving {}) (.axPvt pvt2)).anyLimit 128 = false ∧ pvt2.le 52 4 ≤ 65535 ∧
      absR ((pvt2.les 44 8 : Rat) / 2 ^ 16) ≤ (before (moving {}) (.axPvt pvt2)).dw48 128 0x200 ∧
      ((before (queued 14) (.axPvt pvt2)).ax 128).pvt.length + 2 = 16 ∧ ready (queued 15) (.axPvt pvt2) = true) ∧
    (ready (moving {}) (.axStep (desc 128 5)) = true ∧ ((moving {}).ax 128).kin.v = 0 ∧
      ((moving { kin := { v := 1 } }).ax 128).kin.v ≠ 0) := by decide +kernel
theorem wit_MovesBeginTheirMode_follows :
    (ready (mastered {}) (.axGear (gearOf 0)) = true ∧ ready (mastered {}) (.axGear (gearOf 1)) = true ∧
      0 < (gearOf 0).le 20 4 ∧ (before (mastered {}) (.axGear (gearOf 0))).msKind 15 ≠ 0) ∧
    (let u := before (mastered {}) (.axCam camOf);
     ready (mastered {}) (.axCam camOf) = true ∧ u.notReady 128 = none ∧ u.anyLimit 128 = false ∧
      u.msKind (camOf.le 17 1) ≠ 0 ∧ (u.cam 63).ready = false) ∧
    (let x : Cam := { ready := true, n := 4, xlen := 0x300000000, pts := [(1, 1), (2, 2), (3, 3)] }
     let u := before (mastered x) (.axCam camOf)
     let y := ((u.cam 63).value 99 (((u.ms 15).froz.pos.toInt : Rat) / 2 ^ 32)).1;
     (u.cam 63).ready = true ∧ absR ((u.ax 128).kin.p - y.p) ≤ 1 ∧
      1 < absR ((u.ax 128).kin.p - (y.p - 99))) := by decide +kernel
/-- AX_ENABLE: refused by the pair and by a latched fault; taking effect; and a disable. -/
theorem wit_EnableHomingAndLimits_enable :
    (let s := { moving {} with twin := { st := .standby } };
     (s.isNear 128 = false ∧ s.drawer 128 0x099 = 0 ∧ s.twin.st = .standby) ∧
      (taken s 0x10 (desc 128 1)).gate 0x10 (desc 128 1) = some 0x0710) ∧
    (let s := { moving {} with twin := { st := .active, partnerOk := true, partnerSt := 2 } };
     ready s (.axEnable (desc 128 1)) = true ∧ (before s (.axEnable (desc 128 1))).mirrorOn = true ∧
      s.drawer 128 0x099 = 0) ∧
    (let s := moving { faulted := true };
     ready s (.axEnable (desc 128 1)) = true ∧ (s.ax 128).faulted = true ∧ bitOf (desc 128 1).aux 1 = false) ∧
    (ready (moving {}) (.axEnable (desc 128 3)) = true ∧ (moving {}).ctxEn 128 = true ∧
      (moving {}).faultActive 128 = false ∧ (moving {}).mirrorOn = false) ∧
    ready (moving {}) (.axEnable (desc 128)) = true ∧ ready State.reset (.axEnable (desc 128)) = true := by
  decide +kernel
/-- HM_START with no method and with METHOD 1, 5 and 6; HM_SET; LIM_CLEAR; the inputs. -/
theorem wit_EnableHomingAndLimits_home :
    (let s := fun (v : W24) => (moving {}).setDrawer 128 0x300 v;
     ready (s 0) (.hmStart (desc 128)) = true ∧ (before (s 0) (.hmStart (desc 128))).homingBad 128 = true ∧
      (before (s 1) (.hmStart (desc 128))).homingBad 128 = false ∧
      (before (s 3) (.hmStart (desc 128))).homingBad 128 = false ∧
      (before (s 1) (.hmStart (desc 128))).notReady 128 = none) ∧
    (ready (moving {}) (.hmSet (desc 128)) = true ∧ ((moving {}).ax 128).kin.v = 0) ∧
    (ready (moving {}) (.limClear (desc 128 7)) = true ∧ (moving {}).stillChatters 128 0 = false ∧
      (moving {}).stillChatters 128 1 = false ∧ (moving {}).stillChatters 128 2 = false ∧
      (moving {} false).stillChatters 128 1 = true) ∧
    (let s := nearAxis [(PRF_LIM_CFG, 128, 0x200000)];
     s.isOn 22 = true ∧ s.ctxOfNear 7 = 128 ∧ bitOf (s.rg PRF_LIM_CFG 128) (19 + 2) = true) := by
  decide +kernel
/-- Group 31 of one member, with a rate like its own context's, and its registers. -/
def grouped (x : Grp := {}) : State :=
  let s := withRegs (moving {}) [(DISP_TPL_HDR_HI, 128, 0x80000020)]
  { s with grps := [(31, x)] }
/-- A member that is free, a list that names one twice, a segment's descriptors. -/
theorem wit_GroupsTakeTheirSegments :
    (let d := desc 160 0 [(16, 1, 128)];
     ready (grouped) (.grpDefine d) = true ∧ (before (grouped) (.grpDefine d)).memberOk 31 128 = true ∧
      (before (grouped) (.grpDefine d)).anyLimit 128 = false ∧
      ready (grouped) (.grpDefine (desc 160 0 [(16, 1, 128), (17, 1, 128)])) = true ∧
      [128, 128].eraseDups.length ≠ 2 ∧ (moving {} false).anyLimit 128 = true) ∧
    (let d := desc 160 0 [(16, 8, 1), (24, 8, 1), (32, 8, 1), (44, 2, 1)]
     let s := grouped { members := [128] };
     ready s (.grpLine d) = true ∧ ((s.grp 31).queue.length < 64) ∧ [(d.les 32 8 : Rat) / 2 ^ 16] ≠ [0]) ∧
    (let d := desc 160 0 [(16, 8, 1), (60, 1, 0), (61, 1, 15), (62, 1, 255), (63, 1, 1)];
     ready (grouped) (.grpArc d) = true ∧ d.le 61 1 < 16 ∧ d.le 62 1 = 255) ∧
    (let q : Seg := { arc := false, lims := {}, blend := 0, mask := 1 }
     let s := fun n => grouped { open_ := some { seg := q, sq := 0, need := List.range n } };
     ready (s 6) (.grpPos (desc 160)) = true ∧ ((s 6).grp 31).open_.isSome = true ∧
      ready (s 7) (.grpPos (desc 160)) = true ∧ ready (grouped) (.grpPos (desc 160)) = true) ∧
    (ready (grouped { st := .run }) (.grpHold (desc 160)) = true ∧
      ready (grouped { st := .hold }) (.grpResume (desc 160)) = true ∧
      ready (grouped { path := some {} }) (.grpFlush (desc 160)) = true) := by decide +kernel
/-- EV_ARM of slot 255 at the edges of its fields' ranges, and beyond one. -/
def arm (ofs : Int) : Desc :=
  desc 128 0x00FF [(16, 8, -1), (36, 4, ofs), (40, 1, 17), (41, 1, 3), (42, 1, 2), (43, 1, 1), (44, 2, 15)]
/-- Slot 255 with a fire that is scheduled, its edge 100 ns after it or before it. -/
def edge (e : Ev) (at_ : W64 := 1000700) : State :=
  { withRegs (moving {}) [(EVT_GO_OWN, 0, 0x8000)] with
    evs := [(255, { e with sched := [{ at_ := 1000600, edge := at_ }] })] }
/-- Two edges of slot 255 that wait. -/
def edges : State :=
  { edge {} with go := { edges := [⟨254, 1000500, 15, none⟩, ⟨255, 1000600, 15, some 1⟩, ⟨255, 1000700, 15, none⟩] } }
theorem wit_SlotsCamsAndMasters_slots :
    (ready (moving {}) (.evArm (arm (-10000))) = true ∧ (slotOfDesc (arm (-10000)) none).inRange = true ∧
      (slotOfDesc (arm 65535) none).inRange = true ∧ (slotOfDesc (arm 65536) none).inRange = false ∧
      (before (moving {}) (.evArm (arm (-10000)))).ownerOk 255 (slotOfDesc (arm (-10000)) none) = true ∧
      (State.reset).ownerOk 255 (slotOfDesc (arm 0) none) = false) ∧
    (let s := fun c => { moving {} with evs := [(255, { armed := true, owner := c })] };
     ready (s 1) (.evDisarm (desc 128 255)) = true ∧ ((s 1).ev 255).owner ≠ 128 ∧ ((s 128).ev 255).owner = 128 ∧
      ready (s 128) (.evDisarm (desc 128 255)) = true ∧ ready (moving {}) (.evDisarm (desc 128 255)) = true) ∧
    (((edge { repeat_ := true, armed := true, notify := true }).ev 255).sched = [⟨1000600, 1000700, false, false⟩] ∧
      ((moving {}).ev 255).sched = [] ∧ (moving {}).go.edges = [] ∧
      (((edge { action := 1, arg := 15 } 1000599).ev 255).sched.all (fun f => decide (f.edge < f.at_))) = true ∧
      edges.go.edges.find? (fun g => g.slot == 255) = some ⟨255, 1000600, 15, some 1⟩ ∧
      (∀ f ∈ (edges.ev 255).sched, 1000600 ≤ f.at_) ∧ bitOf (edges.rg EVT_GO_OWN) 15 = true) ∧
    (let s : State := { go := { pulses := [⟨15, 255, 77⟩] } };
     s.go.pulses.find? (fun p => p.slot == 255) = some ⟨15, 255, 77⟩) := by decide +kernel
theorem wit_SlotsCamsAndMasters_tables :
    (let d := fun (f : Nat) => desc 0 (BitVec.ofNat 32 (63 + 256 * f)) [(16, 8, 5)];
     ready (moving {}) (.ctLoad (d 1019)) = true ∧ ready (moving {}) (.ctLoad (d 1020)) = true ∧
      bitsOf (d 1019).aux 17 8 + 5 = 1024 ∧ (moving {}).camUsed 63 = false ∧
      (moving { mode := .cam, follow := { ct := 63 } }).camUsed 63 = true) ∧
    (let d := desc 0 63 [(16, 2, 1024), (24, 8, 1), (32, 1, 1)];
     ready (moving {}) (.ctCommit d) = true ∧ d.le 16 2 ≤ 1024 ∧ d.le 24 8 ≠ 0 ∧ d.le 32 1 ≤ 1 ∧
      (mastered { computing := true }).cam 63 = { computing := true }) ∧
    (ready (mastered {}) (.vmSet (desc 0 0x1F)) = true ∧
      (before (mastered {}) (.vmSet (desc 0 0x1F))).msKind 15 = 4 ∧
      (before (mastered {}) (.vmSet (desc 0 0))).msKind 0 ≠ 4) := by decide +kernel

/-! ### The link -/

/-- A cell with correct check sums. -/
def sound (c : Cell) : RxCell := ⟨c, crc8 c.header, crc32c (c.header ++ c.data)⟩
/-- Ports 2 and 3 are on; more of the link, ring B and the twin. -/
def linked (l : Lnk := {}) (r : Ring := {}) (t : Twin := {}) : State :=
  { withRegs (cycling .active) [(LNK_PORT_CTL, 2, 1), (LNK_PORT_CTL, 3, 1)] with lnk := l, rings := [(1, r)], twin := t }
theorem wit_OwnCellsComeBackCountedAndKnown_cells :
    (State.reset.portOn 3 = false ∧ (linked).portOn 3 = true ∧ (linked).portOn (3 ^^^ 1) = true ∧
      (sound { typ := 0xA1 }).hOk = true ∧ (linked).twin.claim = 0 ∧ ((linked).ring 1).st ≠ .closed ∧
      { sound { typ := 0xA5 } with hcrc := 0xFF }.hOk = false ∧
      { sound { typ := 0xA5 } with crc := 0 }.ok = false) ∧
    ((sound { typ := 0xA7, seq := (linked).cyc16 }).hOk = true ∧ (sound { typ := 0xA6, flags := 0 }).ok = true ∧
      ({ typ := 0xA6, flags := 0 } : Cell).empty = false) ∧
    (let s := linked {} { st := .closed } {};
     (s.ring 1).st = .closed ∧ (s.ring 1).locate = none ∧ s.leftOn 1 { typ := 0xA4, node := 1 } = some 2) ∧
    (let s := linked {} {} { st := .active, claim := 1 };
     s.twin.st ≠ .off ∧ s.twin.claim < 2 ∧ s.silent = false) := by decide +kernel
theorem wit_OwnCellsComeBackCountedAndKnown_ports :
    (State.reset.portOn 4 = false ∧ (withRegs {} [(LNK_PORT_CTL, 4, 1)]).portOn 4 = true ∧
      ((linked).port 3).modabs = false ∧ State.reset.isOn 1 = true) ∧
    (let s := linked { ports := [(2, { lock := true }), (3, { lock := true })] } { st := .closed };
     (s.port (3 ^^^ 1)).lock = true ∧ (s.ring 1).st = .closed ∧ ((linked {} { st := .enum }).port 2).lock = false) ∧
    (let s := linked { ports := [(3, { i2c := some ⟨true, 0x51, 0, 0⟩ })] };
     (s.port 3).i2c = some ⟨true, 0x51, 0, 0⟩ ∧ ((linked).port 3).i2c = none ∧
      bitOf (0x800000A0 : W32) 31 = true ∧ bitsOf (0x800000A0 : W32) 7 1 = 0x50 ∧
      (withRegs (linked) [(LNK_PORT_SEL, 0, 3)]).rf LNK_PORT_SEL 0 2 0 = 3) := by decide +kernel
/-- A transaction of one value with node 254 of ring B, its age at TMO. -/
def asked : Adm := { ring := 1, node := 254, seq := 7, write := false, count := 4, age := 2, what := .host none }
theorem wit_AdminAndTunnelCellsAreServed_admin :
    (let d := fun (n k : Nat) => desc (2 ^ 24 + n * 65536) (BitVec.ofNat 32 k);
     ready (linked) (.sigRead (d 254 4)) = true ∧ ready (linked) (.sigWrite (d 255 1)) = true ∧
      ready (linked) (.sigRead (d 1 5)) = true ∧ ready (linked) (.sigRead (d 0 1)) = true ∧
      (ioPoints 1 0x4020 4).isSome = true ∧ (ioPoints 1 0x9FC0 4).isSome = true ∧ ioPoints 1 0x4022 4 = none) ∧
    (let s := withRegs (linked { adm := [asked] }) [(LNK_ADM, 0, 2)];
     asked ∈ s.lnk.adm ∧ s.rf LNK_ADM 0 7 0 = 2 ∧ asked.what = .host none ∧ s.portOn 3 = true) ∧
    (let rx := sound { typ := 0xA8, node := 254, seq := 7, sub := 0x81 };
     rx.hOk = true ∧ rx.ok = true ∧ rx.cell.empty = false ∧ rx.cell.claim = (linked).twin.claim) := by
  decide +kernel
theorem wit_AdminAndTunnelCellsAreServed_tunnel :
    (let rx := sound { typ := 0xA9, node := 254, seq := 9, sub := 1, payload := 0x1680 };
     rx.hOk = true ∧ rx.ok = true ∧ rx.cell.empty = false ∧ rx.cell.be 0 2 % 32 = 22 ∧
      rx.cell.be 0 2 / 2 ^ 15 % 2 = 1 ∧
      tget {} (linked { tuns := [(510, { frame := 9, next := 1 })] }).lnk.tuns (nodeKey 1 254) = { frame := 9, next := 1 }) ∧
    (let a : Acyc := { cls := 3, cell := { typ := 0xA9 } }
     let s := linked { dirs := [(3, { wait := [a], credits := 1 })] };
     (s.dir 3).wait = [a] ∧ a.cls < 4 ∧ a.ahead = false ∧ s.acycBlocked 3 = false ∧ s.portOn 3 = true ∧
      ((linked).dir 3).wait = []) := by decide +kernel

/-! ### Time -/

/-- The plant port runs with JUMP_LIMIT of 1,000 ns, and the time servo as given. -/
def timed (x : TimeSt) (ctl : W32 := 1) : State :=
  { withRegs {} [(TIME_CTL, 0, ctl), (TIME_JUMP, 0, 1000)] with tm := x }
theorem wit_BackboneTimeIsServoedSlewedAndStepped_servo :
    (State.reset.isOn 18 = true ∧ bitOf (State.reset.rg TIME_CTL) 0 = false ∧
      bitOf ((timed {}).rg TIME_CTL) 0 = true) ∧
    (let s := timed { servo := .acquire } 3;
     s.timeSrc = 1 ∧ s.twinServo = false ∧ s.tm.servo = .acquire ∧
      ((((1000 * 65536 - (s.rg TIME_ASYM).toInt * 256 - s.tm.mpd.toInt * 256) / 65536 : Int) + s.tm.slewLeft.floor).natAbs ≤ s.rf TIME_JUMP 0 23 0) ∧
      s.rf TIME_JUMP 0 23 0 < (((1001 * 65536 - (s.rg TIME_ASYM).toInt * 256 - s.tm.mpd.toInt * 256) / 65536 : Int) + s.tm.slewLeft.floor).natAbs) ∧
    (let s := timed { servo := .refused, refusedTheta := some 2001 } 0x43;
     bitOf (s.rg TIME_CTL) 6 = true ∧ s.axes = [] ∧ (1001 - 2001 : Int).natAbs ≤ s.rf TIME_JUMP 0 23 0) ∧
    (timed { servo := .locked }).tm.servo = .locked := by decide +kernel
/-- A message that is waited for, in each profile; a delay request that is due and one that is not. -/
theorem wit_BackboneTimeIsServoedSlewedAndStepped_messages :
    (let s := timed { ptpSync := some (7, 65536), ptpReq := some (8, 0), ptpResp := some (9, 0, 0) };
     s.tm.ptpSync = some (7, 65536) ∧ s.tm.ptpReq = some (8, 0) ∧ s.tm.ptpResp = some (9, 0, 0) ∧ s.ptpProfile = 0) ∧
    (timed {} 0x1B).ptpProfile ≠ 0 ∧ (timed {}).tm.ptpReqAt = none ∧
    (let s := timed { ptpReqAt := some 0 };
     (s.bt - 0).toNat < s.askInterval ∧ s.askInterval ≤ ((0 : W64) - BitVec.ofNat 64 (2 ^ 64 - s.askInterval)).toNat) := by
  decide +kernel
theorem wit_BackboneTimeIsServoedSlewedAndStepped_moves :
    (let d := fun (r : Int) => desc 0 0 [(16, 8, -1), (24, 1, r)];
     ready (timed {}) (.timeSlew (d 0)) = true ∧ ready (timed {}) (.timeSlew (d 1)) = true ∧
      ready (timed { slewing := true }) (.timeSlew (d 100)) = true ∧ ready (timed {}) (.timeSlew (d 101)) = true ∧
      (d 100).le 24 1 = 100 ∧ (d 100).les 16 8 = -1) ∧
    (ready (timed {}) (.timeStep (desc 0 1)) = true ∧ (timed {}).tm.theta = none ∧
      ready (timed { theta := some 5 }) (.timeStep (desc 0 1)) = true ∧
      ready (timed {}) (.timeStep (desc 0 0 [(16, 8, -1)])) = true) ∧
    ((timed { slewing := true }).tm.slewing = true ∧ (timed { step := some (-7) }).tm.step = some (-7) ∧
      (timed {}).cyc.running = false ∧ (cycling .sill).cyc.phase = .sill ∧ State.reset.isOn 1 = true ∧
      State.reset.tm.wrapHi = (State.reset.bt >>> 32).setWidth 32 ∧ State.reset.bt.toNat / 2 ^ 32 + 1 < 2 ^ 32) := by
  decide +kernel

/-! ### The twin -/

/-- The twin port is on, TWIN_CTL as given. -/
def paired (x : Twin) (ctl : W32 := 0x1000) (tm : TimeSt := { servo := .locked }) : State :=
  { withRegs (cycling .active) [(LNK_PORT_CTL, 4, 1), (TWIN_CTL, 0, ctl)] with twin := x, tm := tm }
/-- A heartbeat of a JOINING partner (1), its claim `c`, its CFG_DIGEST `g`. -/
def heart (c : BitVec 8) (g : Nat) : RxCell :=
  sound { typ := 0xB0, claim := c, payload := octets (List.replicate 8 0 ++ beBytes 4 g ++ [0, 0, 1]) }
theorem wit_TwinUnitsJoinMirrorAndSwitch_hearts :
    (let s := paired { st := .joining, claim := 5 };
     s.portOn 4 = true ∧ State.reset.portOn 4 = false ∧ (heart 4 0).hOk = true ∧ (heart 4 0).ok = true ∧
      (heart 4 0).cell.typ = 0xB0 ∧ s.twin.st ≠ .off ∧ s.tm.servo = .locked ∧ (heart 4 0).cell.claim < s.twin.claim ∧
      s.twin.claim < (heart 6 0).cell.claim ∧ (heart 6 0).cell.be 8 4 = 0 ∧ (heart 6 0).cell.oct 14 % 8 = 1 ∧
      bitOf (s.rg TWIN_CTL) 1 = false ∧ bitOf ((paired {} 2).rg TWIN_CTL) 1 = true ∧
      [({ ring := 1, closed := true, max := 2, min := 0, nodes := [⟨1, 0, 0, 64⟩, ⟨2, 0, 0, 64⟩] } : NodeTable)].length = 1) ∧
    (let s := paired { st := .standby, partnerOk := true, misses := 2 };
     s.twin.hbSeen = false ∧ s.twin.missDone = false ∧ s.cyc.running = true ∧ bitOf (s.rg TWIN_CTL) 12 = true ∧
      s.rf TWIN_CTL 0 7 4 ≤ s.twin.misses + 1 ∧ State.reset.twin.otherSeen = false) := by decide +kernel
/-- The three cells of a descriptor that a STANDBY takes: the next one, for the next cycle but one. -/
def mirrorCell (k : Nat) : RxCell :=
  sound { typ := 0xB1, seq := 1, sub := BitVec.ofNat 8 k, payload := octets (twDescPart k (desc 128 1) 0x10 2) }
set_option maxRecDepth 20000 in
theorem wit_TwinUnitsJoinMirrorAndSwitch_cells :
    (let s := paired { st := .standby };
     s.portOn 4 = true ∧ s.twin.st = .standby ∧ (1 : BitVec 16) = s.twin.mseq + 1 ∧
      ((2 : BitVec 16) - s.cyc16).toNat = 2 ∧ ((0 : BitVec 16) - s.cyc16).toNat = 0) ∧
    ((mirrorCell 0).hOk = true ∧ (mirrorCell 0).ok = true) ∧ ((mirrorCell 1).hOk = true ∧ (mirrorCell 1).ok = true) ∧
    ((mirrorCell 2).hOk = true ∧ (mirrorCell 2).ok = true ∧ (mirrorCell 2).cell.sub.toNat = 2) ∧
    (let rx := sound { typ := 0xB3, payload := octets [200, 1, 0, 0, 1, 2, 3, 4] };
     rx.hOk = true ∧ rx.ok = true ∧ rx.cell.seq = (paired {}).cyc16 ∧ rx.cell.oct 1 % 32 = 1 ∧
      tget none ({ own := [(200, some 0x01020304)] } : Twin).own (rx.cell.oct 0) = some (BitVec.ofNat 32 (rx.cell.be 4 4))) ∧
    (let rx := sound { typ := 0xB4, sub := 1, payload := octets [63, 0, 0x0B, 0xFD] };
     rx.hOk = true ∧ rx.ok = true ∧ rx.cell.be 2 2 + 3 = 3072) ∧
    (let rx := sound { typ := 0xB4, sub := 0, payload := octets [128, 0, 2, 0] };
     rx.hOk = true ∧ rx.ok = true ∧ rx.cell.be 2 2 = 0x200 ∧ hostWord 0 0x200 = true ∧ (paired {}).isOn 7 = true) ∧
    (let rx := sound { typ := 0xB5, payload := octets [0, 3, 9] }; rx.hOk = true ∧ rx.ok = true) := by
  decide +kernel
theorem wit_TwinUnitsJoinMirrorAndSwitch_descriptors :
    (let s := paired { st := .active, partnerOk := true, partnerSt := 2 };
     ready s (.twinSwitch (desc 0)) = true ∧ (allCtxs.filter s.twinned).length = s.twin.pSynced ∧
      s.twin.switch = none ∧ s.portOn 4 = true ∧ s.silent = false) ∧
    (ready (paired {}) (.twinClaim (desc 0 254)) = true ∧ ready (paired {}) (.twinClaim (desc 0 255)) = true ∧
      (paired {}).twin.st = .off) ∧
    (ready (paired { st := .detached }) (.twinRejoin (desc 0)) = true ∧
      ready (paired { st := .active }) (.twinRejoin (desc 0)) = true) ∧
    (((paired { st := .active }).ring 0).nodes ≤ 254 ∧ ((paired { st := .active }).ring 1).nodes ≤ 254) := by
  decide +kernel

/-! ### Rings -/

/-- Ring B with both ports up; the registers' selection of it. -/
def ringB (r : Ring) : State :=
  { withRegs (cycling .active) [(LNK_PORT_CTL, 2, 1), (LNK_PORT_CTL, 3, 1), (RING_SEL, 0, 1), (RING_CTL, 1, 5)] with
    lnk := { ports := [(2, { lock := true, up := true }), (3, { lock := true, up := true })] }, rings := [(1, r)] }
theorem wit_RingsTakeInAndEnumerate_commands :
    (let s := ringB {};
     s.isOn 1 = true ∧ s.rf RING_SEL 0 0 0 = 1 ∧ (s.ring 1).st = .off ∧ s.linkUp 3 = true ∧
      bitOf (s.rg RING_CTL 1) 0 = true ∧ s.manages = true ∧ State.reset.linkUp 0 = false ∧ State.reset.linkUp 1 = false) ∧
    (let s := withRegs (ringB { st := .closed }) [(DISP_TPL_HDR_HI, 128, 0x80000000), (DISP_TPL_HDR_LO, 128, 0x01010000)];
     (s.ring 1).st = .closed ∧ s.ctxEn 128 = true ∧ s.farOf 128 = some (0, 4, 0)) ∧
    ((ringB { st := .intake }).ring 1).st = .intake ∧ ((ringB { st := .twoEnded }).ring 1).st = .twoEnded ∧
    (((ringB { st := .enum, probeDir := 1 }).ring 1).enumLeft = []) := by decide +kernel
/-- A JOIN of the contract, and the return of a probe. -/
def join_ : RxCell :=
  sound { typ := 0xA8, node := 255, sub := 0x10, payload := octets ([0, 0, 0, 1] ++ List.replicate 9 0 ++ [2, 0x12, 0x34]) }
theorem wit_RingsTakeInAndEnumerate_cells :
    (join_.hOk = true ∧ join_.ok = true ∧ join_.cell.oct 13 = 2 ∧ join_.cell.sub = 0x10 ∧
      (ringB { st := .intake }).portOn 3 = true) ∧
    (let y : Ring := { st := .intake, joins := [⟨1, 0, 0, 0, 0x1234⟩], admAt1 := some (1000500 - 49999) };
     (y.joins.any (fun j => j.nonce == BitVec.ofNat 16 (join_.cell.be 14 2))) = true ∧
      (1000500 - (1000500 - 49999 : W64)).toNat < 50000) ∧
    (let rx := sound { typ := 0xA8, node := 255, sub := 0x12, seq := 3, payload := octets [253, 1] }
     let y : Ring := { st := .enum, enumSeq := 3, probeDir := 1, nodes := 254, hop0 := some (1, false) };
     rx.hOk = true ∧ rx.ok = true ∧ rx.cell.seq = y.enumSeq ∧ rx.cell.oct 1 = y.probeDir ∧
      1 + rx.cell.oct 0 = y.nodes) := by decide +kernel
theorem wit_RingsMeasureBreakAndHeal :
    (let rx := sound { typ := 0xA8, node := 254, sub := 0x93 }
     let y : Ring := { st := .measure, echo := some ⟨254, 1000400, false, .measure⟩, echoLeft := [] };
     rx.hOk = true ∧ rx.ok = true ∧ rx.cell.sub = 0x93 ∧ rx.cell.node.toNat = 254 ∧
      ((ringB y).ring 1).echo = some ⟨254, 1000400, false, .measure⟩ ∧ (ringB y).portOn 2 = true) ∧
    (let rx := sound { typ := 0xA8, node := 255, sub := 0x14, payload := octets [3, 4] };
     rx.hOk = true ∧ rx.ok = true ∧ rx.cell.sub = 0x14 ∧
      ((ringB { locate := some ⟨7, some 3, none⟩ }).ring 1).locate = some ⟨7, some 3, none⟩) ∧
    (let s := ringB { st := .closed };
     (s.ring 1).markSeen = false ∧ s.cyc.running = true ∧ s.dirActive 2 = true ∧ (s.ring 1).unfold ≠ some s.cyc16 ∧
      s.manages = true ∧ (s.ring 1).locate = none) ∧
    (let s := ringB { st := .twoEnded, nodes := 254, max := 127, min := 128, gapSince := some 0 };
     (s.ring 1).st = .twoEnded ∧ (s.ring 1).nodes ≤ 254 ∧ (s.ring 1).unfold = none ∧
      bitOf (s.rg RING_CTL 1) 2 = true) := by decide +kernel

/-! ### The Brake Guard -/

/-- Near axis 7 is that of context 128, and both channels guard it. -/
def guarded (a b : Guard) (x : Seals := {}) : State :=
  let p (g : Guard) : Guard := { g with params := [(1, 1), (0x17, 0x00640101)] }
  { nearAxis [] with gA := p a, gB := p b, seals := x }
/-- A channel that runs; a zone demands; a latched switch; a request that was withdrawn. -/
theorem wit_BrakesReleaseOnlyOnBothGrants :
    (let s := guarded { st := .run } { st := .sealed };
     s.isOn 2 = true ∧ s.gA.writes = [] ∧ s.seals.sbt = none ∧ s.ctxOfNear 7 = 128 ∧
      bitOf (s.gA.par 0x17) 0 = true ∧ (s.gA.par 1) = 1 ∧ s.pwr.failed = false ∧ (s.ax 128).enabled = true ∧
      (s.ax 128).engage = false ∧ (s.gA.par 0x17).extractLsb' 8 8 &&& 0x01 ≠ 0) ∧
    (let s := guarded { st := .run } {} { sbt := some ⟨128, 1, 0, 0, none⟩ };
     ∀ t, s.seals.sbt = some t → (s.ax t.ctx).enabled = true ∧ (s.ax t.ctx).mode = .idle ∧ ¬ 2 ≤ t.step) ∧
    (({ writes := [⟨1, 1, true, none⟩] } : Guard).writes = [⟨1, 1, true, none⟩]) := by
  refine ⟨by decide +kernel, fun t h => ?_, by decide⟩
  cases Option.some.inj h
  decide +kernel
/-- Demands, switch states, pulses, the states of a channel, the seals and the test. -/
theorem wit_GuardInputsSwitchesAndModes :
    (let s := guarded { demand := 0x80 } {};
     s.gA.demand.getLsbD 7 = true ∧ s.gB.demand.getLsbD 7 = false ∧ s.gA.discrep.getLsbD 7 = false ∧
      s.isOn 2 = true) ∧
    (let g : Guard := { sw := [(7, { on := true }), (6, { on := true, pulse := some 1000000 })] };
     (g.swOf 7).on = true ∧ (g.swOf 7).conducts = true ∧ (g.swOf 0).conducts = false ∧ (g.swOf 7).pulse = none ∧
      (g.swOf 6).pulse = some 1000000) ∧
    (State.reset.gA.st = .selftest ∧ ({ st := .unconfirmed } : Guard).st = .unconfirmed ∧
      (guarded { st := .run } {} { a := true, b := true }).sealed_ = true) ∧
    (let s := guarded {} {} { sbt := some ⟨128, 3, 0, 0, none⟩ };
     s.seals.sbt = some ⟨128, 3, 0, 0, none⟩ ∧ State.reset.seals.sbt = none) ∧
    ({ locked := true, fails := [1, 2] } : Guard).fails = [1] ++ [2] ∧
    (State.reset.gA.par 0x24).toNat = 0 ∧ ({ params := [(0x24, 1)] } : Guard).par 0x24 ≠ 0 := by
  decide +kernel
/-- A guard descriptor with its CRC. -/
def guardDesc (op : BitVec 8) (t : Nat) (aux : W32) (l : List (Nat × Nat × Int)) : Desc :=
  let b := op.toNat / 16 == 9
  let d : Desc := { desc t aux l with sq := if b then 63 else 62 }
  let c := guardCrc b ((descBytes op d).take 62)
  { d with payload := d.payload ||| (c.setWidth 384 <<< 368) }
/-- Eight characters of a password. -/
def secret : Nat := 0x4847464544434241
set_option maxRecDepth 40000 in
theorem wit_GuardDescriptorsAreProtected_write :
    (let s := guarded { password := BitVec.ofNat 128 secret } {}
     let d := guardDesc 0x80 0x180 0 [(16, 8, secret), (32, 4, 0x00010001)];
     ready s (.gaWrite d) = true ∧ (before s (.gaWrite d)).gA.password = d.payload.extractLsb' 0 128 ∧
      (before s (.gaWrite d)).gA.locked = false ∧ (before s (.gaWrite d)).sealed_ = false ∧
      holdsPar false 0x180 = true ∧ parRange 0x180 0x00010001 = true ∧ s.gA.inomSum 0x180 0x00010001 ≤ 4000) ∧
    (let s := guarded {} { st := .unconfirmed, unconf := [0x10] }
     let d := guardDesc 0x90 0x20 0 [];
     ready s (.gbWrite d) = true ∧ holdsPar true 0x20 = false ∧ s.gB.password = 0 ∧ parRange 0x10 0xFFFFFFFF = false) ∧
    256 ≤ ({ log := List.replicate 255 0, writes := [⟨1, 1, false, none⟩] } : Guard).log.length + 1 ∧
    ({ locked := true } : Guard).locked = true := by decide +kernel
set_option maxRecDepth 40000 in
theorem wit_GuardDescriptorsAreProtected_rest :
    (let d := guardDesc 0x83 0 0 [(16, 8, secret), (32, 8, secret)];
     ready (guarded {} {}) (.gaPassword d) = true ∧ goodPassword (d.payload.extractLsb' 128 128) = true ∧
      goodPassword 0 = false) ∧
    ready (guarded {} {}) (.gaRead (guardDesc 0x81 0x24 0 [])) = true ∧
    ready (guarded { st := .unconfirmed } {}) (.gaConfirm (guardDesc 0x82 1 0 [])) = true ∧
    ready (guarded {} {}) (.gbFaultClear (guardDesc 0x94 128 0 [])) = true ∧
    ready (guarded {} {}) (.gbLogRead (guardDesc 0x96 0 255 [])) = true ∧
    ready (guarded { st := .safe } {}) (.gaReset (guardDesc 0x87 0 0 [])) = true ∧
    (let s := (((guarded { st := .run } {}).setDrawer 128 0x080 1).setDrawer 128 0x09C 1)
     ready s (.gaSbt (guardDesc 0x85 128 0 [])) = true ∧
      (before s (.gaSbt (guardDesc 0x85 128 0 []))).sbtOk 128 = true) := by decide +kernel

/-! ### The host interface -/

/-- Every ring kind with ring 63 (or 8) enabled, of 16 entries; polling; the host's buffers. -/
def hosted (h : HostSt) (l : List (Reg × Nat × W32) := []) : State :=
  { withRegs {} ([(HOST_CTL, 0, 5), (HOST_RING_CFG, ringSel 0 63, 0x3F0041), (HOST_RING_CFG, ringSel 1 63, 0x3F0041),
      (HOST_RING_CFG, ringSel 2 8, 0x41)] ++ l) with host := h }
/-- An entry of an event, and a buffer with 31 of them. -/
def event (code : BitVec 16) : CqEntry := { ty := .event, status := code, bt := 0 }
def fullBuf : List CqEntry := (List.range 31).map (fun i => event (BitVec.ofNat 16 (0x100 + i)))
theorem wit_EventsMergeAndCompletionsEnter :
    ((event 0x0110).ty = .event ∧ (event 0x0110).count = 1 ∧ (event 0x0110).occ = 1 ∧
      fullBuf = fullBuf.take 16 ++ event 0x0110 :: fullBuf.drop 17 ∧
      (∀ z ∈ fullBuf.take 16, ¬ (z.ty = .event ∧ z.status = 0x0110 ∧ z.src = 0))) ∧
    ((∀ z ∈ fullBuf, ¬ (z.ty = .event ∧ z.status = 0x0200 ∧ z.src = 0)) ∧
      (fullBuf.filter (fun x => x.ty == .event || x.ty == .item)).length = 31 ∧
      ((fullBuf.drop 1).filter (fun x => x.ty == .event || x.ty == .item)).length < 31 ∧
      (∀ z ∈ fullBuf, z.ty ≠ .summary)) ∧
    (let x : CqEntry := { ty := .summary, status := 0x0E03, bt := 0 };
     fullBuf ++ [x] = fullBuf ++ x :: [] ∧ x.ty = .summary ∧ x.status = 0x0E03 ∧ x.src = 0) ∧
    (255 < 256 ∧ (⟨0, 63, 0, 0, true, 0⟩ : Cmd).epoch = State.reset.host.epoch) := by decide +kernel
theorem wit_RingsAreSetUpPolledAndWritten_set :
    (let s := hosted {} [(HOST_RING_SEL, 0, 0x23F)];
     (s.rg HOST_RING_SEL).toNat / 256 = 2 ∧ (s.rg HOST_RING_SEL).toNat % 64 = 63) ∧
    (let s := hosted {} [(HOST_RING_SEL, 0, 0x13F)];
     (s.rg HOST_RING_SEL).toNat / 256 = 1 ∧ bitOf (s.rg HOST_RING_CFG 0x13F) 0 = true ∧
      s.ringEn 0 63 = true ∧ s.ringBind 0 63 = 63) ∧
    (let s := hosted {} [(HOST_RING_SEL, 0, 0x208)];
     (s.rg HOST_RING_SEL).toNat / 256 = 2 ∧ (s.rg HOST_RING_SEL).toNat % 64 < 9 ∧ s.ringEn 2 8 = true) ∧
    (bitOf (State.reset.rg HOST_RING_CFG 0) 0 = false ∧ bitOf (0x31 : W32) 0 = true ∧ bitsOf (0x31 : W32) 8 4 < 4 ∧
      16 < bitsOf (0x111 : W32) 8 4 ∧ bitsOf (0x101 : W32) 8 4 = 16) ∧
    bitOf (State.reset.rg HOST_CTL) 0 = false ∧ bitOf ((hosted {}).rg HOST_CTL) 0 = true := by decide +kernel
/-- A poll with one new descriptor of ring 63, an index that is taken and one that is not. -/
theorem wit_RingsAreSetUpPolledAndWritten_poll :
    (let s := hosted {} [(HOST_RING_CFG, ringSel 1 63, 0x3F0041)];
     s.isOn 1 = true ∧ s.ringEn 0 63 = true ∧ (∀ m, m < 63 → s.ringEn 0 m = false) ∧ s.ringSize 0 63 = 16 ∧
      (s.sq 63).head < 16 ∧ (s.sq 63).tail = (s.sq 63).head ∧ s.unapplied 63 < 8 ∧
      (s.cq (s.ringBind 0 63)).reserved < 224 ∧ s.mirrorOn = false ∧ s.host.queue = [] ∧
      fetchCheck 0 { sq := 63 } = none ∧ fetchCheck 1 { sq := 63 } = some 0x0103) ∧
    (let s := hosted { cqs := [(63, { buf := [event 7], tail := 15, head := 1, since := 2 })], msixEnable := true };
     (s.cq 63).buf = [event 7] ∧ s.ringEn 1 63 = true ∧ ((s.cq 63).tail + 1) % s.ringSize 1 63 ≠ (s.cq 63).head ∧
      (s.cq 63).since ≠ 0 ∧ (s.cq 0).since = 0 ∧ (s.cq 0).buf = []) ∧
    (let s := hosted { msixEnable := true, msixMask := 0x8000000000000000, msixPend := 0x8000000000000000 };
     s.host.msixEnable = true ∧ s.host.msixFMask = false ∧ s.host.msixPend.getLsbD 63 = true) := by
  decide +kernel
theorem wit_HostInterfaceResetsAndAnswers :
    (let s := { hosted { polling := true, aliveSeen := true } with axes := [(128, { enabled := true, mode := .vel }), (1, { enabled := true, mode := .ptp }), (2, {})] };
     s.isOn 19 = true ∧ s.isOn 1 = true ∧ bitOf (s.rg HOST_CTL) 2 = true ∧ s.host.lost = false ∧
      (s.ax 128).stop = .none ∧ s.grps = [] ∧ (s.ax 2).enabled = false ∧ bitOf (s.rg HOST_CTL) 1 = false ∧
      s.host.cqs = [] ∧ bitOf (State.reset.rg HOST_CTL) 2 = false) ∧
    (let s := hosted { cqs := [(63, { buf := [event 7] })] };
     (s.cq 63).buf = [event 7]) ∧
    (let s : State := { gA := { st := .sealed } };
     s.gA.st = .sealed ∧ ((0x7FFFFC : BitVec 24).toNat / 4 * 4 < 0x800000) ∧ s.isOn (7 + 7) = true ∧
      0x300000 ≤ (0x33FFFC : BitVec 24).toNat / 4 * 4 ∧ 0x800000 ≤ (0x800000 : BitVec 24).toNat / 4 * 4 ∧
      ({ pwr := { dom := [(14, { st := .off })] } } : State).isOn (7 + 7) = false ∧ State.reset.gA.st ≠ .sealed) ∧
    (State.reset.host.ready = false ∧ ({ ready := true } : HostSt).ready = true ∧
      ({ boot := { perstN := true } } : State).boot.perstN = true ∧ State.reset.isOn 19 = true) := by
  decide +kernel

/-! ### Parameters, firmware and cancels -/

/-- Context 128 has a library profile (0 to 2) or a user one (3). -/
def profiled (p : Nat) : State :=
  withRegs (cycling .active) [(DISP_TPL_HDR_HI, 128, BitVec.ofNat 32 (2 ^ 31 + p * 2 ^ 28))]
/-- A write of one word, of sixteen, past the last word, and of a value out of its range. -/
theorem wit_ParametersReadAndWriteOnlyTheirWords :
    (let d := fun (w n : Nat) => desc 128 (BitVec.ofNat 32 (w + n * 1024)) [(16, 3, 5)];
     ready (profiled 3) (.paramWrite (d 0x3D0 16)) = true ∧ (profiled 3).prof 128 = 3 ∧
      ready (profiled 3) (.paramWrite (d 0x3FF 2)) = true ∧ ready (profiled 3) (.paramWrite (d 0x3E0 1)) = true ∧
      ready (profiled 3) (.paramWrite { d 0 17 with payload := 0 }) = true ∧
      ready (profiled 3) (.paramWrite { d 0 0 with payload := 0 }) = true ∧
      ready (profiled 2) (.paramWrite (d 0x200 3)) = true ∧ (profiled 2).prof 128 = 2 ∧
      (profiled 3).isOn 7 = true ∧ (profiled 3).resident 128 = none) ∧
    (hostWord 3 0x3DF = true ∧ hostWord 3 0x3E0 = false ∧ hostWord 2 0x200 = true ∧
      (NewDrw.mk (profiled 2) 128 0x200 [0, 0, 0]).bad ≠ [] ∧
      (NewDrw.mk (profiled 2) 128 0x09D [1000]).bad = [] ∧ (NewDrw.mk (profiled 2) 128 0x09D [1001]).bad ≠ []) ∧
    (ready (profiled 3) (.paramRead (desc 128 (0x3FB + 5 * 1024))) = true ∧
      ready (profiled 3) (.paramRead (desc 128 (6 * 1024))) = true ∧
      ready (profiled 3) (.paramRead (desc 128 (0x3FC + 5 * 1024))) = true ∧ ready (profiled 3) (.nop (desc 0)) = true) := by
  decide +kernel
/-- The last words that fit, a running check, and a context with a stage in the user region. -/
theorem wit_FirmwareAndLoopProgramsAreMaintained :
    (48 * (40959 : Nat) + 48 ≤ 0x1E0000 ∧ 0x1E0000 < 48 * (40960 : Nat) + 48 ∧
      ready State.reset (.fwWrite (desc 0 40959)) = true ∧ ready State.reset (.fwWrite (desc 0 40960)) = true ∧
      ready State.reset (.fwVerify (desc 0)) = true ∧
      ready { fw := { verifying := some none } } (.fwActivate (desc 0)) = true ∧
      ready { fw := { verified := true } } (.fwActivate (desc 0)) = true ∧
      ready { boot := { st := .recovery } } (.fwInfo (desc 0)) = true) ∧
    (ready State.reset (.lpLoad (desc 0 0xFBA)) = true ∧ ready State.reset (.lpLoad (desc 0 0xFBB)) = true ∧
      ready State.reset (.lpCommit (desc 0 1)) = true ∧ State.reset.twin.st = .off) ∧
    (let s := withRegs (profiled 3) [(DISP_TPL_ST_HI 0, 128, 0xFDF80000)];
     s.ctxEn 128 = true ∧ 0 < s.nst 128 ∧ (stwEntry (s.stw 128 0)).toNat = 0x1FBF) := by decide +kernel
/-- A run whose last stage waits, with and without ROC, on a waived external token. -/
theorem wit_CancelledRunsAreResolved :
    (let s := { withRegs (profiled 3) [(DISP_TPL_ST_LO 15, 128, 0x48000)] with
      runs := [(128, some { stages := [(15, some { cnt := 1 }), (0, some { st := .running })] })] };
     ready s (.ctxCancel (desc 128)) = true ∧ ((before s (.ctxCancel (desc 128))).run 128).isSome = true ∧
      stwRoc (s.stw 128 15) = true ∧ stwTok (s.stw 128 15) ≠ 0 ∧ s.stage? 128 15 = some { cnt := 1 } ∧
      stwRoc (s.stw 128 0) = false) ∧
    (ready (profiled 3) (.ctxCancel (desc 128)) = true ∧
      (before (profiled 3) (.ctxCancel (desc 128))).run 128 = none) := by decide +kernel

/-! ### Acquisition and the recorder -/

/-- The example of chapter 16: a crossing of LVL 0x066666 between 0x051EB8 and 0x0851EC has SFRAC 102. -/
theorem test_sfrac :
    (max 0 (min 255 (Int.fdiv (256 * (0x066666 - 0x051EB8)) (0x0851EC - 0x051EB8)))).toNat = 102 ∧
    sfracOf 0x066666 0x051EB8 0x0851EC = 102 := by decide +kernel

/-- Unit 7 is FAST with one channel of GI0, and its context is enabled; its ring is on. -/
def unit7 (x : AcqU) (l : List (Reg × Nat × W32) := []) : State :=
  { withRegs (cycling .active) ([(ACQ_CFG, 7, 0x10001), (ACQ_CH 0, 7, 0x51000000), (DISP_TPL_HDR_HI, 168, 0x80000000),
      (HOST_RING_CFG, ringSel 2 7, 0x41)] ++ l) with acqs := [(7, x)] }
theorem wit_AcquisitionStreamsRowsAndFires_descriptors :
    (ready (unit7 {}) (.acqStart (desc 168)) = true ∧ (unit7 {}).ctxEn 168 = true ∧
      ready (unit7 { st := .run }) (.acqStart (desc 168)) = true ∧ (unit7 {}).ringEn 2 7 = true ∧
      (((unit7 {}).strm 7).tail + 1) % (unit7 {}).ringSize 2 7 ≠ ((unit7 {}).strm 7).head) ∧
    (ready (unit7 { st := .run }) (.acqStop (desc 168)) = true ∧ ready (unit7 {}) (.acqStop (desc 168)) = true) ∧
    (ready (unit7 { st := .run }) (.acqArm (desc 168 1)) = true ∧ (unit7 {}).rf ACQ_GRP 7 7 0 = 0 ∧
      ready (unit7 { st := .armed }) (.acqDisarm (desc 168)) = true ∧
      (let s := unit7 { st := .run } [(ACQ_GRP, 0, 0x80)];
       (s.rf ACQ_GRP 0 7 0).testBit 7 = true ∧ s.rf ACQ_GRP 7 7 0 = 0)) ∧
    (ready (unit7 { st := .armed }) (.acqForce (desc 168)) = true ∧
      bitOf ((unit7 {} [(ACQ_TRIG_CTL, 7, 0x20)]).rg ACQ_TRIG_CTL 7) 5 = true ∧
      ready (unit7 { st := .armed, holdoff := 1 }) (.acqForce (desc 168)) = true) := by decide +kernel
theorem wit_AcquisitionStreamsRowsAndFires_rows :
    (let s := unit7 { st := .run };
     s.acqFast 7 = true ∧ s.isOn 20 = true ∧ (s.acq 7).lastRow.toNat + 2 ^ 16 < 2 ^ 64 ∧ s.decLanes 7 = [] ∧
      s.fullLanes 7 = [0] ∧ s.channels 7 = [0]) ∧
    (let s := unit7 { st := .armed, prev := some { at_ := 0 } } [(ACQ_TRIG_CTL, 7, 1), (ACQ_PAT_CARE, 7, 1), (ACQ_PAT_VAL, 7, 1)];
     (s.acq 7).st = .armed ∧ (s.acq 7).holdoff ≤ 1 ∧ s.rf ACQ_TRIG_CTL 7 2 0 = 1 ∧
      bitOf (s.rg ACQ_PAT_CARE 7) 0 = true ∧ (s.acq 7).patWas = false ∧ s.rf ACQ_GRP 0 7 0 = 0) ∧
    (let s := unit7 { st := .armed, prev := some { at_ := 0 }, lt0 := { up := true } } [(ACQ_TRIG_CTL, 7, 2)];
     s.rf ACQ_TRIG_CTL 7 2 0 = 2 ∧ s.rf ACQ_LT0 7 9 8 = 1 ∧ (s.acq 7).fresh = false ∧ s.rf ACQ_LT0 7 4 0 ∈ s.channels 7 ∧
      (s.acq 7).lt0.up = true) ∧
    (let s := unit7 { st := .armed, outside := [⟨1, 16, 7, 0, 0xFF, 0xFFFF⟩] } [(ACQ_GRP, 0, 0x80)];
     (s.rf ACQ_GRP 0 7 0).testBit 7 = true ∧ (s.acq 7).outside = [⟨1, 16, 7, 0, 0xFF, 0xFFFF⟩]) ∧
    (let s : State := { trig := { low := some 5 } };
     s.trig.low = some 5 ∧ State.reset.trig.low = none ∧
      bitOf ((unit7 {} [(ACQ_TRIG_CTL, 7, 0x10)]).rg ACQ_TRIG_CTL 7) 4 = true) ∧
    (let s := { unit7 {} with streams := [(7, { page := [⟨32, 0, 0⟩] })] };
     (s.strm 7).page ≠ [] ∧ s.ringEn 2 7 = true ∧ ((s.strm 7).tail + 1) % s.ringSize 2 7 ≠ (s.strm 7).head) := by
  decide +kernel

/-- The recorder, with a journal entry of page 47, SEQ 9. -/
def recorder (r : RecSt) (b : Boot := {}) : State := { recd := r, boot := b }
def entry9 (m : W32 := 5) : JEntry := { seq := 9, cause := 4, pages := [47], images := [[(0, 1), (4095, 2)]], minutes := m }
theorem wit_RecorderFlushesAndRecovers_flush :
    (State.reset.isOn 1 = true ∧ ready (recorder {}) (.recFlush (desc 0)) = true ∧ (recorder {}).recd.flush = none) ∧
    (let s := recorder { recovered := true, held := some ⟨2, []⟩, lastFault := some 0 };
     s.cyc.running = false ∧ s.recd.refreshPages = none ∧ s.recd.held = some ⟨2, []⟩ ∧ (s.bt - 0).toNat < 1000000000 ∧
      (recorder { recovered := true, held := some ⟨5, []⟩ }).recd.held = some ⟨5, []⟩) ∧
    (let f : Flush := ⟨5, 1, List.range 16, List.replicate 16 [], 0, []⟩
     let s := recorder { flush := some f, dirty := [47] };
     s.recd.flush = some f ∧ f.pages.length ≤ 16 ∧ s.pwr.failed = false ∧ s.recd.dirty ≠ [] ∧
      s.recd.chest0.retired + 64 ≤ 64) ∧
    ({ pwr := { failed := true } } : State).pwr.failed = true := by decide +kernel
theorem wit_RecorderFlushesAndRecovers_rest :
    ((recorder {} { resetN := true }).boot.resetN = true ∧ (recorder {} { resetN := true, heldSec := 10 }).boot.heldSec ≠ 0) ∧
    (let s := recorder { chest0 := { journal := [entry9] }, chest1 := { journal := [entry9 6] } } { st := .running };
     s.recd.recovered = false ∧ s.boot.st = .running ∧ s.recd.held = none ∧ s.recd.chest0.failed = false ∧
      s.recd.chest0.retired ≤ 64 ∧ (entry9).images.length = (entry9).pages.length ∧
      twf (0 : Byte) [(0, 1), (4095, 2)] = true ∧ (entry9).committed = true) ∧
    (recorder {} { causes := [0] }).boot.causes = [0] ∧
    (let s := (recorder { recovered := true }).setCabWord (0x300000 + 288) 1;
     s.recd.recovered = true ∧ s.cabWord (0x300000 + 288) ≠ 0) ∧
    (ready (recorder {}) (.recRead (desc 0 0x23FFF)) = true ∧ ready (recorder {}) (.recRead (desc 0 0x3FFF)) = true ∧
      bitsOf (desc 0 0x23FFF).aux 17 16 = 1 + 1) ∧
    (State.reset.pwr.counting = false ∧ ({ pwr := { vin := 18000 } } : State).pwr.counting = true ∧
      ({ pwr := { vin := 32001 } } : State).pwr.counting = false) ∧
    (1 ≤ 128 ∧ (0 : Rat) < 1 ∧ (0 : Rat) ≤ 0) := by decide +kernel

/-! ### Power domains and supplies -/

/-- Domain `d` is in state `x`, with further domains, and context 255 has a template header. -/
def domain (d : Nat) (x : Dom) (c : Cyc := {}) (h : W32 := 0) (l : List (Nat × Dom) := []) : State :=
  withRegs { cyc := c, pwr := { dom := l ++ [(d, x)] } } [(DISP_TPL_HDR_HI, 255, h)]
/-- PWR_SET of a domain to a state. -/
def pwrTo (k st : Nat) : Desc := desc 0 (BitVec.ofNat 32 (k + st * 256))
theorem wit_PowerDomainsMoveAsAsked_pwrSet :
    (ready State.reset (.pwrSet (pwrTo 2 1)) = true ∧ ready State.reset (.pwrSet (pwrTo 23 0)) = true ∧ ready State.reset (.pwrSet (pwrTo 7 3)) = true ∧
      ready State.reset (.pwrSet (pwrTo 6 3)) = true ∧ ready State.reset (.pwrSet (pwrTo 14 3)) = true) ∧
    (ready (domain 3 {}) (.pwrSet (pwrTo 3 0)) = true ∧ ready (domain 22 { st := .ret }) (.pwrSet (pwrTo 22 0)) = true ∧
      ready (domain 22 { st := .off }) (.pwrSet (pwrTo 22 0)) = true ∧ ready (domain 22 { st := .entering }) (.pwrSet (pwrTo 22 0)) = true ∧
      ((domain 22 { st := .ret }).dom 22).st = .ret) ∧
    -- each condition of R715, and none of them
    ((domain 3 {} {} 0x80000800).domRefused 3 = some 1 ∧ (domain 6 {} {} 0x800015C0).domRefused 6 = some 1 ∧
      (domain 6 {} {} 0x80020000 [(3, ⟨.off, .off, false, [], none, [], [], true, true, true, 0, false, 0, 0⟩),
        (4, { hostOwned := true, down := true }), (5, { hostOwned := true, down := true })]).domRefused 6 = some 2 ∧
      (domain 7 {} {} 0x80000000).domRefused 7 = some 3 ∧
      ({ axes := [(128, { mode := .cam })] } : State).domRefused 8 = some 4 ∧
      ({ cams := [(63, { computing := true })] } : State).domRefused 9 = some 4 ∧ State.reset.domRefused 10 = some 5 ∧
      ({ rings := [(1, { st := .closed })] } : State).domRefused 16 = some 6 ∧
      ({ twin := { st := .detached } } : State).domRefused 17 = some 7 ∧
      (withRegs {} [(TIME_CTL, 0, 1)]).domRefused 18 = some 8 ∧ (withRegs {} [(HOST_CTL, 0, 4)]).domRefused 19 = some 9 ∧
      ({ acqs := [(7, { st := .armed })] } : State).domRefused 20 = some 10 ∧
      ({ pwms := [(7, { st := .fault })] } : State).domRefused 21 = some 11 ∧
      (nearAxis []).domRefused 22 = some 12 ∧ (withRegs {} [(EVT_GO_OWN, 0, 0x8000)]).domRefused 22 = some 12) ∧
    (State.reset.domRefused 3 = none ∧ State.reset.domRefused 22 = none ∧ State.reset.domRefused 11 = none ∧
      ready (domain 22 { st := .ret }) (.pwrSet (pwrTo 22 2)) = true ∧ ready (domain 22 { st := .waking }) (.pwrSet (pwrTo 22 1)) = true ∧
      (domain 22 { st := .waking }).domRefused 22 = none) := by decide +kernel
theorem wit_PowerDomainsMoveAsAsked_transitions :
    (let s := domain 6 { st := .entering } { running := true, phase := .sill } 0x80000000;
     s.cyc.running = true ∧ s.cyc.phase = .sill ∧ s.disp.retain = [] ∧ (s.dom 6).st = .entering ∧
      (s.dom 6).begun = false ∧ s.ctxEn 255 = true ∧ hdrPin (s.hdr 255) = 0 ∧ hdrKeep (s.hdr 255) = 0 ∧
      s.isOn 3 = true ∧ (List.range 23).all (fun e => e == 6 || (s.dom e).st != .entering) = true) ∧
    ((cycling .active).cyc.running = true ∧ (cycling .active).cyc.phase ≠ .sill) ∧
    (let s := domain 14 { idle := 0xFFFF } { running := true, phase := .sill };
     s.rf PWR_CAB_IDLE 0 15 0 ≤ (s.dom 14).idle ∧ (s.dom 14).hostOwned = false ∧ (s.dom 14).st = .on) ∧
    ((domain 14 { begun := true }).dom 14).st ≠ .entering ∧
    (let x : Dom := { st := .entering, tgt := .off, begun := true };
     ((domain 22 x).dom 22) = x ∧ x.latched = none ∧
      ((domain 22 { x with latched := some .on }).dom 22).latched = some .on ∧
      ((domain 22 { x with latched := some .ret }).dom 22).latched = some .ret ∧
      ((domain 22 { x with latched := some .off }).dom 22).latched = some .off) ∧
    (bitOf (State.reset.rg PWR_WAKE) 5 = false ∧
      bitOf ((withRegs (domain 20 { st := .off }) [(PWR_WAKE, 0, 0x20)]).rg PWR_WAKE) 5 = true ∧
      ((withRegs (domain 20 { st := .off }) [(PWR_WAKE, 0, 0x20)]).dom 20).st ≠ .on) ∧
    (let x : Dom := { st := .waking };
     ((domain 6 x).dom 6).st = .waking ∧ ((domain 6 x).dom 6).latched = none ∧
      ((0xFFF : BitVec 12) &&& 0xFFF).getLsbD (6 + 23 % 6) = true ∧ ((1 : BitVec 12) &&& 1) ≠ 0 ∧
      ((domain 9 x).dom 9).st = .waking ∧ ((domain 14 x).dom 14).st = .waking ∧ (63 : Nat) / 32 + 8 = 9 ∧
      (domain 14 x { running := true }).cyc.running = true) ∧
    (let x : Dom := { st := .leavingOff };
     ((domain 6 x).dom 6).st = .leavingOff ∧ ((domain 21 x).dom 21).latched = none ∧
      ((domain 14 x).dom 14).st = .leavingOff ∧ ((domain 22 x).dom 22).st ≠ .waking ∧
      State.reset.fw.lpMram.all (fun p => decide (p.1 < 4096)) = true) := by decide +kernel

theorem wit_SuppliesPostAndPowerFailureHolds :
    (State.reset.isOn 1 = true ∧ (domain 1 { st := .off }).isOn 1 = false) ∧
    (let s := nearAxis [];
     s.isOn 1 = true ∧ s.nearOf 128 = some 7 ∧ (1 : Fin 4).val = 7 / 4 ∧ s.boot.resetN = false) ∧
    ({ pwr := { failed := true } } : State).pwr.failed = true ∧
    (let s : State := { recd := { recovered := true, flush := some ⟨1, 9, [], [], 0, []⟩ }
                        pwms := [(7, { st := .run })], regs := State.reset.regs };
     s.pwr.failed = false ∧ s.isOn 1 = true ∧ s.recd.recovered = true ∧ s.recd.flush.isSome = true ∧
      (s.pwm 7).st = .run ∧ ((withRegs s [(PWM_FLT_MAP3, 0, 0x80)]).rg PWM_FLT_MAP3).getLsbD 7 = true) ∧
    (State.reset.recd.recovered = false ∧ State.reset.recd.flush = none) ∧
    (State.reset.pwr.hold = false ∧ ({ pwr := { hold := true } } : State).pwr.hold = true) := by decide +kernel

/-! ### Resets and start-up -/

/-- A block whose domains are off. -/
def asleep (b : Boot) (p : Pwr := {}) : State := { boot := b, pwr := { p with dom := [(1, { st := .off })] } }
theorem wit_ResetsKeepWhatTheyKeep_resets :
    (({ boot := { resetN := true } } : State).boot.resetN = true ∧ (asleep {}).isOn 1 = false ∧
      (asleep {}).boot.resetN = false) ∧
    (let f : Flush := ⟨3, 9, [47], [[]], 0, []⟩
     let s : State := { recd := { flush := some f } };
     s.boot.resetN = false ∧ s.isOn 1 = true ∧ s.pwr.failed = false ∧ s.recd.flush = some f ∧
      State.reset.recd.flush = none) ∧
    ((asleep {} { hold := true }).pwr.hold = true ∧ (asleep {} { vioFail := 8 }).pwr.vioFail.getLsbD 3 = true ∧
      (asleep {}).pwr.hold = false ∧ (asleep {}).pwr.failed = false ∧ (asleep {}).pwr.vioFail.getLsbD 3 = false) ∧
    (let cold : W32 := 0x5A02
     let core : W32 := 0x5A01;
     bitsOf cold 15 8 = 0x5A ∧ bitOf cold 0 = false ∧ bitOf cold 1 = true ∧ bitsOf core 15 8 = 0x5A ∧
      bitOf core 0 = true ∧ bitOf core 1 = false ∧ bitOf (0x5A03 : W32) 0 = bitOf (0x5A03 : W32) 1) ∧
    (let s : State := { boot := { wdCount := 1 } };
     s.isOn 1 = true ∧ s.pwr.failed = false ∧ s.host.ready = false ∧ s.boot.perstN = true ∧ 1 ≤ s.boot.wdCount ∧
      State.reset.boot.wdCount = 0 ∧ ({ boot := { perstN := false } } : State).boot.perstN = false) := by
  decide +kernel
/-- The image that NEXT names passes, is skipped, or fails; both fail; a core reset. -/
theorem wit_ResetsKeepWhatTheyKeep_start :
    (let s : State := { fw := { lpMram := [(0, 1), (4095, 2)] } }
     let ok (a b n : Bool) : Bool := if n then b else a;
     s.boot.st = .released ∧ s.isOn 1 = true ∧ s.boot.coreReset = false ∧ s.boot.skip = false ∧
      ok true false s.fw.next = true ∧ ok false true s.fw.next = false ∧ ok false true (!s.fw.next) = true ∧
      ok false false true = false ∧ s.fw.lpMram.all (fun p => decide (p.1 < 4096)) = true) ∧
    (({ boot := { skip := true } } : State).boot.skip = true ∧
      ({ boot := { coreReset := true } } : State).boot.st = .released ∧
      ({ boot := { st := .checked } } : State).boot.st ≠ .released) ∧
    (let s (c : Nat) : State := { boot := { st := .checked, cause := c } };
     (s 3).host.ready = false ∧ (s 3).boot.perstN = true ∧ (s 3).boot.st = .checked ∧ (s 3).pwr.failed = false ∧
      (s 3).boot.cause = 3 ∧ (s 4).boot.cause ≠ 3 ∧ State.reset.boot.st = .released ∧
      ({ boot := { st := .recovery } } : State).boot.st = .recovery) ∧
    (State.reset.boot.perstN = true ∧ ({ boot := { perstN := false } } : State).boot.perstN = false) := by
  decide +kernel

/-! ### Staging and registers -/

/-- Block 4 (DISP) and block 8 (PWM) are in a state of staging, and AFF_WAIT is staged. -/
def staged (st : StageState) (v : W32 := 300) (c : Cyc := {}) : State :=
  { cyc := c, blks := [(4, { state := st }), (8, { state := st })], stage := tset 0 [] (regKey DISP_AFF 0) v }
theorem wit_RegistersStageCommitAndClear_writes :
    ((domain 1 { st := .off }).isOn 1 = false ∧ State.reset.isOn 1 = true) ∧
    (blockOf 0x0FFFFC = none ∧ (0x10082 : Nat) % 4 ≠ 0 ∧ blockOf 0x20 = some 0 ∧ findReg 0x20 = some SYS_SCRATCH ∧
      SYS_SCRATCH.acc = .rw ∧ State.reset.selExists SYS_SCRATCH = true) ∧
    (findReg 0x4 = some SYS_REV ∧ SYS_REV.acc = .ro ∧ findReg 0x3C = none ∧ findReg 0x4050 = some PWR_REFUSED_CNT ∧
      PWR_REFUSED_CNT.acc = .rc ∧ findReg 0x14 = some SYS_RST_CAUSE ∧ SYS_RST_CAUSE.acc = .hw) ∧
    (blockOf 0x10F00 = some 4 ∧ findReg 0x10700 = none ∧ blockOf 0x11004 = some 4 ∧ 0x1000 ≤ 0x11004 - blockBase 4) ∧
    -- the active and the stage offset of an ST register, its block open and not
    (blockOf 0x10080 = some 4 ∧ blockOf 0x10880 = some 4 ∧ findReg 0x10080 = some DISP_AFF ∧ DISP_AFF.acc = .st ∧
      (staged .pending).selExists DISP_AFF = true ∧ ((staged .pending).blk 4).state = .pending ∧
      ((staged .checked).blk 4).state = .checked ∧ ((staged .failed).blk 4).state = .failed ∧
      (State.reset.blk 17).state ≠ .pending) ∧
    (findReg 0x24038 = some PWM_FLT_MAP2 ∧ PWM_FLT_MAP2.acc = .st ∧ PWM_FLT_MAP2.mask = 0xFFFFFFFF) ∧
    (findReg 0x4054 = some PWR_ACC_OFF ∧ PWR_ACC_OFF.acc = .rc ∧ State.reset.selExists PWR_ACC_OFF = true ∧
      blockOf 0x4054 = some 1 ∧ (0x100C : Nat) = blockBase 0 + 0x100C ∧ (0x6100C : Nat) ≠ blockBase 16 + 0x100C) := by
  decide +kernel
theorem wit_RegistersStageCommitAndClear_commits :
    ((staged .failed).differs 4 = true ∧ (staged .failed 0xC8).differs 8 = false ∧
      bitOf (1 : W32) 0 = true ∧ bitOf (2 : W32) 0 = false ∧ findReg DISP_AFF.addr = some DISP_AFF) ∧
    ((staged .pending 300 { running := true }).cyc.running = true ∧
      (let s := staged .pending;
       s.cyc.running = false ∧ tsorted s.stage = true ∧
        (List.range 18).all (fun b => (s.blk b).state != .checked) = true ∧
        (List.range 18).filter (fun b => decide ((s.blk b).state = .pending)) = [4, 8] ∧
        (List.range 18).filter (fun b => decide ((State.reset.blk b).state = .pending)) = [])) ∧
    ((offending (staged .pending 300) ((staged .pending 300).applied [4, 8]) [4, 8]) = none ∧
      (offending (staged .pending 1001) ((staged .pending 1001).applied [4, 8]) [4, 8]).isSome = true ∧
      ([4, 8].foldl (fun u b => u.setBlk b (u.blk b).pass) (staged .pending)).needed [4, 8] = []) ∧
    (bitOf (0x8000 : W32) 15 = true ∧ (domain 22 { st := .off }).isOn 22 = false ∧ State.reset.isOn 22 = true ∧
      (15 : Fin 16).val + 16 = 31) := by decide +kernel

end Sys2Proof.Tests
end

namespace Sys2Proof.Machine

/-! ## Commands that complete -/

/-- A command with a next state in which `P` holds. -/
theorem Runs.of_next {c : Instr} {s t : State} {P : State → Prop} (h : exec c s = .next t) (hP : P t) :
    Runs c s P := ⟨t, h, hP⟩

/-- The same, the next state being rewritten. -/
theorem Runs.of_eq {c : Instr} {s u t : State} {P : State → Prop} (h : exec c s = .next u) (e : u = t)
    (hP : P t) : Runs c s P := ⟨t, e ▸ h, hP⟩

/-! ## Registers -/

theorem SameRegsBut.refl (s : State) (ks : List Nat) : SameRegsBut s s ks := fun _ _ _ => rfl

theorem SameRegsBut.trans {s t u : State} {ks : List Nat} (h : SameRegsBut s t ks) (h' : SameRegsBut t u ks) :
    SameRegsBut s u ks := fun q j hq => (h' q j hq).trans (h q j hq)

/-- States with the same register table have the same registers. -/
theorem SameRegsBut.of_regs {s t : State} (h : t.regs = s.regs) (ks : List Nat) : SameRegsBut s t ks :=
  fun q j _ => by simp [State.rg, h]

/-- A write of a listed register changes no other. -/
theorem SameRegsBut.setRg {s t : State} {ks : List Nat} (h : SameRegsBut s t ks) {r : Reg} {k : Nat} (v : W32)
    (hk : regKey r k ∈ ks) : SameRegsBut s (t.setRg r k v) ks := fun q j hq =>
  (tget_tset_other q.reset r.reset t.regs v (ne_of_mem_of_not_mem hk hq).symm).trans (h q j hq)

theorem sameRegsBut_setRg (s : State) (r : Reg) (k : Nat) (v : W32) :
    SameRegsBut s (s.setRg r k v) [regKey r k] := (SameRegsBut.refl s _).setRg v (List.mem_singleton_self _)

/-! ## BT32 stamps (R8) -/

/-- R8: the distance from `b` to `a`, modulo 2^32, is positive and below 2^31. -/
theorem bt32After_iff (a b : W32) : bt32After a b = true ↔
    1 ≤ (a.toNat + 2 ^ 32 - b.toNat) % 2 ^ 32 ∧ (a.toNat + 2 ^ 32 - b.toNat) % 2 ^ 32 ≤ 2 ^ 31 - 1 := by
  have hd : (a - b).toNat = (a.toNat + 2 ^ 32 - b.toNat) % 2 ^ 32 := by
    rw [BitVec.toNat_sub]
    congr 1
    have := b.isLt
    omega
  simp only [bt32After, hd, Bool.and_eq_true, decide_eq_true_eq]

/-- Of two distances that add up to 2^32, one alone lies below 2^31. -/
theorem bt32After_asymm {a b : W32} (h : bt32After a b = true) : bt32After b a = false := by
  rw [← Bool.not_eq_true, bt32After_iff]
  rw [bt32After_iff] at h
  have ha := a.isLt
  have hb := b.isLt
  omega

/-- The distance of two instants is kept modulo 2^32 by their stamps, wherever BT32 wraps. -/
theorem bt32After_of_lt {t u : W64} (h : t.toNat < u.toNat) (hd : u.toNat - t.toNat < 2 ^ 31) :
    bt32After (u.setWidth 32) (t.setWidth 32) = true := by
  rw [bt32After_iff, BitVec.toNat_setWidth, BitVec.toNat_setWidth]
  omega

/-- Settles O8. -/
theorem stampsOrderAcrossTheWrap : Obligations.StampsOrderAcrossTheWrap :=
  ⟨bt32After_iff, fun _ _ => bt32After_asymm, fun _ _ => bt32After_of_lt⟩

/-! ## What an event and a drawer word leave as they are -/

/-- The states differ at most in the registers, the host interface, the cabinet, the recorder, the power
domains and the engines: all that posting an event or writing a drawer word reaches. -/
def Noted (s t : State) : Prop :=
  t = { s with regs := t.regs, host := t.host, cab := t.cab, recd := t.recd, pwr := t.pwr, engs := t.engs }

theorem Noted.trans {s t u : State} (h : Noted s t) (h' : Noted t u) : Noted s u := by
  unfold Noted at *
  rw [h', h]

theorem Noted.ite {s t u : State} {c : Prop} [Decidable c] (h : Noted s t) (h' : Noted s u) :
    Noted s (if c then t else u) := by
  split
  · exact h
  · exact h'

theorem Noted.ax {s t : State} (h : Noted s t) (c : Nat) : t.ax c = s.ax c := by
  rw [h]
  rfl

theorem Noted.fbs {s t : State} (h : Noted s t) : t.fbs = s.fbs := by rw [h]
theorem Noted.stage {s t : State} (h : Noted s t) : t.stage = s.stage := by rw [h]
theorem Noted.blks {s t : State} (h : Noted s t) : t.blks = s.blks := by rw [h]

theorem noted_markDirty (s : State) (a : Nat) : Noted s (s.markDirty a) := by
  unfold State.markDirty
  split
  · exact .ite rfl rfl
  · rfl

theorem noted_setCabByte (s : State) (a : Nat) (v : Byte) : Noted s (s.setCabByte a v) :=
  .ite rfl (.trans (t := { s with cab := tset 0 s.cab a v }) rfl (noted_markDirty _ _))

theorem noted_setCabWord (s : State) (a : Nat) (v : W32) : Noted s (s.setCabWord a v) :=
  (((noted_setCabByte _ _ _).trans (noted_setCabByte _ _ _)).trans (noted_setCabByte _ _ _)).trans
    (noted_setCabByte _ _ _)

theorem noted_recBump (s : State) (off : Nat) : Noted s (s.recBump off) := noted_setCabWord _ _ _

theorem noted_askFlush (s : State) (cause : Nat) (cmds : List Cmd) : Noted s (s.askFlush cause cmds) := by
  unfold State.askFlush
  split <;> rfl

theorem noted_logEvent (s : State) (code : BitVec 16) (src : Nat) (sev : Sev) (pay : Payload) :
    Noted s (s.logEvent code src sev pay) :=
  (((((noted_setCabWord _ _ _).trans (noted_setCabWord _ _ _)).trans (noted_setCabWord _ _ _)).trans
    (noted_setCabWord _ _ _)).trans (noted_setCabWord _ _ _)).trans (noted_recBump _ _)

theorem noted_postEntry (s : State) (n : Nat) (e : CqEntry) : Noted s (s.postEntry n e) :=
  .ite rfl (.ite rfl (.ite rfl rfl))

/-- An event reaches the host's buffers and counters, the cabinet and the recorder (R633, R756 to R758). -/
theorem noted_post (s : State) (code : BitVec 16) (sev : Sev) (src : Nat) (pay : Payload) :
    Noted s (s.post code sev src pay) := by
  unfold State.post
  extract_lets p cls hi e s1 s2 s3 s4
  have h1 : Noted s s1 := noted_postEntry _ _ _
  have h2 : Noted s s2 := h1.trans (noted_recBump _ _)
  have h3 : Noted s s3 := .ite (h2.trans (noted_recBump _ _)) h2
  have h4 : Noted s s4 := .ite (h3.trans (noted_logEvent _ _ _ _ _)) h3
  exact .ite (h4.trans (noted_askFlush _ _ _)) h4

theorem noted_wakeDom (s : State) (d : Nat) (cmds : List (Option Cmd)) : Noted s (s.wakeDom d cmds) := by
  unfold State.wakeDom
  dsimp only
  split <;> rfl

theorem noted_touchBank (s : State) (a : Nat) : Noted s (s.touchBank a) := by
  unfold State.touchBank
  extract_lets d x s1 s2
  have h1 : Noted s s1 := rfl
  have h2 : Noted s s2 := .ite h1 (h1.trans (.trans (t := s1.setDom d { x with accPosted := true }) rfl
    (noted_post _ _ _ _ _)))
  exact .ite rfl (.ite (h2.trans (noted_wakeDom _ _ _)) h2)

/-- A drawer word lies in an engine or in the cabinet, whose bank may wake for it (R64, R718). -/
theorem noted_setDrawer (s : State) (c w : Nat) (v : W24) : Noted s (s.setDrawer c w v) := by
  unfold State.setDrawer
  split
  · rfl
  · exact .ite (noted_setCabWord _ _ _) (noted_touchBank _ _)

/-! ## Feedback registers (R256, R257, R260, R263) -/

/-- HOMED of an axis changes no other axis. -/
theorem setHomed_ax (s : State) (c : Nat) (b : Bool) (d : Nat) :
    (s.setHomed c b).ax d = if d = c then { s.ax c with homed := b } else s.ax d := by
  have h : (s.setHomed c b).ax d = (s.setAx c { s.ax c with homed := b }).ax d := (noted_setDrawer _ _ _ _).ax d
  rw [h]
  split
  · next e => rw [e, State.setAx_ax_self]
  · next e => exact State.setAx_ax_ne _ _ _ _ e

theorem setHomed_fbs (s : State) (c : Nat) (b : Bool) : (s.setHomed c b).fbs = s.fbs :=
  (noted_setDrawer _ _ _ _).fbs

theorem setHomed_fb (s : State) (c : Nat) (b : Bool) (n : Nat) : (s.setHomed c b).fb n = s.fb n := by
  rw [State.fb, setHomed_fbs, ← State.fb]

/-- A 1 arms the selected axis, and a 0 does nothing (R260). -/
theorem idxArm_eq {s : State} (v : W32) (hon : s.isOn 1 = true) : s.idxArm v =
    if bitOf v 0 then s.setFb s.fbSel { s.fb s.fbSel with armed := true } else s := by
  simp [State.idxArm, hon]

theorem cntSet_of_enabled {s : State} (v : W32) (hon : s.isOn 1 = true)
    (hc : s.ctxEn (s.ctxOfNear s.fbSel) = true) : s.cntSet v = s.fbSticky s.fbSel 14 := by
  simp [State.cntSet, hon, hc]

/-- The near axis of no context keeps the value alone. -/
theorem cntSet_of_unused {s : State} (v : W32) (hon : s.isOn 1 = true)
    (hc : s.ctxEn (s.ctxOfNear s.fbSel) = false) (h0 : s.ctxOfNear s.fbSel = 0) :
    s.cntSet v = s.setFb s.fbSel { s.fb s.fbSel with cntSet := some v } := by
  simp only [State.cntSet, hon, hc]
  simp [h0]

/-- The near axis of a context that is not enabled keeps the value and loses HOMED (R257, R396). -/
theorem cntSet_of_disabled {s : State} (v : W32) (hon : s.isOn 1 = true)
    (hc : s.ctxEn (s.ctxOfNear s.fbSel) = false) (h0 : s.ctxOfNear s.fbSel ≠ 0) : s.cntSet v =
    (s.setFb s.fbSel { s.fb s.fbSel with cntSet := some v }).setHomed (s.ctxOfNear s.fbSel) false := by
  simp only [State.cntSet, hon, hc]
  simp [h0]

theorem fbLatch_of_clear {s : State} {v : W32} (hon : s.isOn 1 = true) (hv : bitOf v 0 = false) :
    s.fbLatch v = s := by
  simp [State.fbLatch, hon, hv]

theorem fbStatusClear_eq {s : State} (v : W32) (hon : s.isOn 1 = true) :
    s.fbStatusClear v = s.setRg FB_STATUS s.fbSel (s.rg FB_STATUS s.fbSel &&& ~~~ v) := by
  simp [State.fbStatusClear, hon]

/-- The registers that FB_LATCH copies, with the counters it copies (R256). -/
def fbLatched (x : Fb) : List (Reg × W32) :=
  [(FB_CNT_L, x.cnt), (FB_UP_ACC, x.up), (FB_DN_ACC, x.dn), (FB_CNT_ADJ, x.adj), (FB_OBS, x.obs),
    (FB_ACC, x.acc), (FB_DISC, x.disc)]

theorem fbLatched_nodup (x : Fb) : ((fbLatched x).map (·.1.addr)).Nodup := by
  simp only [fbLatched, List.map]
  decide

/-- Several registers are set, each at the selector `n`. -/
def State.setRgs (s : State) (n : Nat) (l : List (Reg × W32)) : State :=
  l.foldl (fun s p => s.setRg p.1 n p.2) s

theorem fbLatch_of_set {s : State} {v : W32} (hon : s.isOn 1 = true) (hv : bitOf v 0 = true) :
    s.fbLatch v = s.setRgs s.fbSel (fbLatched (s.fb s.fbSel)) := by
  simp [State.fbLatch, State.setRgs, fbLatched, hon, hv]

theorem setRgs_eq (s : State) (n : Nat) (l : List (Reg × W32)) :
    s.setRgs n l = { s with regs := (s.setRgs n l).regs } := by
  induction l generalizing s with
  | nil => rfl
  | cons p l ih => exact ih (s.setRg p.1 n p.2)

theorem setRgs_sameRegsBut (s : State) (n : Nat) (l : List (Reg × W32)) :
    SameRegsBut s (s.setRgs n l) (l.map (fun p => regKey p.1 n)) := by
  induction l generalizing s with
  | nil => exact .refl s _
  | cons p l ih =>
    intro q j hq
    rw [List.map_cons, List.mem_cons, not_or] at hq
    exact (ih _ q j hq.2).trans (sameRegsBut_setRg s p.1 n p.2 q j (by simpa using hq.1))

/-- Each register of the list reads its value, where their addresses are distinct. -/
theorem setRgs_rg_of_mem {n : Nat} {l : List (Reg × W32)} (s : State)
    (hl : (l.map (·.1.addr)).Nodup) {p : Reg × W32} (hp : p ∈ l) : (s.setRgs n l).rg p.1 n = p.2 := by
  induction l generalizing s with
  | nil => cases hp
  | cons a l ih =>
    obtain ⟨ha, hl⟩ := List.nodup_cons.mp hl
    cases hp with
    | head =>
      have hk : regKey p.1 n ∉ l.map (fun r => regKey r.1 n) := by
        intro hm
        obtain ⟨r, hr, e⟩ := List.mem_map.mp hm
        exact ha (List.mem_map.mpr ⟨r, hr, by simp only [regKey] at e ⊢; omega⟩)
      exact (setRgs_sameRegsBut _ n l p.1 n hk).trans (State.setRg_rg_self s p.1 n p.2)
    | tail _ hp => exact ih _ hl hp

/-- Settles O31, register by register. -/
theorem feedbackRegistersTakeTheirWrites : Obligations.FeedbackRegistersTakeTheirWrites := by
  intro s v hon n x c others
  have hfb (y : Fb) : others (s.setFb n y) := fun m hm => State.setFb_fb_ne s n y m hm
  refine ⟨.of_eq rfl (idxArm_eq v hon) ?_, fun hc => .of_eq rfl (cntSet_of_enabled v hon hc) ?_,
    fun hc => ?_, fun hv => .of_eq rfl (fbLatch_of_set hon hv) ?_,
    fun hv => congrArg Host.Outcome.next (fbLatch_of_clear hon hv), .of_eq rfl (fbStatusClear_eq v hon) ?_⟩
  · split
    · next hv => exact ⟨by simp [hv, State.fbSel, n, x], hfb _, rfl⟩
    · next hv => exact ⟨by simp [hv, x], fun _ _ => rfl, rfl⟩
  · exact ⟨State.setRg_rg_self .., sameRegsBut_setRg _ _ _ _, rfl⟩
  · let u := s.setFb n { x with cntSet := some v }
    have hu : u = { s with fbs := u.fbs } := rfl
    by_cases h0 : c = 0
    · exact .of_eq rfl (cntSet_of_unused v hon hc h0)
        ⟨State.setFb_fb_self _ _ _, hfb _, fun h => absurd h0 h, fun _ _ => rfl, u, hu, (if_pos h0).symm⟩
    · have hf : (u.setHomed c false).fbs = u.fbs := setHomed_fbs u c false
      exact .of_eq rfl (cntSet_of_disabled v hon hc h0)
        ⟨(setHomed_fb u c false n).trans (State.setFb_fb_self _ _ _),
          fun m hm => (setHomed_fb u c false m).trans (hfb _ m hm),
          fun _ => (setHomed_ax u c false c).trans (if_pos rfl),
          fun d hd => (setHomed_ax u c false d).trans (if_neg hd),
          u, hf.symm ▸ hu, (if_neg h0).symm⟩
  · have hr : ∀ p ∈ fbLatched x, (s.setRgs n (fbLatched x)).rg p.1 n = p.2 := fun p hp =>
      setRgs_rg_of_mem s (fbLatched_nodup x) hp
    simp only [fbLatched, List.forall_mem_cons] at hr
    obtain ⟨h1, h2, h3, h4, h5, h6, h7, -⟩ := hr
    exact ⟨h1, h2, h3, h4, h5, h6, h7, setRgs_sameRegsBut _ _ _, setRgs_eq _ _ _⟩
  · exact ⟨State.setRg_rg_self .., sameRegsBut_setRg _ _ _ _, rfl⟩

/-! ## Registers by their address (R762, R763) -/

theorem findReg_addr {a : Nat} {r : Reg} (h : findReg a = some r) : r.addr = a := by
  simpa using List.find?_some h

/-- The counter of refused staged writes lies in its block's window, and is not LE_EXC_LOG_HI. -/
theorem blockOf_refused (b : Fin 18) :
    blockOf (blockBase b + 0x100C) = some b ∧ blockBase b + 0x100C ≠ 0x14044 := by
  revert b
  decide

/-- The addresses of the registers whose writes have an effect of their own. -/
def ownAddrs : List Nat :=
  [0x10, 0x30, 0xC000, 0xC024, 0xC028, 0xC02C, 0xC0A0, 0x10014, 0x10390, 0x20024, 0x2002C,
    0x20030, 0x2004C, 0x24014, 0x24054, 0x2409C, 0x30030, 0x34008, 0x50310, 0x60004]

theorem writeOwn_of_not_own (s : State) {a : Nat} (v : W32) (h : a ∉ ownAddrs) : s.writeOwn a v = none := by
  unfold State.writeOwn
  split
  case h_21 => rfl
  all_goals exact absurd (by decide) h

/-- What a register's selectors choose takes writes. -/
theorem writeIgnored_eq_false (s : State) (r : Reg) : s.writeIgnored r = false ↔
    s.selExists r = true ∧ ¬ (r.addr = 0x10304 ∧ s.selOf r < 16) := by
  simp [State.writeIgnored]

theorem writeIgnored_eq_true (s : State) (r : Reg) : s.writeIgnored r = true ↔
    ¬ (s.selExists r = true ∧ ¬ (r.addr = 0x10304 ∧ s.selOf r < 16)) := by
  rw [← writeIgnored_eq_false, Bool.not_eq_false]

theorem open_iff (x : Blk) : x.open_ = true ↔ x.state = .pending ∨ x.state = .checked := by
  simp [Blk.open_]

theorem open_eq_false (x : Blk) : x.open_ = false ↔ ¬ (x.state = .pending ∨ x.state = .checked) := by
  rw [← open_iff, Bool.not_eq_true]

/-! ## Staging states -/

/-- R769: what a refused staged write, or a refused DISCARD, leaves. -/
def Refuses (u t : State) (b : Fin 18) : Prop :=
  ∃ v : State, v.rg (STAGE_REFUSED b) = satAdd (u.rg (STAGE_REFUSED b)) 1 ∧
    SameRegsBut u v [regKey (STAGE_REFUSED b) 0] ∧ v = { u with regs := v.regs, blks := v.blks } ∧
    (∀ k, k ≠ b.val → v.blk k = u.blk k) ∧ v.blk b = { u.blk b with refusedPosted := true } ∧
    t = if (u.blk b).refusedPosted then v else v.post 0x0211 .info 0 (payOf [b.val])

theorem refuses_refuseStaged (s : State) (b : Fin 18) : Refuses s (s.refuseStaged b) b := by
  let u := s.bump (STAGE_REFUSED b)
  have hrg : u.rg (STAGE_REFUSED b) = satAdd (s.rg (STAGE_REFUSED b)) 1 := State.setRg_rg_self ..
  have hsame : SameRegsBut s u [regKey (STAGE_REFUSED b) 0] := sameRegsBut_setRg _ _ _ _
  have hb : u.blk b = s.blk b := rfl
  by_cases hp : (s.blk b).refusedPosted = true
  · refine ⟨u, hrg, hsame, rfl, fun _ _ => rfl, ?_, ?_⟩
    · rw [hb, ← hp]
    · exact (if_pos hp).trans (if_pos hp).symm
  · refine ⟨u.setBlk b { s.blk b with refusedPosted := true }, hrg, hsame, rfl,
      fun k hk => State.setBlk_blk_ne u _ _ _ hk, State.setBlk_blk_self .., ?_⟩
    exact (if_neg hp).trans (if_neg hp).symm

/-- A refusal changes no block's state of staging. -/
theorem refuseStaged_state (s : State) (b : Fin 18) (k : Nat) :
    ((s.refuseStaged b).blk k).state = (s.blk k).state := by
  obtain ⟨v, -, -, -, hne, hself, ht⟩ := refuses_refuseStaged s b
  have hv : (v.blk k).state = (s.blk k).state := by
    by_cases hk : k = b.val
    · rw [hk, hself]
    · rw [hne k hk]
  rw [ht]
  split
  · exact hv
  · rw [State.blk, (noted_post _ _ _ _ _).blks]
    exact hv

/-! ## Writes of registers (R3, R6, R763 to R765) -/

section Writes

variable {s : State} {n : Nat} {b : Fin 18} {q : Reg} (v : W32)

theorem bar0Write_nowhere (h : blockOf n = none ∨ n % 4 ≠ 0) : s.bar0Write n v = s := by
  unfold State.bar0Write
  split
  · rfl
  · next hb =>
    rw [hb] at h
    simp [h.resolve_left (by simp)]

theorem bar0Write_active (hb : blockOf n = some b) (h4 : n % 4 = 0) (ho : n - blockBase b < 0x800)
    (hq : findReg n = some q) : s.bar0Write n v = s.writeActive q v := by
  simp [State.bar0Write, hb, h4, ho, hq]

theorem bar0Write_view (hb : blockOf n = some b) (h4 : n % 4 = 0) (ho : 0x800 ≤ n - blockBase b)
    (ho' : n - blockBase b < 0x1000) (hq : findReg (n - 0x800) = some q) :
    s.bar0Write n v = s.writeView q v := by
  simp [State.bar0Write, hb, h4, Nat.not_lt.mpr ho, ho', hq]

theorem bar0Write_active_none (hb : blockOf n = some b) (ho : n - blockBase b < 0x800)
    (hq : findReg n = none) : s.bar0Write n v = s := by
  simp [State.bar0Write, hb, ho, hq]

theorem bar0Write_view_none (hb : blockOf n = some b) (ho : 0x800 ≤ n - blockBase b)
    (ho' : n - blockBase b < 0x1000) (hq : findReg (n - 0x800) = none) : s.bar0Write n v = s := by
  simp [State.bar0Write, hb, Nat.not_lt.mpr ho, ho', hq]

theorem bar0Write_high (hb : blockOf n = some b) (ho : 0x1000 ≤ n - blockBase b)
    (ho' : n - blockBase b ≠ 0x1000) : s.bar0Write n v = s := by
  have : ¬ n - blockBase b < 0x800 := by omega
  simp [State.bar0Write, hb, this, Nat.not_lt.mpr ho, ho']

theorem writeActive_ignored (ho : q.addr ∉ ownAddrs) (hi : s.writeIgnored q = true) : s.writeActive q v = s := by
  simp [State.writeActive, writeOwn_of_not_own s v ho, hi]

theorem writeActive_rw (ho : q.addr ∉ ownAddrs) (hi : s.writeIgnored q = false) (ha : q.acc = .rw) :
    s.writeActive q v = s.setRg q (s.selOf q) (q.store v) := by
  simp [State.writeActive, writeOwn_of_not_own s v ho, hi, ha]

theorem writeActive_st (ho : q.addr ∉ ownAddrs) (hi : s.writeIgnored q = false) (ha : q.acc = .st) :
    s.writeActive q v = s.writeStage q (s.selOf q) v := by
  simp [State.writeActive, writeOwn_of_not_own s v ho, hi, ha]

/-- The host's write does not reach what it only reads, and what a read clears (R6). -/
theorem writeActive_read (ho : q.addr ∉ ownAddrs) (ha : q.acc = .ro ∨ q.acc = .rc ∨ q.acc = .hw) :
    s.writeActive q v = s := by
  have hw := writeOwn_of_not_own s v ho
  rcases ha with ha | ha | ha <;> simp [State.writeActive, hw, ha]

theorem writeView_of_other (h : s.writeIgnored q = true ∨ q.acc ≠ .st) : s.writeView q v = s := by
  rcases h with h | h <;> simp [State.writeView, h]

theorem writeView_st (hi : s.writeIgnored q = false) (ha : q.acc = .st) :
    s.writeView q v = s.writeStage q (s.selOf q) v := by
  simp [State.writeView, hi, ha]

/-- A register outside the HOST block stores the bits that are not reserved (R2, R806). -/
theorem store_of_ne_host (hb : blockOf q.addr = some b) (h3 : b ≠ 3) : q.store v = v &&& q.mask := by
  simp [Reg.store, hb, h3]

/-- The value that the stage of a register takes: rows 10 and 11 of PWM_FLT_MAP2 are fixed. -/
def stagedValue (s : State) (q : Reg) (k : Nat) (v : W32) : W32 :=
  (if q.addr = PWM_FLT_MAP2.addr then (v &&& 0xFFFF) ||| (s.rg q k &&& 0xFFFF0000) else v) &&& q.mask

theorem writeStage_open {k : Nat} (hb : blockOf q.addr = some b) (ho : (s.blk b).open_ = true) :
    s.writeStage q k v = s.refuseStaged b := by
  simp [State.writeStage, hb, ho]

theorem writeStage_closed {k : Nat} (hb : blockOf q.addr = some b) (ho : (s.blk b).open_ = false) :
    s.writeStage q k v =
      { s with stage := tset (s.rg q k) s.stage (regKey q k) (stagedValue s q k v) } := by
  have hx (fix : W32) (hf : fix = if q.addr = PWM_FLT_MAP2.addr then 0xFFFF0000 else 0) :
      ((v &&& ~~~fix) ||| (s.rg q k &&& fix)) &&& q.mask = stagedValue s q k v := by
    unfold stagedValue
    by_cases hm : q.addr = PWM_FLT_MAP2.addr
    · rw [if_pos hm] at hf ⊢
      rw [hf, show ~~~(0xFFFF0000 : W32) = 0xFFFF from rfl]
    · rw [if_neg hm] at hf ⊢
      rw [hf, show ~~~(0 : W32) = BitVec.allOnes 32 from rfl, BitVec.and_allOnes, show (0 : W32) = 0#32 from rfl,
        BitVec.and_zero, BitVec.or_zero]
  unfold State.writeStage
  simp only [hb, ho, hx _ rfl]
  rfl

/-- A staged value reads back, and stands beside the other stages. -/
theorem stg_tset (k : Nat) (x : W32) :
    let t : State := { s with stage := tset (s.rg q k) s.stage (regKey q k) x }
    t.stg q k = x ∧ ∀ r j, regKey r j ≠ regKey q k → t.stg r j = s.stg r j :=
  ⟨tget_tset_self .., fun _ _ h => tget_tset_other _ _ _ _ h⟩

end Writes

/-! ## Reads that clear (R6) -/

section Reads

variable {n : Nat} {b : Fin 18} {q : Reg}

theorem rcAt_refused (b : Fin 18) : rcAt (blockBase b + 0x100C) = some (STAGE_REFUSED b) := by
  simp [rcAt, (blockOf_refused b).1]

theorem rcAt_of_rc (hb : blockOf n = some b) (ho : n - blockBase b ≠ 0x100C) (hq : findReg n = some q)
    (ha : q.acc = .rc) : rcAt n = some q := by
  simp [rcAt, hb, ho, hq, ha]

/-- An RC register is a counter of refused writes, or a register of the tables. -/
theorem rcAt_cases {r : Reg} (h : rcAt n = some r) :
    (∃ b, n = blockBase b + 0x100C) ∨ (findReg n = some r ∧ r.acc = .rc) := by
  unfold rcAt at h
  split at h
  · cases h
  · next b _ =>
    split at h
    · next ho => exact .inl ⟨b, by omega⟩
    · split at h
      · split at h
        · next q hq ha =>
          obtain rfl : q = r := Option.some.inj h
          exact .inr ⟨hq, by simpa using ha⟩
        · cases h
      · cases h

theorem rcLeft_eq_zero (hq : q.addr ≠ 0x14044) (v : W32) : rcLeft q v = 0 := if_neg hq

end Reads

/-! ## Commits (R29, R764 to R772) -/

theorem tget_filter {β : Type} (d : β) (m : List (Nat × β)) (p : Nat → Bool) (k : Nat) :
    tget d (m.filter (fun e => p e.1)) k = if p k then tget d m k else d := by
  induction m with
  | nil => simp [tget]
  | cons e m ih =>
    obtain ⟨j, x⟩ := e
    by_cases hk : j = k
    · subst hk
      by_cases hp : p j = true <;> simp [tget, hp, ih]
    · by_cases hp : p j = true <;> simp [tget, hp, hk, ih]

theorem regKey_div (q : Reg) {j : Nat} (hj : j < 0x100000) : regKey q j / 0x100000 = q.addr := by
  simp only [regKey]
  omega

/-- A staged entry lies in the block of its register. -/
theorem entryBlk_regKey (q : Reg) {j : Nat} (hj : j < 0x100000) (b : Fin 18) :
    entryBlk (regKey q j) = b.val ↔ blockOf q.addr = some b := by
  rw [entryBlk, regKey_div q hj]
  cases h : blockOf q.addr with
  | none => simpa using (Nat.ne_of_lt b.isLt).symm
  | some c => simp [Fin.ext_iff]

/-- The block with a commit that waits for the next hinge point. -/
def State.waiting (s : State) (b : Nat) : Blk :=
  { s.blk b with state := .pending, refusedPosted := false, late := s.cutOff }

/-- The block whose commit finds nothing to change. -/
def State.settled (s : State) (b : Nat) : Blk := { s.blk b with state := .applied, code := 0, field := 0 }

section Commit

variable {s : State} {b : Fin 18}

theorem commit_of_open (ho : (s.blk b).open_ = true) : s.commit b = s := by
  simp [State.commit, ho]

theorem commit_of_closed (ho : (s.blk b).open_ = false) :
    s.commit b = s.setBlk b (if s.differs b then s.waiting b else s.settled b) := by
  by_cases hd : s.differs b = true
  · simp only [State.commit, ho, hd]
    rfl
  · simp only [State.commit, ho, hd]
    rfl

theorem discard_of_open (ho : (s.blk b).open_ = true) : s.discard b = s.refuseStaged b := by
  simp [State.discard, ho]

theorem discard_of_closed (ho : (s.blk b).open_ = false) :
    s.discard b = { s with stage := s.stage.filter (fun p => entryBlk p.1 != b.val) } := by
  simp [State.discard, ho]

/-- A discard makes the block's staged values its active ones, and leaves the other stages. -/
theorem discard_stg (ho : (s.blk b).open_ = false) (q : Reg) {j : Nat} (hj : j < 0x100000) :
    (s.discard b).stg q j = if blockOf q.addr = some b then s.rg q j else s.stg q j := by
  rw [discard_of_closed ho]
  refine (tget_filter (s.rg q j) s.stage (fun k => entryBlk k != b.val) (regKey q j)).trans ?_
  by_cases hb : blockOf q.addr = some b
  · simp [hb, (entryBlk_regKey q hj b).mpr hb]
  · simp [hb, mt (entryBlk_regKey q hj b).mp hb, State.stg]

/-- Nothing of a discarded stage is left. -/
theorem discard_differs (ho : (s.blk b).open_ = false) : (s.discard b).differs b = false := by
  simp [discard_of_closed ho, State.differs]

/-- DISCARD and COMMIT together: the block is APPLIED with nothing staged (R772). -/
theorem commit_discard_of_closed (ho : (s.blk b).open_ = false) :
    (s.discard b).commit b = (s.discard b).setBlk b (s.settled b) := by
  have hb : (s.discard b).blk b = s.blk b := by rw [discard_of_closed ho]; rfl
  rw [commit_of_closed (by rw [hb, ho]), discard_differs ho, State.settled, hb]
  rfl

/-- DISCARD and COMMIT together, refused: the commit does nothing (R769). -/
theorem commit_discard_of_open (ho : (s.blk b).open_ = true) :
    (s.discard b).commit b = s.refuseStaged b := by
  rw [discard_of_open ho, commit_of_open]
  rw [open_iff, refuseStaged_state]
  exact (open_iff _).mp ho

/-- A commit changes the staging state of its block alone. -/
theorem commit_eq (s : State) (b : Fin 18) : s.commit b = { s with blks := (s.commit b).blks } := by
  by_cases ho : (s.blk b).open_ = true
  · rw [commit_of_open ho]
  · rw [commit_of_closed (Bool.not_eq_true _ ▸ ho)]
    rfl

theorem commit_blk_ne (s : State) (b : Fin 18) {k : Nat} (hk : k ≠ b.val) : (s.commit b).blk k = s.blk k := by
  by_cases ho : (s.blk b).open_ = true
  · rw [commit_of_open ho]
  · rw [commit_of_closed (Bool.not_eq_true _ ▸ ho), State.setBlk_blk_ne _ _ _ _ hk]

end Commit

/-- A commit of a block that differs: PENDING, where none was PENDING or CHECKED. -/
def State.committed (s : State) (b : Nat) : Blk := if (s.blk b).open_ then s.blk b else s.waiting b

theorem commit_blk_self {s : State} {b : Fin 18} (hd : s.differs b = true) :
    (s.commit b).blk b = s.committed b := by
  unfold State.committed
  by_cases ho : (s.blk b).open_ = true
  · rw [commit_of_open ho, if_pos ho]
  · rw [commit_of_closed (Bool.not_eq_true _ ▸ ho), hd, State.setBlk_blk_self, if_neg ho, if_pos rfl]

theorem foldl_commit {l : List (Fin 18)} (hl : l.Nodup) (s : State) (hd : ∀ b ∈ l, s.differs b = true) :
    l.foldl (fun s b => s.commit b) s = { s with blks := (l.foldl (fun s b => s.commit b) s).blks } ∧
      ∀ b : Fin 18, (l.foldl (fun s b => s.commit b) s).blk b = if b ∈ l then s.committed b else s.blk b := by
  induction l generalizing s with
  | nil => exact ⟨rfl, fun _ => rfl⟩
  | cons a l ih =>
    obtain ⟨ha, hl⟩ := List.nodup_cons.mp hl
    have he := commit_eq s a
    have hdiff (b : Nat) : (s.commit a).differs b = s.differs b := by rw [he]; rfl
    have hcut : (s.commit a).cutOff = s.cutOff := by rw [he]; rfl
    obtain ⟨h1, h2⟩ := ih hl (s.commit a) fun b hb => (hdiff b).trans (hd b (List.mem_cons_of_mem a hb))
    refine ⟨?_, fun b => ?_⟩
    · rw [List.foldl_cons, h1, he]
    · rw [List.foldl_cons, h2 b]
      by_cases hb : b = a
      · subst hb
        rw [if_neg ha, if_pos List.mem_cons_self, commit_blk_self (hd b List.mem_cons_self)]
      · have hne : (s.commit a).blk b = s.blk b := commit_blk_ne s a (mt Fin.ext hb)
        simp [hb, State.committed, State.waiting, hne, hcut]

/-- SYS_COMMIT_ALL commits every block that differs (R774). -/
theorem commitAllBlocks_spec (s : State) {v : W32} (hv : bitOf v 0 = true) :
    s.commitAllBlocks v = { s with blks := (s.commitAllBlocks v).blks } ∧
      ∀ b : Fin 18, (s.commitAllBlocks v).blk b = if s.differs b then s.committed b else s.blk b := by
  have h := foldl_commit ((List.nodup_finRange 18).filter (fun b => s.differs b.val)) s
    fun b hb => (List.mem_filter.mp hb).2
  simpa [State.commitAllBlocks, hv] using h

theorem commitAllBlocks_blk (s : State) {v : W32} (hv : bitOf v 0 = true) (b : Fin 18) :
    (s.commitAllBlocks v).blk b = if s.differs b = true ∧ (s.blk b).state ≠ .pending ∧ (s.blk b).state ≠ .checked
      then s.waiting b else s.blk b := by
  have ho : (s.blk b).open_ = true ↔ ¬ ((s.blk b).state ≠ .pending ∧ (s.blk b).state ≠ .checked) := by
    rw [open_iff]
    by_cases hp : (s.blk b).state = .pending
    · simp only [hp, ne_eq, not_true_eq_false, false_and, not_false_eq_true, true_or]
    · simp only [hp, ne_eq, not_false_eq_true, true_and, false_or, Decidable.not_not]
  rw [(commitAllBlocks_spec s hv).2 b, State.committed]
  by_cases hd : s.differs b = true
  · by_cases hc : (s.blk b).state ≠ .pending ∧ (s.blk b).state ≠ .checked
    · rw [if_pos hd, if_neg (mt ho.mp (not_not_intro hc)), if_pos ⟨hd, hc⟩]
    · rw [if_pos hd, if_pos (ho.mpr hc), if_neg fun h => hc h.2]
  · rw [if_neg hd, if_neg fun h => hd h.1]

/-! ## What the effects of a set leave as it is -/

/-- The stages, the blocks' states of staging and the active values of the staged registers are the same. -/
structure SameSetup (s t : State) : Prop where
  stage : t.stage = s.stage
  blks : t.blks = s.blks
  rg : ∀ q j, findReg q.addr = some q → q.acc = .st → j < 0x100000 → t.rg q j = s.rg q j

theorem SameSetup.of_regs {s t : State} (hs : t.stage = s.stage) (hb : t.blks = s.blks) (hr : t.regs = s.regs) :
    SameSetup s t := ⟨hs, hb, fun q j _ _ _ => by rw [State.rg, State.rg, hr]⟩

theorem SameSetup.refl (s : State) : SameSetup s s := .of_regs rfl rfl rfl

theorem SameSetup.trans {s t u : State} (h : SameSetup s t) (h' : SameSetup t u) : SameSetup s u :=
  ⟨h'.stage.trans h.stage, h'.blks.trans h.blks, fun q j hq ha hj => (h'.rg q j hq ha hj).trans (h.rg q j hq ha hj)⟩

theorem SameSetup.stg {s t : State} (h : SameSetup s t) {q : Reg} {j : Nat} (hq : findReg q.addr = some q)
    (ha : q.acc = .st) (hj : j < 0x100000) : t.stg q j = s.stg q j := by
  rw [State.stg, State.stg, h.rg q j hq ha hj, h.stage]

theorem SameSetup.blk {s t : State} (h : SameSetup s t) (b : Nat) : t.blk b = s.blk b := by
  rw [State.blk, State.blk, h.blks]

theorem SameSetup.ite {s t u : State} {c : Prop} [Decidable c] (h : SameSetup s t) (h' : SameSetup s u) :
    SameSetup s (if c then t else u) := by
  split
  · exact h
  · exact h'

theorem SameSetup.foldl {β : Type} {f : State → β → State} {l : List β} (h : ∀ u, ∀ x ∈ l, SameSetup u (f u x))
    (s : State) : SameSetup s (l.foldl f s) := by
  induction l generalizing s with
  | nil => exact .refl s
  | cons x l ih =>
    exact (h s x List.mem_cons_self).trans (ih (fun u y hy => h u y (List.mem_cons_of_mem x hy)) _)

/-- A write of a register that is not staged. -/
theorem sameSetup_setRg (s : State) {r : Reg} {k : Nat} (v : W32) (hr : findReg r.addr = some r) (ha : r.acc ≠ .st)
    (hk : k < 0x100000) : SameSetup s (s.setRg r k v) := by
  refine ⟨rfl, rfl, fun q j hq hst hj => State.setRg_rg_addr s r q k v j (fun e => ?_) hk hj⟩
  rw [e, hr] at hq
  exact ha (Option.some.inj hq ▸ hst)

/-- An event counts in HOST_SUMMARY alone of the registers (R636). -/
theorem postEntry_sameRegsBut (s : State) (n : Nat) (e : CqEntry) :
    SameRegsBut s (s.postEntry n e) [regKey HOST_SUMMARY 0] := by
  unfold State.postEntry
  dsimp only
  split
  · exact .of_regs rfl _
  · split
    · exact .of_regs rfl _
    · split
      · exact (sameRegsBut_setRg _ _ _ _).trans (.of_regs rfl _)
      · exact (sameRegsBut_setRg _ _ _ _).trans (.of_regs rfl _)

theorem setCabByte_regs (s : State) (a : Nat) (v : Byte) : (s.setCabByte a v).regs = s.regs := by
  unfold State.setCabByte
  split
  · rfl
  · unfold State.markDirty
    repeat' split
    all_goals rfl

theorem setCabWord_regs (s : State) (a : Nat) (v : W32) : (s.setCabWord a v).regs = s.regs := by
  simp only [State.setCabWord, setCabByte_regs]

theorem logEvent_regs (s : State) (code : BitVec 16) (src : Nat) (sev : Sev) (pay : Payload) :
    (s.logEvent code src sev pay).regs = s.regs := by
  simp only [State.logEvent, State.recBump, setCabWord_regs]

theorem askFlush_regs (s : State) (cause : Nat) (cmds : List Cmd) : (s.askFlush cause cmds).regs = s.regs := by
  unfold State.askFlush
  split <;> rfl

theorem post_sameRegsBut (s : State) (code : BitVec 16) (sev : Sev) (src : Nat) (pay : Payload) :
    SameRegsBut s (s.post code sev src pay) [regKey HOST_SUMMARY 0] := by
  unfold State.post
  extract_lets p cls hi e s1 s2 s3 s4
  have h2 : s2.regs = s1.regs := setCabWord_regs _ _ _
  have h3 : s3.regs = s2.regs := by simp only [s3, apply_ite State.regs, State.recBump, setCabWord_regs, ite_self]
  have h4 : s4.regs = s3.regs := by simp only [s4, apply_ite State.regs, logEvent_regs, ite_self]
  have h1 : SameRegsBut s s1 [regKey HOST_SUMMARY 0] := postEntry_sameRegsBut s _ _
  refine h1.trans (.of_regs ?_ _)
  simp only [apply_ite State.regs, askFlush_regs, ite_self, h4, h3, h2]

theorem findReg_HOST_SUMMARY : findReg HOST_SUMMARY.addr = some HOST_SUMMARY := by decide

theorem sameSetup_post (s : State) (code : BitVec 16) (sev : Sev) (src : Nat) (pay : Payload) :
    SameSetup s (s.post code sev src pay) := by
  have h := noted_post s code sev src pay
  refine ⟨h.stage, h.blks, fun q j hq hst hj => post_sameRegsBut s code sev src pay q j ?_⟩
  rw [List.mem_singleton]
  intro e
  have ha : q.addr = HOST_SUMMARY.addr := by
    rw [← regKey_div q hj, e, regKey_div HOST_SUMMARY (by decide)]
  rw [ha, findReg_HOST_SUMMARY] at hq
  obtain rfl := Option.some.inj hq
  cases hst

theorem sameSetup_setCtx (s : State) (c : Nat) (x : CtxSt) : SameSetup s (s.setCtx c x) := .of_regs rfl rfl rfl
theorem sameSetup_setFb (s : State) (n : Nat) (x : Fb) : SameSetup s (s.setFb n x) := .of_regs rfl rfl rfl
theorem sameSetup_setMs (s : State) (k : Nat) (x : Ms) : SameSetup s (s.setMs k x) := .of_regs rfl rfl rfl
theorem sameSetup_setPort (s : State) (p : Nat) (x : Port) : SameSetup s (s.setPort p x) := .of_regs rfl rfl rfl
theorem sameSetup_setDir (s : State) (d : Nat) (x : Dir) : SameSetup s (s.setDir d x) := .of_regs rfl rfl rfl
theorem sameSetup_setRing (s : State) (r : Nat) (x : Ring) : SameSetup s (s.setRing r x) := .of_regs rfl rfl rfl
theorem sameSetup_out (s : State) (o : Output) : SameSetup s (s.out o) := .of_regs rfl rfl rfl

/-! ### Homes, feedback, PWM and masters -/

theorem sameSetup_assignHome (s : State) (c : Nat) : SameSetup s (s.assignHome c) := by
  unfold State.assignHome
  dsimp only
  split
  · exact sameSetup_setCtx _ _ _
  · exact .refl s

theorem sameSetup_firstIndexOf (s : State) (c : Nat) : SameSetup s (s.firstIndexOf c) := by
  unfold State.firstIndexOf
  split
  · exact sameSetup_setFb _ _ _
  · exact .refl s

theorem sameSetup_effectDisp (s t : State) : SameSetup t (s.effectDisp t) := by
  unfold State.effectDisp
  extract_lets news gone wrong t1 t2
  have h1 : SameSetup t t1 := .foldl (fun u c _ => sameSetup_setCtx u c _) t
  have h2 : SameSetup t1 t2 := .foldl (fun u c _ => sameSetup_assignHome u c) t1
  exact (h1.trans h2).trans (.foldl (fun u c _ => sameSetup_firstIndexOf u c) t2)

theorem sameSetup_checkSrc (s : State) : SameSetup s s.checkSrc := by
  unfold State.checkSrc
  exact .ite (.of_regs rfl rfl rfl) (.ite (.of_regs rfl rfl rfl) (.refl s))

theorem sameSetup_effectFb (s t : State) : SameSetup t (s.effectFb t) := by
  refine .foldl (fun u n _ => ?_) t
  extract_lets v
  have hv : SameSetup u v := .ite (sameSetup_setFb _ _ _) (.refl u)
  exact .ite (hv.trans (sameSetup_setFb _ _ _)) hv

theorem findReg_PWM_FLT_LATCH : findReg PWM_FLT_LATCH.addr = some PWM_FLT_LATCH := by decide
theorem findReg_PWM_FAULTS : findReg PWM_FAULTS.addr = some PWM_FAULTS := by decide

theorem sameSetup_pwmLeave (s : State) (m : Nat) (x : PwmSt) : SameSetup s (s.pwmLeave m x) :=
  .of_regs rfl rfl rfl

theorem sameSetup_pwmTrip (s : State) {m : Nat} (hm : m < 8) : SameSetup s (s.pwmTrip m) := by
  have hk : m < 0x100000 := by omega
  have latch (u : State) (v : W32) : SameSetup u (u.setRg PWM_FLT_LATCH m v) :=
    sameSetup_setRg u v findReg_PWM_FLT_LATCH (by decide) hk
  have count (u : State) : SameSetup u (u.bump PWM_FAULTS m) :=
    sameSetup_setRg u _ findReg_PWM_FAULTS (by decide) hk
  unfold State.pwmTrip
  split
  · exact .refl s
  · exact (((sameSetup_pwmLeave s m .fault).trans (latch _ _)).trans (count _)).trans (sameSetup_post _ _ _ _ _)

theorem sameSetup_effectPwm (t : State) : SameSetup t t.effectPwm := by
  refine .foldl (fun u m hm => ?_) t
  exact .ite (sameSetup_pwmTrip u (List.mem_range.mp hm)) (.refl u)

theorem sameSetup_effectPrf (s t : State) : SameSetup t (s.effectPrf t) := by
  refine .foldl (fun u k _ => ?_) t
  exact .ite (sameSetup_setMs _ _ _) (.refl u)

theorem sameSetup_effectGo (s t : State) : SameSetup t (s.effectGo t) := by
  refine .foldl (fun u n _ => ?_) t
  exact .ite (sameSetup_out _ _) (.refl u)

/-! ### Link, rings and twin -/

theorem findReg_LNK_TX_CELLS : findReg LNK_TX_CELLS.addr = some LNK_TX_CELLS := by decide
theorem findReg_RING_BREAKS : findReg RING_BREAKS.addr = some RING_BREAKS := by decide

theorem sameSetup_ringDown (s : State) (r : Nat) : SameSetup s (s.ringDown r) := by
  unfold State.ringDown
  dsimp only
  split
  · exact .refl s
  · exact (sameSetup_setRing _ _ _).trans (sameSetup_post _ _ _ _ _)

theorem sameSetup_sendCell (s : State) {d : Nat} (c : Cell) (hd : d < 0x100000) : SameSetup s (s.sendCell d c) := by
  have count (u : State) : SameSetup u (u.bump LNK_TX_CELLS d) :=
    sameSetup_setRg u _ findReg_LNK_TX_CELLS (by decide) hd
  unfold State.sendCell State.sendAt
  split
  · exact .refl s
  · exact ((sameSetup_setDir _ _ _).trans (count _)).trans (sameSetup_out _ _)

theorem sameSetup_breakRing (s : State) {r : Nat} (keep0 keep1 : Option Nat) (hr : r < 0x1000) :
    SameSetup s (s.breakRing r keep0 keep1) := by
  have send (u : State) (d : Nat) (c : Cell) (k : Option Nat) (hd : d < 0x100000) :
      SameSetup u (if k.isNone then u.sendCell d c else u) := .ite (sameSetup_sendCell u c hd) (.refl u)
  have count : SameSetup s (s.bump RING_BREAKS r) :=
    sameSetup_setRg s _ findReg_RING_BREAKS (by decide) (by omega)
  have seq (u : State) : SameSetup u u.nextSeq.2 := .of_regs rfl rfl rfl
  unfold State.breakRing
  dsimp only
  split
  · exact .refl s
  · exact ((((count.trans (sameSetup_post _ _ _ _ _)).trans (sameSetup_setRing _ _ _)).trans (seq _)).trans
      (send _ _ _ keep0 (by omega))).trans (send _ _ _ keep1 (by omega))

theorem sameSetup_ringPortLost (s : State) {p : Nat} (hp : p < 5) : SameSetup s (s.ringPortLost p) := by
  have hr : p / 2 < 0x1000 := by omega
  unfold State.ringPortLost
  dsimp only
  split
  · exact sameSetup_ringDown s _
  · split
    · exact sameSetup_breakRing s _ _ hr
    · exact .ite (sameSetup_breakRing s _ _ hr) (sameSetup_breakRing s _ _ hr)
    · exact .refl s

theorem sameSetup_effectLnk (s t : State) : SameSetup t (s.effectLnk t) := by
  refine .foldl (fun u p hp => ?_) t
  have down (x : Port) : SameSetup u ((u.driveTxdis p).setPort p x) :=
    (sameSetup_out _ _).trans (sameSetup_setPort _ _ _)
  refine .ite (sameSetup_out _ _) (.ite ?_ (.refl u))
  exact .ite ((down _).trans (sameSetup_ringPortLost _ (List.mem_range.mp hp))) (down _)

theorem sameSetup_delaySet (s : State) (r n : Nat) (second again : Bool) (seq : BitVec 16) :
    SameSetup s (s.delaySet r n second again seq) := .of_regs rfl rfl rfl

theorem sameSetup_effectRing (s t : State) : SameSetup t (s.effectRing t) := by
  refine .foldl (fun u r _ => .ite (.refl u) (.foldl (fun v n _ => ?_) u)) t
  exact .ite (sameSetup_delaySet _ _ _ _ _ _) (.refl v)

theorem sameSetup_enterTwin (s : State) (x : TwinSt) (cause : Nat) : SameSetup s (s.enterTwin x cause) := by
  unfold State.enterTwin
  refine .trans ?_ (sameSetup_checkSrc _)
  exact .of_regs rfl rfl rfl

theorem sameSetup_enterJoining (s : State) : SameSetup s s.enterJoining := by
  unfold State.enterJoining
  refine .trans ?_ (sameSetup_enterTwin _ _ _)
  exact .of_regs rfl rfl rfl

theorem sameSetup_effectTwin (s t : State) : SameSetup t (s.effectTwin t) := by
  unfold State.effectTwin
  exact .ite (sameSetup_enterJoining t) (.ite (sameSetup_enterTwin _ _ _) (.refl t))

/-! ## The check and the application of a set (R767, R768, R770) -/

/-- The staging state of each block of a list is mapped. -/
def State.mapBlks (s : State) (f : Nat → Blk → Blk) (bs : List Nat) : State :=
  bs.foldl (fun u b => u.setBlk b (f b (u.blk b))) s

theorem mapBlks_eq (s : State) (f : Nat → Blk → Blk) (bs : List Nat) :
    s.mapBlks f bs = { s with blks := (s.mapBlks f bs).blks } := by
  induction bs generalizing s with
  | nil => rfl
  | cons b bs ih => exact ih (s.setBlk b (f b (s.blk b)))

theorem mapBlks_blk (s : State) (f : Nat → Blk → Blk) {bs : List Nat} (hn : bs.Nodup) (b : Nat) :
    (s.mapBlks f bs).blk b = if b ∈ bs then f b (s.blk b) else s.blk b := by
  induction bs generalizing s with
  | nil => rfl
  | cons a bs ih =>
    obtain ⟨ha, hn⟩ := List.nodup_cons.mp hn
    refine (ih (s.setBlk a (f a (s.blk a))) hn).trans ?_
    by_cases hb : b = a
    · subst hb
      rw [if_neg ha, if_pos List.mem_cons_self, State.setBlk_blk_self]
    · rw [State.setBlk_blk_ne _ _ _ _ hb]
      simp [hb]

/-- The effects of a set change no setup: it holds what the stages have made active. -/
theorem sameSetup_applySet (s : State) {bs : List Nat} (h : bs ≠ []) :
    SameSetup ((s.applied bs).mapBlks (fun _ x => { x with state := .applied }) bs) (s.applySet bs) := by
  unfold State.applySet
  rw [if_neg h]
  exact ((((((((sameSetup_effectDisp _ _).trans (.ite (sameSetup_checkSrc _) (.refl _))).trans
    (sameSetup_effectFb _ _)).trans (sameSetup_effectPwm _)).trans (sameSetup_effectPrf _ _)).trans
    (sameSetup_effectGo _ _)).trans (sameSetup_effectLnk _ _)).trans (sameSetup_effectRing _ _)).trans
    (sameSetup_effectTwin _ _)

/-- The register table with staged entries made active, as `State.applied` computes it. -/
def applyEntries (l m : Table W32) : Table W32 :=
  l.foldl (fun m p => match entryReg p.1 with
    | some (r, _) => tset r.reset m p.1 p.2
    | none => m) m

theorem tget_of_tabove {β : Type} (d : β) {k lo : Nat} {l : List (Nat × β)} (h : tabove lo l = true) (hk : k ≤ lo) :
    tget d l k = d := by
  induction l with
  | nil => rfl
  | cons p l ih =>
    obtain ⟨j, x⟩ := p
    simp only [tabove, List.all_cons, Bool.and_eq_true, decide_eq_true_eq] at h
    have hj : j ≠ k := by omega
    rw [tget, if_neg hj]
    exact ih (by simpa [tabove] using h.2)

/-- An entry made active is what its register reads; a register without one keeps its value. -/
theorem tget_applyEntries {q : Reg} {k i : Nat} (hk : entryReg k = some (q, i)) {l : Table W32} (m : Table W32)
    (hl : tsorted l = true) : tget q.reset (applyEntries l m) k = tget (tget q.reset m k) l k := by
  induction l generalizing m with
  | nil => rfl
  | cons p l ih =>
    obtain ⟨j, x⟩ := p
    simp only [tsorted, Bool.and_eq_true] at hl
    obtain ⟨hj, hl⟩ := hl
    have step : ∀ m', (match entryReg j with | some (r, _) => tset r.reset m j x | none => m) = m' →
        tget q.reset (applyEntries ((j, x) :: l) m) k = tget (tget q.reset m' k) l k := by
      rintro _ rfl
      exact ih _ hl
    by_cases hjk : j = k
    · subst hjk
      rw [step _ (by rw [hk]), tget_tset_self, tget_of_tabove _ hj (Nat.le_refl j), tget, if_pos rfl]
    · rw [step _ rfl, tget, if_neg hjk]
      split
      · rw [tget_tset_other _ _ _ _ (Ne.symm hjk)]
      · rfl

theorem entryReg_regKey {q : Reg} (hq : findReg q.addr = some q) {j : Nat} (hj : j < 0x100000) :
    entryReg (regKey q j) = some (q, j) := by
  rw [entryReg, regKey_div q hj, hq]
  have : regKey q j % 0x100000 = j := by
    simp only [regKey]
    omega
  simp [this]

theorem applied_rg {s : State} (hs : tsorted s.stage = true) (bs : List Nat) {q : Reg} {j : Nat}
    (hq : findReg q.addr = some q) (hj : j < 0x100000) :
    (s.applied bs).rg q j = if entryBlk (regKey q j) ∈ bs then s.stg q j else s.rg q j := by
  refine (tget_applyEntries (entryReg_regKey hq hj) s.regs (tsorted_filter _ _ hs)).trans ?_
  refine (tget_filter _ _ (fun k => decide (entryBlk k ∈ bs)) _).trans ?_
  simp only [decide_eq_true_eq]
  rfl

theorem applied_stg {s : State} (hs : tsorted s.stage = true) (bs : List Nat) {q : Reg} {j : Nat}
    (hq : findReg q.addr = some q) (hj : j < 0x100000) : (s.applied bs).stg q j = s.stg q j := by
  refine (tget_filter _ _ (fun k => !decide (entryBlk k ∈ bs)) _).trans ?_
  rw [applied_rg hs bs hq hj]
  by_cases h : entryBlk (regKey q j) ∈ bs <;> simp [h, State.stg]

/-! ### A set that is checked and applied while cycles are stopped (R771) -/

/-- The blocks that are PENDING. -/
def State.pendingBlks (s : State) : List Nat :=
  (List.range 18).filter (fun b => decide ((s.blk b).state = .pending))

section IdleApply

variable {s : State} {bs : List Nat} {code : BitVec 16} {c : Cand}

theorem mem_pendingBlks {b : Nat} : b ∈ s.pendingBlks ↔ b < 18 ∧ (s.blk b).state = .pending := by
  simp [State.pendingBlks]

theorem pendingBlks_nodup (s : State) : s.pendingBlks.Nodup := List.nodup_range.filter _

theorem exec_stageIdleApply (hon : s.isOn 1 = true) (hrun : s.cyc.running = false) :
    exec .stageIdleApply s = .next (s.checkSet s.pendingBlks).applyChecked := by
  show execStageIdleApply s = _
  simp only [execStageIdleApply, hon, hrun]
  rfl

theorem exec_stageIdleApply_of_not (h : s.isOn 1 = false ∨ s.cyc.running = true) :
    exec .stageIdleApply s = .next s := by
  show execStageIdleApply s = _
  rcases h with h | h <;> simp [execStageIdleApply, h]

theorem checkSet_nil (s : State) : s.checkSet [] = s := rfl

theorem checkSet_of_pass (hbs : bs ≠ []) (h : offending s (s.applied bs) bs = none) :
    s.checkSet bs = s.mapBlks (fun _ => Blk.pass) bs := by
  unfold State.checkSet
  rw [if_neg hbs, h]
  rfl

/-- The payload of COMMIT_FAILED: block, code and field (R768). -/
def failPayload (code : BitVec 16) (c : Cand) : Payload :=
  payOf ([c.blk] ++ leBytes 2 code.toNat ++ [0] ++ leBytes 4 c.word.toNat)

theorem checkSet_of_fail (hbs : bs ≠ []) (h : offending s (s.applied bs) bs = some (code, c)) :
    s.checkSet bs = (s.mapBlks (fun b x => x.fail b code c) bs).post 0x0210 .warn 0 (failPayload code c) := by
  unfold State.checkSet
  rw [if_neg hbs, h]
  rfl

theorem blksWhere_eq_nil {p : Blk → Bool} (h : ∀ b, b < 18 → p (s.blk b) = false) : s.blksWhere p = [] := by
  simpa [State.blksWhere] using h

theorem applyChecked_of_none (h : ∀ b, b < 18 → (s.blk b).state ≠ .checked) : s.applyChecked = s := by
  have hb : s.blksWhere (fun x => x.state == .checked) = [] := blksWhere_eq_nil (by simpa using h)
  simp [State.applyChecked, hb]

theorem applyChecked_of_needed (hb : s.blksWhere (fun x => x.state == .checked) = bs) (hbs : bs ≠ [])
    (hn : s.needed bs = []) : s.applyChecked = s.applySet bs := by
  simp [State.applyChecked, hb, hbs, hn]

/-- After a check that passes, the CHECKED blocks are those that were PENDING. -/
theorem blksWhere_checked_of_pass (hc : ∀ b, b < 18 → (s.blk b).state ≠ .checked) :
    (s.mapBlks (fun _ => Blk.pass) s.pendingBlks).blksWhere (fun x => x.state == .checked) = s.pendingBlks := by
  refine List.filter_congr fun b hb => ?_
  have hlt := List.mem_range.mp hb
  rw [mapBlks_blk s _ (pendingBlks_nodup s)]
  by_cases hp : (s.blk b).state = .pending
  · simp [mem_pendingBlks.mpr ⟨hlt, hp⟩, hp, Blk.pass]
  · simp [mt (fun h => (mem_pendingBlks.mp h).2) hp, hp, hc b hlt]

/-- A set that fails its check: each of its blocks is FAILED, and none applies (R768). -/
theorem exec_stageIdleApply_of_fail (hon : s.isOn 1 = true) (hrun : s.cyc.running = false)
    (hc : ∀ b, b < 18 → (s.blk b).state ≠ .checked) (hbs : s.pendingBlks ≠ [])
    (h : offending s (s.applied s.pendingBlks) s.pendingBlks = some (code, c)) : exec .stageIdleApply s =
      .next ((s.mapBlks (fun b x => x.fail b code c) s.pendingBlks).post 0x0210 .warn 0 (failPayload code c)) := by
  rw [exec_stageIdleApply hon hrun, checkSet_of_fail hbs h, applyChecked_of_none]
  intro b hb
  rw [(sameSetup_post _ _ _ _ _).blk, mapBlks_blk s _ (pendingBlks_nodup s)]
  split
  · unfold Blk.fail
    split <;> simp
  · exact hc b hb

/-- A set that passes its check and waits for no cluster applies (R767, R770). -/
theorem exec_stageIdleApply_of_pass (hon : s.isOn 1 = true) (hrun : s.cyc.running = false)
    (hc : ∀ b, b < 18 → (s.blk b).state ≠ .checked) (hbs : s.pendingBlks ≠ [])
    (h : offending s (s.applied s.pendingBlks) s.pendingBlks = none)
    (hn : (s.mapBlks (fun _ => Blk.pass) s.pendingBlks).needed s.pendingBlks = []) : exec .stageIdleApply s =
      .next ((s.mapBlks (fun _ => Blk.pass) s.pendingBlks).applySet s.pendingBlks) := by
  rw [exec_stageIdleApply hon hrun, checkSet_of_pass hbs h,
    applyChecked_of_needed (blksWhere_checked_of_pass hc) hbs hn]

end IdleApply

section ApplySet

variable {s : State} {bs : List Nat}

theorem applySet_blk (hbs : bs ≠ []) (hn : bs.Nodup) (b : Nat) :
    (s.applySet bs).blk b = if b ∈ bs then { s.blk b with state := .applied } else s.blk b :=
  ((sameSetup_applySet s hbs).blk b).trans (mapBlks_blk (s.applied bs) _ hn b)

/-- A staged register of the set holds what was staged, another what it held (R770). -/
theorem applySet_rg (hbs : bs ≠ []) (hs : tsorted s.stage = true) {q : Reg} {j : Nat}
    (hq : findReg q.addr = some q) (ha : q.acc = .st) (hj : j < 0x100000) :
    (s.applySet bs).rg q j = if entryBlk (regKey q j) ∈ bs then s.stg q j else s.rg q j := by
  refine ((sameSetup_applySet s hbs).rg q j hq ha hj).trans ?_
  rw [mapBlks_eq]
  exact applied_rg hs bs hq hj

theorem applySet_stg (hbs : bs ≠ []) (hs : tsorted s.stage = true) {q : Reg} {j : Nat}
    (hq : findReg q.addr = some q) (ha : q.acc = .st) (hj : j < 0x100000) :
    (s.applySet bs).stg q j = s.stg q j := by
  refine ((sameSetup_applySet s hbs).stg hq ha hj).trans ?_
  rw [mapBlks_eq]
  exact applied_stg hs bs hq hj

/-- A set that has passed its check: its blocks read APPLIED, the others what they read. -/
theorem applySet_pass_blk (hbs : s.pendingBlks ≠ []) (b : Nat) :
    ((s.mapBlks (fun _ => Blk.pass) s.pendingBlks).applySet s.pendingBlks).blk b =
      if b ∈ s.pendingBlks then { (s.blk b).pass with state := .applied } else s.blk b := by
  have hn := pendingBlks_nodup s
  rw [applySet_blk hbs hn, mapBlks_blk s _ hn]
  split <;> rfl

/-- Its staged values are the active ones, and the other blocks' registers and stages are kept. -/
theorem applySet_pass_setup (hbs : s.pendingBlks ≠ []) (hs : tsorted s.stage = true) {q : Reg} {j : Nat}
    {b : Fin 18} (hq : findReg q.addr = some q) (ha : q.acc = .st) (hb : blockOf q.addr = some b)
    (hj : j < 0x100000) :
    let t := (s.mapBlks (fun _ => Blk.pass) s.pendingBlks).applySet s.pendingBlks
    (t.rg q j = if b.val ∈ s.pendingBlks then s.stg q j else s.rg q j) ∧ t.stg q j = s.stg q j := by
  have hu := mapBlks_eq s (fun _ => Blk.pass) s.pendingBlks
  have hs' : tsorted (s.mapBlks (fun _ => Blk.pass) s.pendingBlks).stage = true := by rw [hu, hs]
  have hrg := applySet_rg hbs hs' hq ha hj
  have hstg := applySet_stg hbs hs' hq ha hj
  rw [(entryBlk_regKey q hj b).mpr hb] at hrg
  refine ⟨hrg.trans ?_, hstg.trans ?_⟩
  · rw [hu]
    rfl
  · rw [hu]
    rfl

end ApplySet

/-! ## The bytes of a payload (R4) -/

theorem payOf_cons_toNat (b : Nat) (bs : List Nat) :
    (payOf (b :: bs)).toNat = (payOf bs).toNat % 2 ^ 120 * 256 + b % 256 := by
  have h : (payOf bs).toNat <<< 8 % 2 ^ 128 = ((payOf bs).toNat % 2 ^ 120) <<< 8 := by
    simp only [Nat.shiftLeft_eq]
    omega
  rw [payOf, BitVec.toNat_or, BitVec.toNat_shiftLeft, h, BitVec.toNat_ofNat,
    Nat.mod_eq_of_lt (show b % 256 < 2 ^ 128 by omega),
    ← Nat.shiftLeft_add_eq_or_of_lt (show b % 256 < 2 ^ 8 by omega), Nat.shiftLeft_eq]

theorem leNum_lt (l : List Nat) : leNum (l.map (· % 256)) < 256 ^ l.length := by
  induction l with
  | nil => simp [leNum]
  | cons b l ih =>
    simp only [List.map_cons, leNum, List.length_cons, Nat.pow_succ]
    omega

/-- Up to sixteen bytes spell a payload. -/
theorem payOf_toNat {l : List Nat} (h : l.length ≤ 16) : (payOf l).toNat = leNum (l.map (· % 256)) := by
  induction l with
  | nil => rfl
  | cons b l ih =>
    have hl : l.length ≤ 15 := Nat.le_of_succ_le_succ h
    have hlt : leNum (l.map (· % 256)) < 2 ^ 120 :=
      Nat.lt_of_lt_of_le (leNum_lt l) (Nat.pow_le_pow_right (by decide) hl)
    rw [payOf_cons_toNat, ih (Nat.le_succ_of_le hl), Nat.mod_eq_of_lt hlt, List.map_cons, leNum]
    omega

theorem leNum_append (l m : List Nat) : leNum (l ++ m) = leNum l + 256 ^ l.length * leNum m := by
  induction l with
  | nil => simp only [List.nil_append, leNum, List.length_nil, Nat.pow_zero, Nat.one_mul, Nat.zero_add]
  | cons b l ih =>
    rw [List.cons_append, leNum, leNum, ih, List.length_cons, Nat.pow_succ, Nat.mul_add, Nat.add_assoc,
      ← Nat.mul_assoc, Nat.mul_comm 256 (256 ^ l.length)]

theorem leBytes_succ (n v : Nat) : leBytes (n + 1) v = v % 256 :: leBytes n (v / 256) := by
  have h (i : Nat) : v / 2 ^ (8 * (i + 1)) = v / 256 / 2 ^ (8 * i) := by
    rw [Nat.div_div_eq_div_mul, Nat.mul_succ, Nat.pow_add, Nat.mul_comm]
  rw [leBytes, List.range_succ_eq_map, List.map_cons, List.map_map, leBytes]
  simp only [Function.comp_def, Nat.succ_eq_add_one, h, Nat.mul_zero, Nat.pow_zero, Nat.div_one]

theorem length_leBytes (n v : Nat) : (leBytes n v).length = n := by
  rw [leBytes, List.length_map, List.length_range]

/-- The bytes of a number spell it, modulo their range. -/
theorem leNum_leBytes (n v : Nat) : leNum ((leBytes n v).map (· % 256)) = v % 256 ^ n := by
  induction n generalizing v with
  | zero => rw [Nat.pow_zero, Nat.mod_one]; rfl
  | succ n ih => rw [leBytes_succ, List.map_cons, leNum, ih, Nat.mod_mod, Nat.pow_succ', Nat.mod_mul]

/-- The payload of COMMIT_FAILED as a number. -/
theorem failPayload_toNat (code : BitVec 16) (c : Cand) : (failPayload code c).toNat =
    c.blk % 256 + 256 * (code.toNat + 65536 * (256 * c.word.toNat)) := by
  have hlen : ([c.blk] ++ leBytes 2 code.toNat ++ [0] ++ leBytes 4 c.word.toNat).length ≤ 16 := by
    simp only [List.length_append, length_leBytes, List.length_cons, List.length_nil]
    decide
  have hcode : leNum ((leBytes 2 code.toNat).map (· % 256)) = code.toNat :=
    (leNum_leBytes 2 _).trans (Nat.mod_eq_of_lt code.isLt)
  have hword : leNum ((leBytes 4 c.word.toNat).map (· % 256)) = c.word.toNat :=
    (leNum_leBytes 4 _).trans (Nat.mod_eq_of_lt c.word.isLt)
  have hblk : leNum ([c.blk].map (· % 256)) = c.blk % 256 := rfl
  have hzero : leNum (([0] : List Nat).map (· % 256)) = 0 := rfl
  rw [failPayload, payOf_toNat hlen]
  simp only [List.map_append, leNum_append, List.length_append, List.length_map, length_leBytes,
    hblk, hcode, hword, hzero, List.length_cons, List.length_nil]
  omega

theorem failPayload_fields (code : BitVec 16) (c : Cand) :
    bitsOf (failPayload code c) 7 0 = c.blk % 256 ∧ bitsOf (failPayload code c) 23 8 = code.toNat ∧
      bitsOf (failPayload code c) 63 32 = c.word.toNat := by
  have hcode : code.toNat < 65536 := code.isLt
  have hword : c.word.toNat < 4294967296 := c.word.isLt
  simp only [bitsOf, failPayload_toNat, Nat.shiftRight_eq_div_pow]
  refine ⟨?_, ?_, ?_⟩ <;> omega

/-! ## The FIELD block (R776, R789) -/

/-- The balls whose levels differ between two states, at their levels in the second. -/
def goChanges (s t : State) (l : List Nat) : List Output :=
  (l.filter (fun n => s.goLevel n != t.goLevel n)).map
    (fun n => .ball (.go n) (if t.goLevel n then .high else .low))

theorem foldl_driveGo (s t : State) (l : List Nat) :
    l.foldl (fun t n => if s.goLevel n != t.goLevel n then t.driveGo n else t) t =
      { t with outputs := t.outputs ++ goChanges s t l } := by
  induction l generalizing t with
  | nil => simp [goChanges]
  | cons n l ih =>
    by_cases h : (s.goLevel n != t.goLevel n) = true
    · have hl (m : Nat) : (t.driveGo n).goLevel m = t.goLevel m := rfl
      rw [List.foldl_cons, if_pos h, ih]
      simp only [goChanges, hl, List.filter_cons, h, if_true, List.map_cons]
      simp [State.driveGo, State.out]
    · rw [List.foldl_cons, if_neg h, ih]
      simp [goChanges, h]

theorem effectGo_eq (s t : State) :
    s.effectGo t = { t with outputs := t.outputs ++ goChanges s t (List.range 16) } :=
  foldl_driveGo s t (List.range 16)

theorem mem_goChanges {s t : State} {k : Nat} {x : Output} : x ∈ goChanges s t (List.range k) ↔
    ∃ n, n < k ∧ t.goLevel n ≠ s.goLevel n ∧ x = .ball (.go n) (if t.goLevel n then .high else .low) := by
  simp only [goChanges, List.mem_map, List.mem_filter, List.mem_range, bne_iff_ne, and_assoc]
  exact exists_congr fun n => and_congr_right fun _ => and_congr ne_comm eq_comm

/-- FIELD_GO drives the balls that FIELD_GO_OWN gives to it, while FIELDIO is on. -/
theorem setRg_FIELD_GO_goLevel (s : State) (v : W32) (n : Nat) : (s.setRg FIELD_GO 0 v).goLevel n =
    if s.isOn 22 = true ∧ bitOf (s.rg FIELD_GO_OWN) n = true then bitOf v n else s.goLevel n := by
  have hgo : (s.setRg FIELD_GO 0 v).rg FIELD_GO = v := State.setRg_rg_self ..
  have hown : (s.setRg FIELD_GO 0 v).rg FIELD_GO_OWN = s.rg FIELD_GO_OWN :=
    State.setRg_rg_addr _ _ _ _ _ _ (by decide) (by decide) (by decide)
  have hevt : (s.setRg FIELD_GO 0 v).rg EVT_GO_OWN = s.rg EVT_GO_OWN :=
    State.setRg_rg_addr _ _ _ _ _ _ (by decide) (by decide) (by decide)
  unfold State.goLevel
  rw [hgo, hown, hevt, State.setRg_isOn, State.setRg_go]
  by_cases h22 : s.isOn 22 = true
  · by_cases ho : bitOf (s.rg FIELD_GO_OWN) n = true
    · simp [h22, ho]
    · simp [h22, ho]
  · simp [h22]

theorem bitOf_mask_FIELD_GO (v : W32) {n : Nat} (hn : n < 16) : bitOf (v &&& FIELD_GO.mask) n = bitOf v n := by
  have hm : ∀ n, n < 16 → FIELD_GO.mask.getLsbD n = true := by decide
  rw [bitOf, BitVec.getLsbD_and, hm n hn, Bool.and_true, ← bitOf]

/-- A counter that rises under a condition. -/
theorem bumpIf_spec (s : State) (r : Reg) (c : Prop) [Decidable c] :
    let t := if c then s.bump r else s
    t = { s with regs := t.regs } ∧ SameRegsBut s t [regKey r 0] ∧
      t.rg r = if c then satAdd (s.rg r) 1 else s.rg r := by
  intro t
  by_cases hc : c
  · rw [show t = s.bump r from if_pos hc, if_pos hc]
    exact ⟨rfl, sameRegsBut_setRg _ _ _ _, State.setRg_rg_self ..⟩
  · rw [show t = s from if_neg hc, if_neg hc]
    exact ⟨rfl, .refl _ _, rfl⟩

/-- One bit of a word is set or cleared. -/
theorem getLsbD_setBit {w : Nat} (x : BitVec w) {k : Nat} (hk : k < w) (p : Bool) (i : Nat) :
    (if p then x ||| BitVec.ofNat w (2 ^ k) else x &&& ~~~ BitVec.ofNat w (2 ^ k)).getLsbD i =
      if i = k then p else x.getLsbD i := by
  have hb : (BitVec.ofNat w (2 ^ k)).getLsbD i = decide (i = k) := by
    rw [BitVec.getLsbD_ofNat, Nat.testBit_two_pow]
    by_cases hi : i = k
    · simp [hi, hk]
    · simp [hi, Ne.symm hi]
  cases p with
  | true =>
    rw [if_pos rfl, BitVec.getLsbD_or, hb]
    by_cases hi : i = k <;> simp [hi]
  | false =>
    rw [if_neg Bool.false_ne_true, BitVec.getLsbD_and, BitVec.getLsbD_not, hb]
    by_cases hi : i = k
    · simp [hi]
    · by_cases hw : i < w
      · simp [hi, hw]
      · simp [hi, BitVec.getLsbD_of_ge x i (Nat.le_of_not_lt hw)]

/-! ## The commands on registers and stages -/

section Commands

variable {s : State}

/-! ### Writes and reads of BAR0 -/

theorem exec_registerWrite (hon : s.isOn 1 = true) (a : BitVec 24) (v : W32) :
    exec (.registerWrite a v) s = .next (s.bar0Write a.toNat v) := by
  show execRegisterWrite a v s = _
  simp [execRegisterWrite, hon]

theorem exec_registerWrite_off (hoff : s.isOn 1 = false) (a : BitVec 24) (v : W32) :
    exec (.registerWrite a v) s = .next s := by
  show execRegisterWrite a v s = _
  simp [execRegisterWrite, hoff]

theorem exec_rcCounterRead_off (hoff : s.isOn 1 = false) (a : BitVec 24) :
    exec (.rcCounterRead a) s = .next s := by
  show execRcCounterRead a s = _
  simp [execRcCounterRead, hoff]

/-- A read of an address without an RC register, or whose selectors choose nothing, changes no register. -/
theorem exec_rcCounterRead_plain (hon : s.isOn 1 = true) {a : BitVec 24}
    (h : ∀ r, rcAt a.toNat = some r → s.selExists r = false) :
    exec (.rcCounterRead a) s = .next (s.out (.bar0 (s.bar0Read a.toNat))) := by
  show execRcCounterRead a s = _
  cases hr : rcAt a.toNat with
  | none => simp [execRcCounterRead, hon, hr]
  | some r => simp [execRcCounterRead, hon, hr, h r hr]

theorem exec_rcCounterRead_clears (hon : s.isOn 1 = true) {a : BitVec 24} {r : Reg} (h : rcAt a.toNat = some r)
    (hr : s.selExists r = true) : exec (.rcCounterRead a) s = .next ((s.out (.bar0 (s.bar0Read a.toNat))).setRg r
      (s.selOf r) (rcLeft r (s.rg r (s.selOf r)))) := by
  show execRcCounterRead a s = _
  simp [execRcCounterRead, hon, h, hr]

/-! ### Commits and discards -/

theorem exec_stageCommit_off (hoff : s.isOn 1 = false) (b : Fin 18) (d : Bool) :
    exec (.stageCommit b d) s = .next s := by
  show execStageCommit b d s = _
  simp [execStageCommit, hoff]

theorem exec_stageDiscard_off (hoff : s.isOn 1 = false) (b : Fin 18) : exec (.stageDiscard b) s = .next s := by
  show execStageDiscard b s = _
  simp [execStageDiscard, hoff]

theorem exec_sysCommitAll_off (hoff : s.isOn 1 = false) (v : W32) : exec (.sysCommitAll v) s = .next s := by
  show execSysCommitAll v s = _
  simp [execSysCommitAll, hoff]

variable {b : Fin 18}

theorem exec_stageCommit (hon : s.isOn 1 = true) : exec (.stageCommit b false) s = .next (s.commit b) := by
  show execStageCommit b false s = _
  simp only [execStageCommit, hon]
  rfl

theorem exec_stageCommit_discard (hon : s.isOn 1 = true) :
    exec (.stageCommit b true) s = .next ((s.discard b).commit b) := by
  show execStageCommit b true s = _
  simp only [execStageCommit, hon]
  rfl

theorem exec_stageDiscard (hon : s.isOn 1 = true) : exec (.stageDiscard b) s = .next (s.discard b) := by
  show execStageDiscard b s = _
  simp only [execStageDiscard, hon]
  rfl

theorem exec_sysCommitAll (hon : s.isOn 1 = true) (v : W32) :
    exec (.sysCommitAll v) s = .next (s.commitAllBlocks v) := by
  show execSysCommitAll v s = _
  simp [execSysCommitAll, hon]

/-! ### The FIELD block -/

theorem exec_fieldGoWrite_off (hoff : s.isOn 1 = false) (v : W32) : exec (.fieldGoWrite v) s = .next s := by
  show execFieldGoWrite v s = _
  simp [execFieldGoWrite, hoff]

theorem exec_goOverload_off (hoff : s.isOn 22 = false) (n : Fin 16) (th p : Bool) :
    exec (.goOverload n th p) s = .next s := by
  show execGoOverload n th p s = _
  simp [execGoOverload, hoff]

theorem exec_giInputChange_off (hoff : s.isOn 22 = false) (n : Fin 16) (l : Bool) :
    exec (.giInputChange n l) s = .next s := by
  show execGiInputChange n l s = _
  simp [execGiInputChange, hoff]

theorem exec_fieldGoWrite (hon : s.isOn 1 = true) (v : W32) :
    exec (.fieldGoWrite v) s = .next (s.writeGo v) := by
  show execFieldGoWrite v s = _
  simp [execFieldGoWrite, hon]

theorem exec_goOverload (hon : s.isOn 22 = true) (n : Fin 16) (th p : Bool) :
    exec (.goOverload n th p) s =
      let k := n.val + if th then 16 else 0
      let t := if p = true ∧ bitOf s.go.ovl k = false then s.bump FIELD_GO_FAULTS else s
      .next { t with go.ovl := if p then s.go.ovl ||| BitVec.ofNat 32 (2 ^ k)
        else s.go.ovl &&& ~~~ BitVec.ofNat 32 (2 ^ k) } := by
  show execGoOverload n th p s = _
  simp only [execGoOverload, hon, Bool.and_eq_true, Bool.not_eq_true']
  rfl

theorem exec_giInputChange (hon : s.isOn 22 = true) (n : Fin 16) (l : Bool) :
    exec (.giInputChange n l) s = .next { s with
      go.giF := if l then s.go.giF ||| BitVec.ofNat 16 (2 ^ n.val)
        else s.go.giF &&& ~~~ BitVec.ofNat 16 (2 ^ n.val) } := by
  show execGiInputChange n l s = _
  simp only [execGiInputChange, hon]
  rfl

end Commands

section WriteCases

variable {s : State} {n : Nat} {b : Fin 18} {q : Reg} (v : W32)

/-- An active offset takes no write where there is no register, nothing selected, or nothing to write. -/
theorem bar0Write_active_idle (hb : blockOf n = some b) (h4 : n % 4 = 0) (ho : n - blockBase b < 0x800)
    (hown : n ∉ ownAddrs) (h : findReg n = none ∨ (findReg n = some q ∧
      (s.writeIgnored q = true ∨ q.acc = .ro ∨ q.acc = .rc ∨ q.acc = .hw))) : s.bar0Write n v = s := by
  rcases h with hq | ⟨hq, h⟩
  · exact bar0Write_active_none v hb ho hq
  · rw [bar0Write_active v hb h4 ho hq]
    rw [← findReg_addr hq] at hown
    rcases h with hi | ha
    · exact writeActive_ignored v hown hi
    · exact writeActive_read v hown ha

/-- A stage offset takes no write where there is no staged register that takes writes. -/
theorem bar0Write_view_idle (hb : blockOf n = some b) (h4 : n % 4 = 0) (ho : 0x800 ≤ n - blockBase b)
    (ho' : n - blockBase b < 0x1000) (h : findReg (n - 0x800) = none ∨ (findReg (n - 0x800) = some q ∧
      (s.writeIgnored q = true ∨ q.acc ≠ .st))) : s.bar0Write n v = s := by
  rcases h with hq | ⟨hq, h⟩
  · exact bar0Write_view_none v hb ho ho' hq
  · rw [bar0Write_view v hb h4 ho ho' hq, writeView_of_other v h]

/-- At its active offset or at its stage offset, a staged register's stage is written (R764). -/
theorem bar0Write_staged (hb : blockOf n = some b) (h4 : n % 4 = 0) (hown : n ∉ ownAddrs)
    (hq : (n - blockBase b < 0x800 ∧ findReg n = some q) ∨
      (0x800 ≤ n - blockBase b ∧ n - blockBase b < 0x1000 ∧ findReg (n - 0x800) = some q))
    (ha : q.acc = .st) (hi : s.writeIgnored q = false) :
    s.bar0Write n v = s.writeStage q (s.selOf q) v := by
  rcases hq with ⟨ho, hq⟩ | ⟨ho, ho', hq⟩
  · rw [bar0Write_active v hb h4 ho hq]
    exact writeActive_st v (findReg_addr hq ▸ hown) hi ha
  · rw [bar0Write_view v hb h4 ho ho' hq, writeView_st v hi ha]

end WriteCases

section Effects

variable {s : State}

/-- A write of an RW register stores the bits that are not reserved (R2, R6). -/
theorem registerWrite_rw (hon : s.isOn 1 = true) {a : BitVec 24} (v : W32) {b : Fin 18} {q : Reg}
    (hb : blockOf a.toNat = some b) (h4 : a.toNat % 4 = 0) (ho : a.toNat - blockBase b < 0x800)
    (hown : a.toNat ∉ ownAddrs) (hq : findReg a.toNat = some q) (ha : q.acc = .rw)
    (hi : s.writeIgnored q = false) : Runs (.registerWrite a v) s (fun t => t = { s with regs := t.regs } ∧
      SameRegsBut s t [regKey q (s.selOf q)] ∧ (b ≠ 3 → t.rg q (s.selOf q) = v &&& q.mask)) := by
  have haddr := findReg_addr hq
  refine .of_eq (exec_registerWrite hon a v) ((bar0Write_active v hb h4 ho hq).trans
    (writeActive_rw v (haddr ▸ hown) hi ha)) ⟨rfl, sameRegsBut_setRg _ _ _ _, fun h3 => ?_⟩
  rw [State.setRg_rg_self, store_of_ne_host v (haddr ▸ hb) h3]

/-- A read answers its word and clears an RC register, or the counter of refused writes (R6, R766). -/
theorem rcCounterRead_runs (hon : s.isOn 1 = true) (a : BitVec 24) :
    Runs (.rcCounterRead a) s (fun t => t.outputs = s.outputs ++ [.bar0 (s.bar0Read a.toNat)] ∧
      t = { s with regs := t.regs, outputs := t.outputs } ∧
      (∀ q b, findReg a.toNat = some q → blockOf a.toNat = some b → a.toNat - blockBase b ≠ 0x100C → q.acc = .rc →
        s.selExists q = true → a.toNat ≠ 0x14044 →
        t.rg q (s.selOf q) = 0 ∧ SameRegsBut s t [regKey q (s.selOf q)]) ∧
      (∀ b : Fin 18, a.toNat = blockBase b + 0x100C → t.rg (STAGE_REFUSED b) = 0 ∧
        SameRegsBut s t [regKey (STAGE_REFUSED b) 0]) ∧
      ((∀ q, findReg a.toNat = some q → q.acc ≠ .rc) → (∀ b : Fin 18, a.toNat ≠ blockBase b + 0x100C) →
        t.regs = s.regs)) := by
  by_cases h : ∃ r, rcAt a.toNat = some r ∧ s.selExists r = true
  · obtain ⟨r, hr, hx⟩ := h
    have hsame : SameRegsBut s ((s.out (.bar0 (s.bar0Read a.toNat))).setRg r (s.selOf r)
        (rcLeft r (s.rg r (s.selOf r)))) [regKey r (s.selOf r)] := sameRegsBut_setRg _ _ _ _
    refine .of_next (exec_rcCounterRead_clears hon hr hx) ⟨rfl, rfl, fun q b hq hb ho ha hl h0 => ?_,
      fun b hn => ?_, fun hq hb => ?_⟩
    · obtain rfl := Option.some.inj ((rcAt_of_rc hb ho hq ha).symm.trans hr)
      exact ⟨by rw [State.setRg_rg_self, rcLeft_eq_zero ((findReg_addr hq).symm ▸ h0)], hsame⟩
    · rw [hn, rcAt_refused] at hr
      obtain rfl := Option.some.inj hr
      exact ⟨(State.setRg_rg_self ..).trans (rcLeft_eq_zero (blockOf_refused b).2 _), hsame⟩
    · rcases rcAt_cases hr with ⟨b, hn⟩ | ⟨hq', ha⟩
      · exact absurd hn (hb b)
      · exact absurd ha (hq r hq')
  · have hx (r : Reg) (hr : rcAt a.toNat = some r) : ¬ s.selExists r = true := fun hx => h ⟨r, hr, hx⟩
    exact .of_next (exec_rcCounterRead_plain hon fun r hr => Bool.eq_false_iff.mpr (hx r hr))
      ⟨rfl, rfl, fun q b hq hb ho ha hl _ => absurd hl (hx q (rcAt_of_rc hb ho hq ha)),
        fun b hn => absurd rfl (hx (STAGE_REFUSED b) (hn ▸ rcAt_refused b)), fun _ _ => rfl⟩

/-- DISCARD and COMMIT together: the block's stage is its active values, and it reads APPLIED (R772). -/
theorem stageCommit_discard_runs (hon : s.isOn 1 = true) {b : Fin 18} (ho : (s.blk b).open_ = false) :
    Runs (.stageCommit b true) s (fun t => (t.regs = s.regs ∧ ∀ q j, j < 0x100000 →
        t.stg q j = if blockOf q.addr = some b then s.rg q j else s.stg q j) ∧ t.blk b = s.settled b ∧
      (∀ k, k ≠ b.val → t.blk k = s.blk k) ∧ t = { s with stage := t.stage, blks := t.blks }) := by
  have hd := discard_of_closed ho
  refine .of_eq (exec_stageCommit_discard hon) (commit_discard_of_closed ho)
    ⟨⟨?_, fun q j hj => discard_stg ho q hj⟩, State.setBlk_blk_self .., fun k hk => ?_, ?_⟩
  · rw [hd]
    rfl
  · rw [State.setBlk_blk_ne _ _ _ _ hk, hd]
    rfl
  · rw [hd]
    rfl

/-- A set that fails its check is FAILED as a whole: the block of the first offending field has its code and
field, the others STAGE_SET (R768). -/
theorem stageIdleApply_runs_of_fail {code : BitVec 16} {c : Cand} (hon : s.isOn 1 = true)
    (hrun : s.cyc.running = false) (hc : ∀ b, b < 18 → (s.blk b).state ≠ .checked) (hbs : s.pendingBlks ≠ [])
    (h : offending s (s.applied s.pendingBlks) s.pendingBlks = some (code, c)) :
    Runs .stageIdleApply s (fun t => ∃ u : State, (∃ p, t = u.post 0x0210 .warn 0 p ∧ bitsOf p 7 0 = c.blk % 256 ∧
        bitsOf p 23 8 = code.toNat ∧ bitsOf p 63 32 = c.word.toNat) ∧ u = { s with blks := u.blks } ∧
      ∀ b, u.blk b = if b ∈ s.pendingBlks then { s.blk b with
          state := .failed, code := if b = c.blk then code else 0x0203, field := if b = c.blk then c.word else 0 }
        else s.blk b) := by
  refine .of_next (exec_stageIdleApply_of_fail hon hrun hc hbs h) ⟨_, ⟨_, rfl, failPayload_fields code c⟩,
    mapBlks_eq _ _ _, fun b => (mapBlks_blk s _ (pendingBlks_nodup s) b).trans ?_⟩
  unfold Blk.fail
  by_cases hb : b = c.blk
  · simp only [hb, if_true]
  · simp only [hb, if_false]

/-- A set that passes its check becomes active as a whole (R767, R770, R771). -/
theorem stageIdleApply_runs_of_pass (hon : s.isOn 1 = true) (hrun : s.cyc.running = false)
    (hs : tsorted s.stage = true) (hc : ∀ b, b < 18 → (s.blk b).state ≠ .checked) (hbs : s.pendingBlks ≠ [])
    (h : offending s (s.applied s.pendingBlks) s.pendingBlks = none)
    (hn : (s.mapBlks (fun _ => Blk.pass) s.pendingBlks).needed s.pendingBlks = []) :
    Runs .stageIdleApply s (fun t =>
      (∀ b, b ∈ s.pendingBlks → (t.blk b).state = .applied ∧ (t.blk b).code = 0) ∧
      (∀ b, b ∉ s.pendingBlks → t.blk b = s.blk b) ∧
      ∀ q j (b : Fin 18), findReg q.addr = some q → q.acc = .st → blockOf q.addr = some b → j < 0x100000 →
        (b.val ∈ s.pendingBlks → t.rg q j = s.stg q j ∧ t.stg q j = t.rg q j) ∧
        (b.val ∉ s.pendingBlks → t.rg q j = s.rg q j ∧ t.stg q j = s.stg q j)) := by
  refine .of_next (exec_stageIdleApply_of_pass hon hrun hc hbs h hn) ⟨fun b hb => ?_, fun b hb => ?_,
    fun q j b hq ha hqb hj => ?_⟩
  · rw [applySet_pass_blk hbs, if_pos hb]
    exact ⟨rfl, rfl⟩
  · rw [applySet_pass_blk hbs, if_neg hb]
  · obtain ⟨hrg, hstg⟩ := applySet_pass_setup hbs hs hq ha hqb hj
    refine ⟨fun hb => ?_, fun hb => ?_⟩
    · rw [if_pos hb] at hrg
      exact ⟨hrg, hstg.trans hrg.symm⟩
    · rw [if_neg hb] at hrg
      exact ⟨hrg, hstg⟩

/-- A write of FIELD_GO drives the balls whose levels it changes (R776). -/
theorem fieldGoWrite_runs (hon : s.isOn 1 = true) (v : W32) : Runs (.fieldGoWrite v) s (fun t =>
    t = { s with regs := t.regs, outputs := t.outputs } ∧ SameRegsBut s t [regKey FIELD_GO 0] ∧
    (∀ n, n < 16 → bitOf (t.rg FIELD_GO) n = bitOf v n) ∧
    (∀ n, n < 16 → t.goLevel n = if s.isOn 22 = true ∧ bitOf (s.rg FIELD_GO_OWN) n = true then bitOf v n
      else s.goLevel n) ∧
    ∃ o, t.outputs = s.outputs ++ o ∧ ∀ x, x ∈ o ↔ ∃ n, n < 16 ∧ t.goLevel n ≠ s.goLevel n ∧
      x = .ball (.go n) (if t.goLevel n then .high else .low)) := by
  let u := s.setRg FIELD_GO 0 (v &&& FIELD_GO.mask)
  refine .of_eq (exec_fieldGoWrite hon v) (effectGo_eq s u) ⟨rfl, sameRegsBut_setRg _ _ _ _,
    fun n hn => ?_, fun n hn => ?_, goChanges s u (List.range 16), rfl, fun x => mem_goChanges⟩
  · exact (congrArg (bitOf · n) (State.setRg_rg_self s FIELD_GO 0 _)).trans (bitOf_mask_FIELD_GO v hn)
  · exact (setRg_FIELD_GO_goLevel s (v &&& FIELD_GO.mask) n).trans (by rw [bitOf_mask_FIELD_GO v hn])

/-- An output that enters overload is counted (R776, R789). -/
theorem goOverload_runs (hon : s.isOn 22 = true) (n : Fin 16) (th p : Bool) :
    let k := n.val + if th then 16 else 0
    Runs (.goOverload n th p) s (fun t => t = { s with regs := t.regs, go := t.go } ∧
      t.go = { s.go with ovl := t.go.ovl } ∧ (∀ i, bitOf t.go.ovl i = if i = k then p else bitOf s.go.ovl i) ∧
      SameRegsBut s t [regKey FIELD_GO_FAULTS 0] ∧ t.rg FIELD_GO_FAULTS =
        if p = true ∧ bitOf s.go.ovl k = false then satAdd (s.rg FIELD_GO_FAULTS) 1
        else s.rg FIELD_GO_FAULTS) := by
  intro k
  have hk : k < 32 := by
    have := n.isLt
    simp only [k]
    split <;> omega
  obtain ⟨ht, hs, hrg⟩ := bumpIf_spec s FIELD_GO_FAULTS (p = true ∧ bitOf s.go.ovl k = false)
  refine .of_next (exec_goOverload hon n th p) ⟨?_, ?_, getLsbD_setBit s.go.ovl hk p, hs, hrg⟩
  · rw [ht]
  · rw [ht]

end Effects

/-- Settles O60, command by command. -/
theorem registersStageCommitAndClear : Obligations.RegistersStageCommitAndClear := by
  intro s refusal isOpen
  have hopen (b : Fin 18) (h : isOpen b) : (s.blk b).open_ = true := (open_iff _).mpr h
  have hclosed (b : Fin 18) (h : ¬ isOpen b) : (s.blk b).open_ = false := (open_eq_false _).mpr h
  have hrefuse (b : Fin 18) : refusal s (s.refuseStaged b) b := refuses_refuseStaged s b
  refine ⟨fun a v hoff => ⟨exec_registerWrite_off hoff a v, exec_rcCounterRead_off hoff a⟩,
    fun hon a v => ?_, fun b v hoff => ?_, fun hon b => ?_, exec_stageIdleApply_of_not,
    fun hon hrun hs hc => ?_, fun v hoff => exec_fieldGoWrite_off hoff v, fun hon v => fieldGoWrite_runs hon v,
    fun n th p l => ?_⟩
  · intro n own
    have hw (t : State) (h : s.bar0Write n v = t) : exec (.registerWrite a v) s = .next t := by
      rw [exec_registerWrite hon, h]
    refine ⟨fun h => hw s (bar0Write_nowhere v h), fun b q hb h4 => ?_, rcCounterRead_runs hon a⟩
    refine ⟨fun ho hown hq ha hl => ?_, fun ho hown h => hw s ?_, fun ho ho' h => hw s ?_,
      fun ho ho' => hw s (bar0Write_high v hb ho ho'), fun ⟨hq, ha, hqb⟩ hown hl hop => ?_,
      fun ⟨hq, ha, hqb⟩ hown hl hop => ?_⟩
    · exact registerWrite_rw hon v hb h4 ho hown hq ha ((writeIgnored_eq_false s q).mpr hl)
    · exact bar0Write_active_idle (q := q) v hb h4 ho hown
        (h.imp_right fun ⟨hq, h⟩ => ⟨hq, h.imp_left (writeIgnored_eq_true s q).mpr⟩)
    · exact bar0Write_view_idle (q := q) v hb h4 ho ho'
        (h.imp_right fun ⟨hq, h⟩ => ⟨hq, h.imp_left (writeIgnored_eq_true s q).mpr⟩)
    · have hst := bar0Write_staged v hb h4 hown hq ha ((writeIgnored_eq_false s q).mpr hl)
      exact .of_next (hw _ (hst.trans (writeStage_open v hqb (hopen b hop)))) (hrefuse b)
    · have hst := bar0Write_staged v hb h4 hown hq ha ((writeIgnored_eq_false s q).mpr hl)
      exact .of_next (hw _ (hst.trans (writeStage_closed v hqb (hclosed b hop)))) ⟨rfl, stg_tset _ _⟩
  · exact ⟨exec_stageCommit_off hoff b true, exec_stageCommit_off hoff b false, exec_stageDiscard_off hoff b,
      exec_sysCommitAll_off hoff v⟩
  · intro pend done discards
    refine ⟨fun h => ⟨?_, ?_, ?_⟩, fun h => ⟨?_, ?_, ?_⟩, fun v => ⟨fun hv => ?_, fun hv => ?_⟩⟩
    · rw [exec_stageCommit hon, commit_of_open (hopen b h)]
    · exact .of_eq (exec_stageCommit_discard hon) (commit_discard_of_open (hopen b h)) (hrefuse b)
    · exact .of_eq (exec_stageDiscard hon) (discard_of_open (hopen b h)) (hrefuse b)
    · rw [exec_stageCommit hon, commit_of_closed (hclosed b h)]
      rfl
    · obtain ⟨t, ht, ⟨hr, hstg⟩, hrest⟩ := stageCommit_discard_runs hon (hclosed b h)
      exact ⟨t, ht, ⟨hr, fun q j _ => hstg q j⟩, hrest⟩
    · have hd := discard_of_closed (hclosed b h)
      exact .of_next (exec_stageDiscard hon)
        ⟨⟨by rw [hd], fun q j _ hj => discard_stg (hclosed b h) q hj⟩, by rw [hd]⟩
    · rw [exec_sysCommitAll hon, State.commitAllBlocks, hv]
      rfl
    · exact .of_next (exec_sysCommitAll hon v) ⟨(commitAllBlocks_spec s hv).1, commitAllBlocks_blk s hv b⟩
  · intro bs
    have hbs : bs = s.pendingBlks := rfl
    clear_value bs
    subst hbs
    refine ⟨fun hb => ?_, fun code c hb hf => stageIdleApply_runs_of_fail hon hrun hc hb hf,
      fun hb hf hn => stageIdleApply_runs_of_pass hon hrun hs hc hb hf hn⟩
    rw [exec_stageIdleApply hon hrun, hb, checkSet_nil, applyChecked_of_none hc]
  · exact ⟨fun hoff => ⟨exec_goOverload_off hoff n th p, exec_giInputChange_off hoff n l⟩,
      fun hon => ⟨goOverload_runs hon n th p,
        .of_next (exec_giInputChange hon n l) ⟨rfl, getLsbD_setBit s.go.giF n.isLt l⟩⟩⟩

end Sys2Proof.Machine

namespace Sys2Proof.Machine

/-! ## The beat of the control cycle (R14, R15, R18) -/

/-- What a command answers has the beat that the state had. -/
def BeatKept (s : State) : Host.Outcome State Fault Refusal → Prop
  | .next t => t.cyc.beat = s.cyc.beat
  | _ => True

@[simp] theorem beatKept_next {s t : State} : BeatKept s (.next t) ↔ t.cyc.beat = s.cyc.beat := Iff.rfl

@[simp] theorem beatKept_ite {s : State} (c : Prop) [Decidable c] (a b : Host.Outcome State Fault Refusal) :
    BeatKept s (if c then a else b) ↔ if c then BeatKept s a else BeatKept s b := by
  split <;> rfl

section Rows
variable (s : State)

/-! ### The dispatcher, the engines and the link -/

theorem execUpCellArrival_beat (p : Fin 4) (rx : RxCell) : BeatKept s (execUpCellArrival p rx s) := by
  have hu : (s.ownRx p rx).1.cyc.beat = s.cyc.beat := State.ownRx_beat ..
  unfold execUpCellArrival
  generalize s.ownRx p rx = q at hu
  obtain ⟨u, own, ok⟩ := q
  change u.cyc.beat = s.cyc.beat at hu
  dsimp only
  repeat' split
  all_goals simp [hu]

theorem execDrawerMigration_beat : BeatKept s (execDrawerMigration s) := by
  unfold execDrawerMigration
  split <;> simp

theorem execStageDispatch_beat (ecc : Option (Fin 1024)) : BeatKept s (execStageDispatch ecc s) := by
  unfold execStageDispatch
  split <;> simp

theorem execStageComplete_beat (e : Fin 24) : BeatKept s (execStageComplete e s) := by
  simp only [execStageComplete]
  repeat' split
  all_goals simp

theorem execFlowRelease_beat (f : BitVec 6) : BeatKept s (execFlowRelease f s) := by
  simp only [execFlowRelease]
  repeat' split
  all_goals simp

theorem execXferComplete_beat (e : Fin 24) : BeatKept s (execXferComplete e s) := by
  unfold execXferComplete
  split <;> simp

theorem execLdmScrub_beat (e : Fin 24) (a : BitVec 14) (ecc : Ecc) : BeatKept s (execLdmScrub e a ecc s) := by
  cases ecc <;> simp [execLdmScrub]

theorem execSfpI2CDone_beat (p : Fin 5) (nack : Bool) (data : BitVec 8) :
    BeatKept s (execSfpI2CDone p nack data s) := by
  simp only [execSfpI2CDone]
  split <;> simp

theorem execAdminResponse_beat (p : Fin 4) (rx : RxCell) : BeatKept s (execAdminResponse p rx s) := by
  simp only [execAdminResponse, beatKept_ite]
  split
  · simp
  · split <;> simp

theorem pollRing_beat (u : State) (r : Nat) (x : Ring) (c : State → Bool) :
    (if c (u.setRing r x) then (u.setRing r x).sendUnfold r else u.setRing r x).cyc.beat = u.cyc.beat := by
  split <;> simp

theorem execRestorePoll_beat (r : Fin 2) : BeatKept s (execRestorePoll r s) := by
  unfold execRestorePoll
  dsimp only
  split
  · rfl
  · exact (foldl_beat _ (fun _ _ => State.startAdm_beat ..) _ _).trans
      ((pollRing_beat _ _ _ (fun v => _)).trans (State.upTo_beat ..))

/-! ### Feedback and the general outputs -/

theorem execEdgeQuarantineExpire_beat (n : Fin 8) (z : Bool) : BeatKept s (execEdgeQuarantineExpire n z s) := by
  unfold execEdgeQuarantineExpire
  split <;> simp

theorem execSsiFrameEnd_beat (n : Fin 8) (bits : BitVec 40) (stopHigh : Bool) :
    BeatKept s (execSsiFrameEnd n bits stopHigh s) := by
  simp only [execSsiFrameEnd]
  split <;> simp

theorem execGoPulseEnd_beat (k : BitVec 8) : BeatKept s (execGoPulseEnd k s) := by
  simp only [execGoPulseEnd]
  split <;> simp

/-! ### Twin and Brake Guard -/

theorem twinJoined_beat (u : State) :
    ({ u with twin.partnerOk := false }.enterTwin .active 0).cyc.beat = u.cyc.beat := State.enterTwin_beat ..

theorem execTwinJoinTimeout_beat : BeatKept s (execTwinJoinTimeout s) := by
  unfold execTwinJoinTimeout
  dsimp only
  split
  · rfl
  · exact (twinJoined_beat _).trans (State.upTo_beat ..)

theorem execTestPulseEnd_beat (b : Bool) (n : Fin 8) (off back : Bool) :
    BeatKept s (execTestPulseEnd b n off back s) := by
  simp only [execTestPulseEnd]
  split
  · rfl
  · split <;> simp

theorem sbtPushed_beat (u : State) (x : Sbt) (c : Nat) (q : Rat) :
    ({ u with seals.sbt := some x }.sbtTorque c (some q)).cyc.beat = u.cyc.beat := State.sbtTorque_beat ..

theorem sbtPassed_beat (u : State) (c n : Nat) (p : Table W32) (cmd : Option Cmd) :
    ({ u.sbtTorque c none with seals.sbt := none, seals.sbtLast := n, seals.sbtPass := p }.complete
      cmd 0).cyc.beat = u.cyc.beat := (State.complete_beat ..).trans (State.sbtTorque_beat u c none)

theorem execSbtStep_beat : BeatKept s (execSbtStep s) := by
  unfold execSbtStep
  split
  · rfl
  · split
    · rfl
    · dsimp only
      split
      · exact (sbtPushed_beat ..).trans (State.upTo_beat ..)
      · exact (sbtPushed_beat ..).trans (State.upTo_beat ..)
      · exact (sbtPassed_beat ..).trans (State.upTo_beat ..)

theorem execGuardLockoutExpire_beat (b : Bool) : BeatKept s (execGuardLockoutExpire b s) := by
  simp only [execGuardLockoutExpire]
  split
  · rfl
  · split <;> simp

/-! ### The host interface -/

theorem execCqEntryWrite_beat (n : Fin 64) : BeatKept s (execCqEntryWrite n s) := by
  simp only [execCqEntryWrite]
  split <;> simp

theorem execFwVerifyDone_beat (ok : Bool) : BeatKept s (execFwVerifyDone ok s) := by
  unfold execFwVerifyDone
  split <;> simp

theorem execRcCounterRead_beat (a : BitVec 24) : BeatKept s (execRcCounterRead a s) := by
  simp only [execRcCounterRead]
  split
  · rfl
  · split <;> simp

end Rows

/-- Every command that is not the cycle's own keeps the beat: the rows that look first keep it on each way they
take, and what a descriptor, a Loop Engine word or another row answers is an operation of Laws/Beat. -/
theorem exec_beatKept (c : Instr) (s : State) (hc : c.movesBeat = false) : BeatKept s (exec c s) := by
  cases c
  case cycleRun | cycleStop | cycleEnd | hingePoint | commitSetCheck | sampleInstant | carrierTrain |
      deadlineAbort | drainComplete | registerWrite | powerFailTrigger | powerOn | resetNAssert | holdRestart |
      softColdReset | softCoreReset | bootWatchdog | vioFail => cases hc
  case upCellArrival => exact execUpCellArrival_beat ..
  case drawerMigration => exact execDrawerMigration_beat ..
  case stageDispatch => exact execStageDispatch_beat ..
  case stageComplete => exact execStageComplete_beat ..
  case flowRelease => exact execFlowRelease_beat ..
  case xferComplete => exact execXferComplete_beat ..
  case ldmScrub => exact execLdmScrub_beat ..
  case sfpI2CDone => exact execSfpI2CDone_beat ..
  case adminResponse => exact execAdminResponse_beat ..
  case restorePoll => exact execRestorePoll_beat ..
  case edgeQuarantineExpire => exact execEdgeQuarantineExpire_beat ..
  case ssiFrameEnd => exact execSsiFrameEnd_beat ..
  case goPulseEnd => exact execGoPulseEnd_beat ..
  case twinJoinTimeout => exact execTwinJoinTimeout_beat ..
  case testPulseEnd => exact execTestPulseEnd_beat ..
  case sbtStep => exact execSbtStep_beat ..
  case guardLockoutExpire => exact execGuardLockoutExpire_beat ..
  case cqEntryWrite => exact execCqEntryWrite_beat ..
  case fwVerifyDone => exact execFwVerifyDone_beat ..
  case rcCounterRead => exact execRcCounterRead_beat ..
  -- the dispatcher, the engines, the recorder and acquisition
  case placementWindow | imRewrite | leExcLogRead | fastRow | trigIoEdge | acqPageTimeout | periodicFlushDue |
      supplySample | resetHeldEntry =>
    simp [exec, execPlacementWindow, execImRewrite, execLeExcLogRead, execFastRow, execTrigIoEdge,
      execAcqPageTimeout, execPeriodicFlushDue, execSupplySample, execResetHeldEntry]
  -- feedback, PWM and the axes
  case quadEdge | hallAccept | ssiFrameStart | sdCompTrip | modStuck | lineFault | diffPolarity | stepEdge |
      pwmZero | pwmSyncIn | dlCalibration | camTableReady | wireBreak =>
    simp [exec, execQuadEdge, execHallAccept, execSsiFrameStart, execSdCompTrip, execModStuck, execLineFault,
      execDiffPolarity, execStepEdge, execPwmZero, execPwmSyncIn, execDlCalibration, execCamTableReady,
      execWireBreak]
  -- the link, the rings, time and the twin
  case linkUp | intakeQuietExpire | locateReturn | sfpI2CRead | sfpI2CWrite | carrierReturn | ioUpReturn |
      cellDiscard | ptpMessage | slewComplete | timeBtLoRead | twDigestReceive | twSwitchReceive =>
    simp [exec, execLinkUp, execIntakeQuietExpire, execLocateReturn, execSfpI2CRead, execSfpI2CWrite,
      execCarrierReturn, execIoUpReturn, execCellDiscard, execPtpMessage, execSlewComplete, execTimeBtLoRead,
      execTwDigestReceive, execTwSwitchReceive]
  -- the Brake Guard
  case guardDecision | xmonHeartbeat | xmonTimeout | switchShort | switchStuck | switchOpen | brakeOpenLoad |
      testPulseStart | sbtDue | selftestComplete | uncorrectableSramError | ownOscillatorCheckFailure |
      parameterCrcError =>
    simp [exec, execGuardDecision, execXmonHeartbeat, execXmonTimeout, execSwitchShort, execSwitchStuck,
      execSwitchOpen, execBrakeOpenLoad, execTestPulseStart, execSbtDue, execSelftestComplete,
      execUncorrectableSramError, execOwnOscillatorCheckFailure, execParameterCrcError]
  -- the host interface, power, start-up and staging
  case itmrExpire | ringCfgWrite | hostEnable | hostDisable | pcieLinkUp | hostInterfaceReset | hostWatchdog |
      cabIdleExpire | entryComplete | wakeEvent | leaveOffComplete | resetRelease | imageCheckComplete | hostReady |
      perstNRise | stageCommit | stageDiscard | sysCommitAll | stageIdleApply | fieldGoWrite | goOverload |
      giInputChange =>
    simp [exec, execItmrExpire, execRingCfgWrite, execHostEnable, execHostDisable, execPcieLinkUp,
      execHostInterfaceReset, execHostWatchdog, execCabIdleExpire, execEntryComplete, execWakeEvent,
      execLeaveOffComplete, execResetRelease, execImageCheckComplete, execHostReady, execPerstNRise,
      execStageCommit, execStageDiscard, execSysCommitAll, execStageIdleApply, execFieldGoWrite, execGoOverload,
      execGiInputChange]
  -- the descriptors, the Loop Engines' words, and the rows that answer without looking
  all_goals
    refine beatKept_next.mpr ?_
    simp

/-- Settles O6. -/
theorem onlyCycleCommandsMoveTheBeat : Obligations.OnlyCycleCommandsMoveTheBeat := by
  intro c s t hc h
  have hk := exec_beatKept c s hc
  rw [h] at hk
  exact hk

end Sys2Proof.Machine

namespace Sys2Proof.Machine

/-! ## Start and stop of the cycle (R14 to R16, R59) -/

section StartStop

/-! ### The fields of DISP_CYC_CTL -/

theorem bitsOf_limit (v : W32) : bitsOf v 11 8 = (v.extractLsb' 8 4).toNat := by
  simp [bitsOf]

theorem bitsOf_limit_of_run (limit : BitVec 4) :
    bitsOf (BitVec.ofNat 32 (limit.toNat * 256 + 1)) 11 8 = limit.toNat := by
  revert limit
  decide

theorem bitsOf_limit_of_stop (limit : BitVec 4) :
    bitsOf (BitVec.ofNat 32 (limit.toNat * 256)) 11 8 = limit.toNat := by
  revert limit
  decide

theorem bitOf_run_of_run (limit : BitVec 4) : bitOf (BitVec.ofNat 32 (limit.toNat * 256 + 1)) 0 = true := by
  revert limit
  decide

theorem bitOf_run_of_stop (limit : BitVec 4) : bitOf (BitVec.ofNat 32 (limit.toNat * 256)) 0 = false := by
  revert limit
  decide

/-- OVR_LIMIT stored into a word of DISP_CYC_CTL. -/
def storeLimit (v : W32) (limit : BitVec 4) : W32 := (v &&& ~~~ (0xF00 : W32)) ||| BitVec.ofNat 32 (limit.toNat * 256)

theorem storeLimit_limit (v : W32) (limit : BitVec 4) : bitsOf (storeLimit v limit) 11 8 = limit.toNat := by
  have hl : (BitVec.ofNat 32 (limit.toNat * 256)).extractLsb' 8 4 = limit := by
    revert limit
    decide
  rw [bitsOf_limit, storeLimit, BitVec.extractLsb'_or, BitVec.extractLsb'_and, hl]
  simp

theorem storeLimit_run (v : W32) (limit : BitVec 4) : bitOf (storeLimit v limit) 0 = bitOf v 0 := by
  have hl : (BitVec.ofNat 32 (limit.toNat * 256))[0] = false := by
    revert limit
    decide
  simp [bitOf, storeLimit, hl]

theorem setRun_limit (v : W32) (on : Bool) :
    bitsOf (if on then v ||| 1 else v &&& ~~~ (1 : W32)) 11 8 = bitsOf v 11 8 := by
  have hm : (~~~ (1 : W32)).extractLsb' 8 4 = BitVec.allOnes 4 := by decide
  rw [bitsOf_limit, bitsOf_limit]
  cases on
  · simp only [Bool.false_eq_true, if_false, BitVec.extractLsb'_and, hm, BitVec.and_allOnes]
  · simp [BitVec.extractLsb'_or]

theorem setRun_run (v : W32) (on : Bool) : bitOf (if on then v ||| 1 else v &&& ~~~ (1 : W32)) 0 = on := by
  cases on <;> simp [bitOf]

/-! ### A write of DISP_CYC_CTL -/

variable (s : State) (limit : BitVec 4)

/-- The state with OVR_LIMIT written, which a 0 leaves as it was (R59). -/
def State.withLimit (s : State) (limit : BitVec 4) : State :=
  if limit = 0 then s else s.setRg DISP_CYC_CTL 0 (storeLimit (s.rg DISP_CYC_CTL) limit)

theorem writeCycCtl_run :
    s.writeCycCtl (BitVec.ofNat 32 (limit.toNat * 256 + 1)) = (s.withLimit limit).cycleRun := by
  simp [State.writeCycCtl, bitsOf_limit_of_run, bitOf_run_of_run, State.withLimit, storeLimit, BitVec.toNat_eq]

theorem writeCycCtl_stop :
    s.writeCycCtl (BitVec.ofNat 32 (limit.toNat * 256)) = (s.withLimit limit).cycleStop := by
  simp [State.writeCycCtl, bitsOf_limit_of_stop, bitOf_run_of_stop, State.withLimit, storeLimit, BitVec.toNat_eq]

theorem withLimit_eq : s.withLimit limit = { s with regs := (s.withLimit limit).regs } := by
  unfold State.withLimit
  split <;> rfl

theorem withLimit_sameRegsBut : SameRegsBut s (s.withLimit limit) [regKey DISP_CYC_CTL 0] := by
  unfold State.withLimit
  split
  · exact .refl s _
  · exact sameRegsBut_setRg _ _ _ _

theorem withLimit_limit : (s.withLimit limit).rf DISP_CYC_CTL 0 11 8 =
    if limit = 0 then s.rf DISP_CYC_CTL 0 11 8 else limit.toNat := by
  unfold State.withLimit
  split
  · rfl
  · rw [State.rf, State.setRg_rg_self, storeLimit_limit]

theorem withLimit_run : bitOf ((s.withLimit limit).rg DISP_CYC_CTL) 0 = bitOf (s.rg DISP_CYC_CTL) 0 := by
  unfold State.withLimit
  split
  · rfl
  · rw [State.setRg_rg_self, storeLimit_run]

theorem withLimit_anyAxis : (s.withLimit limit).anyAxis = s.anyAxis := by
  rw [withLimit_eq]
  rfl

/-- The state with RUN and OVR_LIMIT of DISP_CYC_CTL written. -/
def State.withCtl (s : State) (limit : BitVec 4) (on : Bool) : State := (s.withLimit limit).setRun1 on

theorem withCtl_eq (on : Bool) : s.withCtl limit on = { s with regs := (s.withCtl limit on).regs } := by
  unfold State.withCtl State.setRun1
  rw [withLimit_eq]
  rfl

theorem withCtl_sameRegsBut (on : Bool) : SameRegsBut s (s.withCtl limit on) [regKey DISP_CYC_CTL 0] :=
  (withLimit_sameRegsBut s limit).setRg _ (List.mem_singleton_self _)

theorem withCtl_limit (on : Bool) : (s.withCtl limit on).rf DISP_CYC_CTL 0 11 8 =
    if limit = 0 then s.rf DISP_CYC_CTL 0 11 8 else limit.toNat := by
  rw [← withLimit_limit, State.rf, State.withCtl, State.setRun1, State.setRg_rg_self, setRun_limit, State.rf]

theorem withCtl_run (on : Bool) : bitOf ((s.withCtl limit on).rg DISP_CYC_CTL) 0 = on := by
  rw [State.withCtl, State.setRun1, State.setRg_rg_self, setRun_run]

/-- The write leaves PERIOD and BT, and with them the first T0, as they were. -/
theorem withCtl_firstT0 (on : Bool) : (s.withCtl limit on).firstT0 = s.firstT0 := by
  have hper : (s.withCtl limit on).rg DISP_CYC_PERIOD = s.rg DISP_CYC_PERIOD :=
    withCtl_sameRegsBut s limit on _ _ (by decide)
  have hbt : (s.withCtl limit on).bt = s.bt := by rw [withCtl_eq]
  simp only [State.firstT0, State.rf, hper, hbt]

theorem withCtl_cyc (on : Bool) : (s.withCtl limit on).cyc = s.cyc := by rw [withCtl_eq]

theorem set_cyc_of_eq {t : State} {c : Cyc} (h : t.cyc = c) : { t with cyc := c } = t := by
  subst h
  rfl

/-- A write of 1 to RUN: the cycle starts at its first T0, or a pending stop is withdrawn (R14). -/
theorem exec_cycleRun {s : State} (hon : s.isOn 1 = true) : exec (.cycleRun limit) s =
    .next { s.withCtl limit true with cyc := if s.cyc.running then { s.cyc with stopPend := false }
      else { s.cyc with running := true, stopPend := false, checked := false, nextT0 := s.firstT0,
                        phase := .idle } } := by
  have hc : ((s.withLimit limit).setRun1 true).cyc = s.cyc := withCtl_cyc s limit true
  have ht : ((s.withLimit limit).setRun1 true).firstT0 = s.firstT0 := withCtl_firstT0 s limit true
  simp only [exec, execCycleRun, hon, writeCycCtl_run, State.cycleRun, hc, ht, State.withCtl]
  cases s.cyc.running <;> rfl

/-- A write of 0 to RUN while an axis is enabled (R16). -/
theorem exec_cycleStop_of_axis {s : State} (hon : s.isOn 1 = true) (ha : s.anyAxis = true) :
    exec (.cycleStop limit) s = .next ((s.withLimit limit).post 0x0C03 .warn 0) := by
  simp [exec, execCycleStop, hon, writeCycCtl_stop, State.cycleStop, withLimit_anyAxis, ha]

/-- A write of 0 to RUN while none is: a running cycle has its stop pending (R15). -/
theorem exec_cycleStop_of_none {s : State} (hon : s.isOn 1 = true) (ha : s.anyAxis = false) :
    exec (.cycleStop limit) s = .next { s.withCtl limit false with
      cyc := if s.cyc.running then { s.cyc with stopPend := true } else s.cyc } := by
  have hc : ((s.withLimit limit).setRun1 false).cyc = s.cyc := withCtl_cyc s limit false
  simp only [exec, execCycleStop, hon, writeCycCtl_stop, State.cycleStop, withLimit_anyAxis, ha, hc, State.withCtl]
  cases s.cyc.running
  · exact congrArg Host.Outcome.next (set_cyc_of_eq hc).symm
  · rfl

/-- The least multiple of `p` from `n` on. -/
theorem nextMultiple_spec {p : Nat} (n : Nat) (hp : 0 < p) :
    ((n + p - 1) / p * p) % p = 0 ∧ n ≤ (n + p - 1) / p * p ∧ (n + p - 1) / p * p < n + p := by
  have hd := Nat.div_add_mod (n + p - 1) p
  have hm := Nat.mod_lt (n + p - 1) hp
  rw [Nat.mul_comm] at hd
  exact ⟨Nat.mul_mod_left .., by omega, by omega⟩

/-- The first T0 is the first multiple of PERIOD at least 100 µs after now (R14). -/
theorem firstT0_spec (hp : 12500 ≤ s.rf DISP_CYC_PERIOD 0 19 0) (hq : s.rf DISP_CYC_PERIOD 0 19 0 ≤ 1000000)
    (hb : s.bt.toNat + 1100000 < 2 ^ 64) :
    s.firstT0.toNat % s.rf DISP_CYC_PERIOD 0 19 0 = 0 ∧ s.bt.toNat + 100000 ≤ s.firstT0.toNat ∧
      s.firstT0.toNat < s.bt.toNat + 100000 + s.rf DISP_CYC_PERIOD 0 19 0 := by
  unfold State.firstT0
  generalize s.rf DISP_CYC_PERIOD 0 19 0 = p at *
  obtain ⟨hmul, hlow, hhigh⟩ := nextMultiple_spec (s.bt.toNat + 100000) (show 0 < p by omega)
  have hmax : max 1 p = p := by omega
  have hlt := Nat.mod_eq_of_lt (show (s.bt.toNat + 100000 + p - 1) / p * p < 2 ^ 64 by omega)
  rw [hmax, BitVec.toNat_ofNat, hlt]
  exact ⟨hmul, hlow, hhigh⟩

end StartStop

/-- Settles O10. -/
theorem cycleRunFixesTheFirstT0 : Obligations.CycleRunFixesTheFirstT0 := by
  intro s limit hon p hp hq hb
  refine .of_next (exec_cycleRun limit hon) ⟨?_, ?_, withCtl_run s limit true, fun hr => ?_, fun hr => ?_,
    withCtl_sameRegsBut s limit true, ?_⟩
  · cases hr : s.cyc.running <;> simp [hr]
  · cases s.cyc.running <;> simp
  · simp only [hr, Bool.false_eq_true, if_false]
    exact firstT0_spec s hp hq hb
  · simp only [hr, if_true]
  · rw [withCtl_eq]

/-- Settles O11. -/
theorem cycleStopEndsOrIsRefused : Obligations.CycleStopEndsOrIsRefused := by
  intro s limit hon lim want
  refine ⟨.of_next (exec_cycleRun limit hon) (withCtl_limit s limit true), fun ha => ?_, fun ha => ?_⟩
  · refine .of_next (exec_cycleStop_of_none limit hon ha) ⟨withCtl_run s limit false, withCtl_limit s limit false,
      rfl, withCtl_sameRegsBut s limit false, ?_⟩
    rw [withCtl_eq]
  · exact .of_next (exec_cycleStop_of_axis limit hon ha) ⟨_, rfl, withLimit_run s limit, withLimit_limit s limit,
      withLimit_sameRegsBut s limit, withLimit_eq s limit⟩

end Sys2Proof.Machine

namespace Sys2Proof.Machine

/-! ## The scrubber (R51, R52, R775) -/

/-- The states differ at most in the registers and in the scrubber's own place and sweeps. -/
def Scrubbed (s t : State) : Prop :=
  t = { s with regs := t.regs, cyc := { s.cyc with scrubUnit := t.cyc.scrubUnit, sweeps := t.cyc.sweeps } }

theorem Scrubbed.trans {s t u : State} (h : Scrubbed s t) (h' : Scrubbed t u) : Scrubbed s u := by
  unfold Scrubbed at *
  rw [h', h]

theorem Scrubbed.cyc {s t : State} (h : Scrubbed s t) :
    t.cyc = { s.cyc with scrubUnit := t.cyc.scrubUnit, sweeps := t.cyc.sweeps } := congrArg State.cyc h

theorem Scrubbed.eq {s t : State} (h : Scrubbed s t) : t = { s with regs := t.regs, cyc := t.cyc } := by
  rw [h.cyc]
  exact h

section Scrubber
variable (s : State)

theorem scrubbed_countCabEcc (ecc : Ecc) (a : Nat) : Scrubbed s (s.countCabEcc ecc a) := by
  cases ecc <;> rfl

theorem countCabEcc_cyc (ecc : Ecc) (a : Nat) : (s.countCabEcc ecc a).cyc = s.cyc := by
  cases ecc <;> rfl

theorem countCabEcc_sameRegsBut (ecc : Ecc) (a : Nat) : SameRegsBut s (s.countCabEcc ecc a)
    [regKey CAB_ECC_CORR 0, regKey CAB_ECC_UE 0, regKey CAB_UE_ADDR 0, regKey CAB_SWEEPS 0] := by
  cases ecc
  · exact .refl s _
  · exact (SameRegsBut.refl s _).setRg _ (by simp)
  · exact ((SameRegsBut.refl s _).setRg _ (by simp)).setRg _ (by simp)

theorem countCabEcc_corr (ecc : Ecc) (a : Nat) : (s.countCabEcc ecc a).rg CAB_ECC_CORR =
    if ecc = .corrected then satAdd (s.rg CAB_ECC_CORR) 1 else s.rg CAB_ECC_CORR := by
  cases ecc
  · rfl
  · exact State.setRg_rg_self ..
  · exact (sameRegsBut_setRg _ _ _ _ _ _ (by decide)).trans (sameRegsBut_setRg _ _ _ _ _ _ (by decide))

theorem countCabEcc_ue (ecc : Ecc) (a : Nat) : (s.countCabEcc ecc a).rg CAB_ECC_UE =
    if ecc = .uncorrectable then satAdd (s.rg CAB_ECC_UE) 1 else s.rg CAB_ECC_UE := by
  cases ecc
  · rfl
  · exact sameRegsBut_setRg _ _ _ _ _ _ (by decide)
  · exact (sameRegsBut_setRg _ _ _ _ _ _ (by decide)).trans (State.setRg_rg_self ..)

theorem countCabEcc_addr (a : Nat) :
    (s.countCabEcc .uncorrectable a).rg CAB_UE_ADDR = BitVec.ofNat 32 (2 ^ 31 + a) := State.setRg_rg_self ..

theorem scrubbed_sweepDone : Scrubbed s s.sweepDone := by
  unfold State.sweepDone
  split <;> rfl

theorem sweepDone_scrubUnit : s.sweepDone.cyc.scrubUnit = s.cyc.scrubUnit := by
  unfold State.sweepDone
  split <;> rfl

theorem sweepDone_sameRegsBut : SameRegsBut s s.sweepDone [regKey CAB_SWEEPS 0] := by
  unfold State.sweepDone
  split
  · exact sameRegsBut_setRg { s with cyc.sweeps := [] } _ _ _
  · exact .refl s _

/-- The scrubber comes to unit `v` of bank `b`; the first unit ends the bank's part of a sweep (R52). -/
def State.toUnit (s : State) (b v : Nat) : State :=
  let s := { s with cyc.scrubUnit := tset 0 s.cyc.scrubUnit b v }
  if v = 0 then { s with cyc.sweeps := tset false s.cyc.sweeps b true }.sweepDone else s

theorem scrubbed_toUnit (b v : Nat) : Scrubbed s (s.toUnit b v) := by
  unfold State.toUnit
  split
  · exact .trans (t := { s with cyc := { s.cyc with scrubUnit := _, sweeps := _ } }) rfl (scrubbed_sweepDone _)
  · rfl

theorem toUnit_scrubUnit (b v : Nat) : (s.toUnit b v).cyc.scrubUnit = tset 0 s.cyc.scrubUnit b v := by
  unfold State.toUnit
  split
  · exact sweepDone_scrubUnit _
  · rfl

theorem toUnit_sameRegsBut (b v : Nat) : SameRegsBut s (s.toUnit b v) [regKey CAB_SWEEPS 0] := by
  unfold State.toUnit
  split
  · exact sweepDone_sameRegsBut { s with cyc := { s.cyc with scrubUnit := _, sweeps := _ } }
  · exact .refl s _

end Scrubber

/-- A grant: the decoder's find is counted, and the scrubber comes to the next unit. -/
theorem exec_scrubGrant {s : State} {bank : Fin 8} (hon : s.isOn (7 + bank.val) = true) (ecc : Ecc) (w : Fin 16) :
    exec (.scrubGrant bank ecc w) s =
      .next ((s.countCabEcc ecc (bank.val * 0x100000 + tget 0 s.cyc.scrubUnit bank.val * 64 + 4 * w.val)).toUnit
        bank.val ((tget 0 s.cyc.scrubUnit bank.val + 1) % 16384)) :=
  congrArg Host.Outcome.next (if_neg (by rw [hon]; exact Bool.false_ne_true))

/-- Settles O13. -/
theorem scrubberVisitsItsUnits : Obligations.ScrubberVisitsItsUnits := by
  intro s bank ecc w hon u
  refine .of_next (exec_scrubGrant hon ecc w) ?_
  have ha : BitVec.ofNat 32 (2 ^ 31 + (bank.val * 0x100000 + u * 64 + 4 * w.val)) =
    ((s.countCabEcc .uncorrectable (bank.val * 0x100000 + u * 64 + 4 * w.val)).rg CAB_UE_ADDR) :=
      (countCabEcc_addr s _).symm
  rw [ha]
  generalize bank.val * 0x100000 + u * 64 + 4 * w.val = a
  let v := s.countCabEcc ecc a
  have hunits : (v.toUnit bank.val ((u + 1) % 16384)).cyc.scrubUnit =
      tset 0 s.cyc.scrubUnit bank.val ((u + 1) % 16384) := by
    rw [toUnit_scrubUnit, countCabEcc_cyc]
  have hregs := toUnit_sameRegsBut v bank.val ((u + 1) % 16384)
  have hrest := (scrubbed_countCabEcc s ecc a).trans (scrubbed_toUnit v bank.val ((u + 1) % 16384))
  refine ⟨?_, fun k hk => ?_, (hregs _ _ (by decide)).trans (countCabEcc_corr s ecc a),
    (hregs _ _ (by decide)).trans (countCabEcc_ue s ecc a), fun he => ?_,
    (countCabEcc_sameRegsBut s ecc a).trans fun q j hq => hregs q j ?_, hrest.cyc, hrest.eq⟩
  · rw [hunits, tget_tset_self]
  · rw [hunits, tget_tset_ne 0 _ _ hk]
  · subst he
    exact hregs _ _ (by decide)
  · simp only [List.mem_cons, not_or] at hq ⊢
    obtain ⟨-, -, -, hsweeps⟩ := hq
    exact hsweeps

end Sys2Proof.Machine

namespace Sys2Proof.Machine

/-! ## The steps of a cycle (R15, R18, R27 to R48) -/

section Steps

/-- A beat, field by field. -/
theorem beat_eq_iff (c : Cyc) (b : Beat) : c.beat = b ↔ c.running = b.running ∧ c.stopPend = b.stopPend ∧
    c.phase = b.phase ∧ c.count = b.count ∧ c.t0 = b.t0 ∧ c.checked = b.checked ∧ c.sampled = b.sampled ∧
    c.trainSent = b.trainSent := by
  cases b
  simp only [Cyc.beat, Beat.mk.injEq]

variable (s : State)

theorem commitCheck_beat : s.commitCheck.cyc.beat = { s.cyc.beat with checked := true } :=
  State.checkSet_beat ..

theorem takeSamples_beat (lines : List (Nat × Bool)) :
    (s.takeSamples lines).cyc.beat = { s.cyc.beat with sampled := true } := by
  unfold State.takeSamples
  extract_lets c s1 s2 s3 s4
  have h1 : s1.cyc.beat = { s.cyc.beat with sampled := true } := State.upTo_beat ..
  have h2 : s2.cyc.beat = s1.cyc.beat := by
    unfold s2
    split
    · exact foldl_beat _ State.sampleNear_beat ..
    · rfl
  have h4 : s4.cyc.beat = s2.cyc.beat := (State.upTo_beat ..).trans (State.sampleRows_beat s2 lines)
  have h5 (u : State) (p : Nat × Nat) :
      (if u.nearOn && !u.sdAny p.2 then u.extArrive p.1 1 else u).cyc.beat = u.cyc.beat := by
    split
    · exact State.extArrive_beat ..
    · rfl
  exact (foldl_beat _ h5 ..).trans (h4.trans (h2.trans h1))

theorem carrierTrain_beat (h : (s.cyc.running && s.cyc.phase == .active && !s.cyc.trainSent) = true) :
    s.carrierTrain.cyc.beat = { s.cyc.beat with trainSent := true } := by
  unfold State.carrierTrain
  rw [if_pos h]
  have hd (u : State) (d : Nat) : (if u.dirActive d then u.sendTrains d else u).cyc.beat = u.cyc.beat := by
    split
    · exact State.sendTrains_beat ..
    · rfl
  exact (foldl_beat _ hd ..).trans (State.upTo_beat ..)

/-- The phase is all that the deadline changes of the beat. -/
theorem deadlineAbort_beat : s.deadlineAbort.cyc.beat = { s.cyc.beat with phase := .drain } := by
  unfold State.deadlineAbort
  extract_lets s1 overs s2 s3 s4 done
  have h1 : s1.cyc.beat = s.cyc.beat := (State.startAll_beat ..).trans (State.upTo_beat ..)
  have h2 : s2.cyc.beat = s1.cyc.beat := foldl_beat _ (fun _ _ => State.overrun_beat ..) ..
  have h3 : s3.cyc.beat = s2.cyc.beat := by simp [s3]
  have h4 : s4.cyc.beat = s3.cyc.beat := by
    unfold s4
    split
    · rfl
    · exact State.bump_beat ..
  have h5 : (s4.keepMax DISP_CYC_DONE_MAX 0 done).loadMax.cyc.beat = s.cyc.beat := by
    rw [State.loadMax_beat, State.keepMax_beat, h4, h3, h2, h1]
  exact congrArg (fun b : Beat => { b with phase := .drain }) h5

/-- The phase is all that the end of the drain changes of the beat. -/
theorem drainComplete_beat : s.drainComplete.cyc.beat = { s.cyc.beat with phase := .sill } := by
  unfold State.drainComplete
  extract_lets s1
  have h1 : s1.cyc.beat = s.cyc.beat := State.upTo_beat ..
  exact ((State.sendDigests_beat ..).trans (State.healEchoes_beat ..)).trans
    (congrArg (fun b : Beat => { b with phase := .sill }) h1)

/-- What is left of a cycle changes the phase at most. -/
theorem finishCycle_beat : ∃ p, s.finishCycle.cyc.beat = { s.cyc.beat with phase := p } := by
  unfold State.finishCycle
  extract_lets s1
  have h1 : ∃ p, s1.cyc.beat = { s.cyc.beat with phase := p } := by
    unfold s1
    split
    · exact ⟨_, deadlineAbort_beat s⟩
    · exact ⟨_, rfl⟩
  obtain ⟨p, h1⟩ := h1
  split
  · exact ⟨_, (drainComplete_beat s1).trans (congrArg (fun b : Beat => { b with phase := .sill }) h1)⟩
  · exact ⟨p, h1⟩

theorem finishCycle_of_sill {s : State} (h : s.cyc.phase = .sill) : s.finishCycle = s := by
  simp [State.finishCycle, h]

/-- A new cycle begins at the T0 that was fixed, with no step of it done (R18). -/
theorem nextCycle_beat : s.nextCycle.cyc.beat = { s.cyc.beat with
    count := s.cyc.count + 1, t0 := s.cyc.nextT0, phase := .active, checked := false, sampled := false,
    trainSent := false } := by
  unfold State.nextCycle
  extract_lets t0 s1
  have h1 : s1.cyc.beat = s.cyc.beat := by
    simp only [s1, State.countWindow_beat, State.abortAllBg_beat, State.resolveGroups_beat, State.endRows_beat,
      State.upTo_beat]
  clear_value s1
  obtain ⟨hrun, hstop, -, hcount, -⟩ := (beat_eq_iff ..).mp h1
  change Beat.mk s1.cyc.running s1.cyc.stopPend _ (s1.cyc.count + 1) _ _ _ _ = _
  rw [hrun, hstop, hcount]
  rfl

theorem hingeStages_beat : s.hingeStages.cyc.beat = s.cyc.beat := by
  unfold State.hingeStages
  extract_lets s1 late s2 c s3
  have h1 : s1.cyc.beat = s.cyc.beat := (State.disableBad_beat ..).trans (State.applyChecked_beat ..)
  have h2 : s2.cyc.beat = s1.cyc.beat := foldl_beat late (fun _ _ => State.setBlk_beat ..) (List.range 18) s1
  clear_value s2
  have h3 := ((State.applyCntSets_beat _).trans (State.domHinge_beat _)).trans
    ((State.twinAtT0_beat _).trans (State.applyPends_beat s3))
  exact h3.trans (h2.trans h1)

/-- The commit set is checked before the hinge point at the latest. -/
def State.hingeChecked (s : State) : State :=
  if s.cyc.checked then s else (s.upTo (s.cyc.nextT0 - BitVec.ofNat 64 s.hingeLead)).commitCheck

theorem hingeChecked_beat : s.hingeChecked.cyc.beat = { s.cyc.beat with checked := true } := by
  unfold State.hingeChecked
  split
  · next h =>
    change s.cyc.beat = { s.cyc.beat with checked := true }
    rw [← h]
    rfl
  · exact (commitCheck_beat _).trans (congrArg (fun b : Beat => { b with checked := true }) (State.upTo_beat ..))

/-- Everything a hinge point does after the count has moved on keeps the beat. -/
theorem hinge_beat_eq : s.hinge.cyc.beat = s.finishCycle.hingeChecked.nextCycle.cyc.beat := by
  unfold State.hinge
  extract_lets s1 s2 s3 s4 s5
  have h3 : s3.cyc.beat = s2.nextCycle.cyc.beat := (State.advanceAll_beat _).trans (State.freezeMs_beat _)
  have h4 : s4.cyc.beat = s3.cyc.beat := ((State.hingeQueue_beat _).trans (State.hingeMirrors_beat _)).trans
    (hingeStages_beat s3)
  have h5 : s5.cyc.beat = s4.cyc.beat := ((State.deliverHeld_beat _).trans (State.startRuns_beat _)).trans
    (State.makeRuns_beat s4)
  have h6 := ((State.noteLost_beat _).trans (State.clearPosted_beat _)).trans
    ((State.hingeSends_beat _).trans (State.pwmHinge_beat s5))
  exact h6.trans (h5.trans (h4.trans h3))

theorem hinge_beat : s.hinge.cyc.beat = { s.cyc.beat with
    count := s.cyc.count + 1, t0 := s.finishCycle.hingeChecked.cyc.nextT0, phase := .active, checked := false,
    sampled := false, trainSent := false } := by
  obtain ⟨p, hp⟩ := finishCycle_beat s
  have hc : s.finishCycle.hingeChecked.cyc.beat = { s.cyc.beat with phase := p, checked := true } :=
    (hingeChecked_beat _).trans (congrArg (fun b : Beat => { b with checked := true }) hp)
  rw [hinge_beat_eq, nextCycle_beat, hc]
  exact congrArg (fun b : Beat => { s.cyc.beat with
    count := b.count + 1, t0 := s.finishCycle.hingeChecked.cyc.nextT0, phase := .active, checked := false,
    sampled := false, trainSent := false }) hc

theorem hinge_t0 : s.hinge.cyc.t0 = s.finishCycle.hingeChecked.cyc.nextT0 := by
  obtain ⟨-, -, -, -, ht0, -⟩ := (beat_eq_iff ..).mp (hinge_beat s)
  exact ht0

/-- The end of cyclic operation (R15). -/
theorem cycleEnd_beat (h : (s.cyc.running && s.cyc.stopPend) = true) : ∃ u : State,
    u.cyc.beat = s.finishCycle.cyc.beat ∧ s.cycleEnd.cyc.beat =
      { u.cyc.beat with running := false, stopPend := false, phase := .idle, checked := false } := by
  unfold State.cycleEnd
  rw [if_pos h]
  extract_lets s1 s2 c s3 late
  refine ⟨s2, ?_, ?_⟩
  · simp only [s2, State.abortAllBg_beat, State.resolveGroups_beat, State.endRows_beat, State.upTo_beat, s1]
  · exact (State.applyChecked_beat ..).trans (foldl_beat late (fun _ _ => State.setBlk_beat ..) ..)

end Steps

/-! ### The five commands of a stopped cycle -/

theorem exec_of_stopped {s : State} (hr : s.cyc.running = false) :
    ∀ c ∈ [Instr.hingePoint, .carrierTrain, .deadlineAbort, .drainComplete, .cycleEnd], exec c s = .next s := by
  rw [List.forall_mem_cons, List.forall_mem_cons, List.forall_mem_cons, List.forall_mem_cons,
    List.forall_mem_singleton]
  exact ⟨congrArg Host.Outcome.next (if_neg (by simp [hr])), congrArg Host.Outcome.next (if_neg (by simp [hr])),
    if_neg (by simp [hr]), congrArg Host.Outcome.next (if_neg (by simp [hr])),
    congrArg Host.Outcome.next (if_neg (by simp [hr]))⟩

/-! ### The rows -/

section StepRows
variable {s : State}

theorem exec_hingePoint (hr : s.cyc.running = true) (hs : s.cyc.stopPend = false) :
    exec .hingePoint s = .next s.hinge := by
  simp [exec, execHingePoint, State.hingePoint, hr, hs]

theorem exec_commitSetCheck (hr : s.cyc.running = true) (hc : s.cyc.checked = false) :
    exec .commitSetCheck s = .next s.hingeChecked := by
  simp [exec, execCommitSetCheck, State.hingeChecked, hr, hc]

theorem exec_sampleInstant (hr : s.cyc.running = true) (hp : s.cyc.phase = .active) (hs : s.cyc.sampled = false)
    (lines : List (Nat × Bool)) : exec (.sampleInstant lines) s = .next (s.takeSamples lines) := by
  simp [exec, execSampleInstant, hr, hp, hs]

theorem exec_deadlineAbort (hr : s.cyc.running = true) (hp : s.cyc.phase = .active) :
    exec .deadlineAbort s = .next s.deadlineAbort := by
  simp [exec, execDeadlineAbort, hr, hp]

theorem exec_drainComplete (hr : s.cyc.running = true) (hp : s.cyc.phase = .drain) :
    exec .drainComplete s = .next s.drainComplete := by
  simp [exec, execDrainComplete, State.drainCompleteRow, hr, hp]

end StepRows

/-- Settles O12, command by command. -/
theorem cycleStepsInTheirPhases : Obligations.CycleStepsInTheirPhases := by
  intro s
  refine ⟨fun hr hs => .of_next (exec_hingePoint hr hs) ⟨?_, fun hp hc => ?_⟩,
    fun hr hc => .of_next (exec_commitSetCheck hr hc) (hingeChecked_beat s),
    fun hr hp hs lines => .of_next (exec_sampleInstant hr hp hs lines) (takeSamples_beat s lines),
    fun hr hp ht => .of_next rfl (carrierTrain_beat s (by simp [hr, hp, ht])),
    fun hr hp => .of_next (exec_deadlineAbort hr hp) (deadlineAbort_beat s),
    fun hr hp => .of_next (exec_drainComplete hr hp) (drainComplete_beat s),
    fun hr hs => .of_next rfl ?_, exec_of_stopped⟩
  · rw [hinge_t0]
    exact hinge_beat s
  · rw [hinge_t0, finishCycle_of_sill hp, State.hingeChecked, if_pos hc]
  · obtain ⟨p, hp⟩ := finishCycle_beat s
    obtain ⟨u, hu, he⟩ := cycleEnd_beat s (by rw [hr, hs]; rfl)
    obtain ⟨-, -, -, hcount, -⟩ := (beat_eq_iff ..).mp (hu.trans hp)
    obtain ⟨hrun, hstop, hphase, hcount', -⟩ := (beat_eq_iff ..).mp he
    exact ⟨hrun, hstop, hphase, hcount'.trans hcount⟩

end Sys2Proof.Machine

namespace Sys2Proof.Machine

/-! ## DRAWER_MIGRATION of a context above 255 (R83, R718) -/

/-- A planned group that fits what is left of the sill moves, and the plan loses it (R83). -/
theorem exec_drawerMigration {s : State} {g : List Move}
    (hg : s.livePlan.find? (fun g => g.all (fun m => !s.ctxRunning m.ctx)) = some g)
    (hp : s.cyc.phase = .sill) (hm : s.cyc.moves + g.length ≤ min 4 (s.rf DISP_PLACE 0 2 0)) :
    exec .drawerMigration s = .next ((g.foldl State.migrate { s with disp.plan := s.livePlan.erase g }).upTo
      (s.bt + BitVec.ofNat 64 (64 * g.length))) := by
  change execDrawerMigration s = _
  unfold execDrawerMigration
  rw [hg]
  exact if_pos (by rw [hp, decide_eq_true hm]; rfl)

/-- The context whose cabinet home lies in the bank whose PWR_ACC_OFF stands where DISP_MIG_COUNT does. -/
def farCtx : Nat := 256 * (regKey DISP_MIG_COUNT 0 - regKey PWR_ACC_OFF 0 - 7)

theorem farCtx_bank : regKey PWR_ACC_OFF (bankDom (farCtx * 4096)) = regKey DISP_MIG_COUNT 0 := by decide +kernel

/-- In the sill, the move of `farCtx` to engine 0 is planned: the context is enabled, the bank of its home is
OFF, and DOMAIN_ACCESS has been posted for it. -/
def farPlan : State :=
  { regs := [(regKey DISP_TPL_HDR_HI farCtx, 0x80000000)], cyc := { phase := .sill }
    disp := { plan := [[⟨farCtx, 0⟩]] }
    pwr := { dom := [(bankDom (farCtx * 4096), { st := .off, accPosted := true })] } }

theorem farPlan_moves :
    farPlan.livePlan.find? (fun g => g.all (fun m => !farPlan.ctxRunning m.ctx)) = some [⟨farCtx, 0⟩] ∧
      farPlan.cyc.moves + 1 ≤ min 4 (farPlan.rf DISP_PLACE 0 2 0) := by decide +kernel

/-- The one move of the plan raises DISP_MIG_COUNT by 2: its access to the bank is counted there too. -/
theorem farPlan_migCount : farPlan.rg DISP_MIG_COUNT = 0 ∧
    ((([⟨farCtx, 0⟩] : List Move).foldl State.migrate
      { farPlan with disp.plan := farPlan.livePlan.erase [⟨farCtx, 0⟩] }).upTo
        (farPlan.bt + BitVec.ofNat 64 64)).rg DISP_MIG_COUNT = 2 := by decide +kernel

/-- Refutes O15, in its clause on DRAWER_MIGRATION: the statement takes any state, with contexts of any number
in the plan. The move of one above 255 reaches a bank that does not exist, PWR_ACC_OFF counts that access under
the bank's number, and for `farCtx` this is the word of DISP_MIG_COUNT: one move raises it by 2. -/
theorem not_dispatcherRowsDoTheirPart : ¬ Obligations.DispatcherRowsDoTheirPart := by
  intro h
  obtain ⟨hfind, hfits⟩ := farPlan_moves
  obtain ⟨hbefore, hafter⟩ := farPlan_migCount
  obtain ⟨-, -, -, -, -, -, -, -, -, -, hmigration, -⟩ := h farPlan
  obtain ⟨t, ht, -, -, hcount, -⟩ := hmigration _ hfind rfl hfits
  rw [exec_drawerMigration hfind rfl hfits] at ht
  cases ht
  rw [hbefore] at hcount
  exact absurd (hafter.symm.trans hcount) (by decide)

end Sys2Proof.Machine

namespace Sys2Proof.Machine

/-! ## Descriptors that take effect -/

/-- Where a descriptor takes effect, its row does what `apply` does to the state in which it has been taken. -/
theorem runDesc_of_ready {s : State} {op : BitVec 8} {d : Desc} (h : Ready s op d)
    (apply : Desc → Option Cmd → State → State) :
    s.runDesc op d apply = apply d (some (cmdOf s op d)) (taken s op d) := by
  obtain ⟨hon, hfetch, hgate⟩ := h
  unfold taken at hgate
  unfold State.runDesc State.atHinge cmdOf taken
  generalize fetchCheck op d = f at hfetch ⊢
  generalize s.fetchCmd op d = p at hgate ⊢
  subst hfetch
  simp only [hon, hgate, Bool.not_true, Bool.false_eq_true, if_false]

theorem Takes.of_runDesc {c : Instr} {s : State} {op : BitVec 8} {d : Desc}
    {apply : Desc → Option Cmd → State → State} {P : State → Option Cmd → State → Prop}
    (hd : c.desc? = some (op, d)) (hexec : exec c s = .next (s.runDesc op d apply))
    (hP : ∀ u k, P u k (apply d k u)) : Takes c s P := by
  intro op' d' hd' hready
  obtain ⟨rfl, rfl⟩ : op = op' ∧ d = d' := by simpa [hd] using hd'
  exact .of_eq hexec (runDesc_of_ready hready apply) (hP _ _)

end Sys2Proof.Machine

namespace Sys2Proof.Machine

/-! ## What moves no stage of a run: the ledger, the shelves, the trace (R74, R86 to R90, R96) -/

/-- No stage of any run. -/
def noStage : Nat → Nat → Prop := fun _ _ => False

/-- Stage `i` of context `c`. -/
def oneStage (c i : Nat) : Nat → Nat → Prop := fun k j => k = c ∧ j = i

theorem not_noStage {c i : Nat} : ¬ noStage c i := id

/-- Only the stages that `S` holds of change, besides the tokens issued and retired, the shelves, the counters,
the lost marks of runs and the trace; no stage word of a template changes. -/
structure StagesOnly (S : Nat → Nat → Prop) (s t : State) : Prop where
  frame : t = { s with runs := t.runs, flows := t.flows, disp := t.disp, regs := t.regs, host := t.host
                       streams := t.streams, outputs := t.outputs }
  dropped : t.disp.tok.dropped = s.disp.tok.dropped
  stray : t.disp.tok.stray = s.disp.tok.stray
  cqs : t.host.cqs = s.host.cqs
  ledger : t.host.ledger = s.host.ledger
  words : ∀ c i, c < 256 → i < 16 → t.stw c i = s.stw c i
  stages : ∀ c i, ¬ S c i → t.stage? c i = s.stage? c i

namespace StagesOnly
variable {S S' : Nat → Nat → Prop} {s t u : State}

/-- The registers and the runs stay. -/
theorem of_kept (frame : t = { s with flows := t.flows, disp := t.disp, host := t.host, streams := t.streams
                                      outputs := t.outputs })
    (hdropped : t.disp.tok.dropped = s.disp.tok.dropped) (hstray : t.disp.tok.stray = s.disp.tok.stray)
    (hcqs : t.host.cqs = s.host.cqs) (hledger : t.host.ledger = s.host.ledger) : StagesOnly S s t := by
  have hregs : t.regs = s.regs := by rw [frame]
  have hruns : t.runs = s.runs := by rw [frame]
  refine ⟨?_, hdropped, hstray, hcqs, hledger, fun c i _ _ => ?_, fun c i _ => ?_⟩
  · rw [hregs, hruns]
    exact frame
  · simp only [State.stw, State.rg64, State.rg, hregs]
  · simp only [State.stage?, State.run, hruns]

theorem refl (s : State) : StagesOnly S s s := .of_kept rfl rfl rfl rfl rfl

theorem trans (h : StagesOnly S s t) (h' : StagesOnly S t u) : StagesOnly S s u where
  frame := by
    have e := h'.frame
    rw [h.frame] at e
    exact e
  dropped := h'.dropped.trans h.dropped
  stray := h'.stray.trans h.stray
  cqs := h'.cqs.trans h.cqs
  ledger := h'.ledger.trans h.ledger
  words c i hc hi := (h'.words c i hc hi).trans (h.words c i hc hi)
  stages c i hci := (h'.stages c i hci).trans (h.stages c i hci)

theorem mono (h : StagesOnly S s t) (hS : ∀ c i, S c i → S' c i) : StagesOnly S' s t :=
  { h with stages := fun c i hci => h.stages c i (fun hm => hci (hS c i hm)) }

theorem weaken (h : StagesOnly noStage s t) : StagesOnly S s t := h.mono fun _ _ => False.elim

theorem ite {p : Prop} [Decidable p] (h : StagesOnly S s t) (h' : StagesOnly S s u) :
    StagesOnly S s (if p then t else u) := by
  split
  · exact h
  · exact h'

theorem foldl {β : Type} {f : State → β → State} {l : List β} (h : ∀ u, ∀ x ∈ l, StagesOnly S u (f u x))
    (s : State) : StagesOnly S s (l.foldl f s) := by
  induction l generalizing s with
  | nil => exact .refl s
  | cons a l ih =>
    exact (h s a List.mem_cons_self).trans (ih (fun u x hx => h u x (List.mem_cons_of_mem a hx)) _)

theorem engs (h : StagesOnly S s t) : t.engs = s.engs := by rw [h.frame]
theorem ctxs (h : StagesOnly S s t) : t.ctxs = s.ctxs := by rw [h.frame]
theorem eng (h : StagesOnly S s t) (e : Nat) : t.eng e = s.eng e := by rw [State.eng, h.engs, ← State.eng]
theorem ctx (h : StagesOnly S s t) (c : Nat) : t.ctx c = s.ctx c := by rw [State.ctx, h.ctxs, ← State.ctx]

end StagesOnly

/-! ### Stages of a run -/

section Stages
variable {S : Nat → Nat → Prop} {s : State} {c i : Nat} {r : CtxRun} {x y : StageRun}

theorem run_of_stage? (h : s.stage? c i = some y) : ∃ r, s.run c = some r := by
  obtain ⟨r, hr, -⟩ := Option.bind_eq_some_iff.mp h
  exact ⟨r, hr⟩

theorem stage?_of_run (h : s.run c = some r) (i : Nat) : s.stage? c i = tget none r.stages i := by
  rw [State.stage?, h, Option.bind_some]

theorem setRun_stage?_self (s : State) (c : Nat) (r : CtxRun) (i : Nat) :
    (s.setRun c r).stage? c i = tget none r.stages i := stage?_of_run (State.setRun_run_self s c r) i

theorem setRun_stage?_ne (s : State) {c k : Nat} (r : CtxRun) (h : k ≠ c) (i : Nat) :
    (s.setRun c r).stage? k i = s.stage? k i := by
  rw [State.stage?, State.setRun_run_ne s c r k h, ← State.stage?]

theorem setStage_of_run (h : s.run c = some r) (i : Nat) (x : StageRun) :
    s.setStage c i x = s.setRun c { r with stages := tset none r.stages i (some x) } := by
  rw [State.setStage, h]

/-- A stage of a run reads as it was set. -/
theorem setStage_stage?_self (h : s.stage? c i = some y) (x : StageRun) :
    (s.setStage c i x).stage? c i = some x := by
  obtain ⟨r, hr⟩ := run_of_stage? h
  rw [setStage_of_run hr, setRun_stage?_self, tget_tset_self]

theorem stagesOnly_setRun (h : ∀ i, ¬ S c i → tget none r.stages i = s.stage? c i) :
    StagesOnly S s (s.setRun c r) where
  frame := rfl
  dropped := rfl
  stray := rfl
  cqs := rfl
  ledger := rfl
  words _ _ _ _ := rfl
  stages k i hki := by
    by_cases hk : k = c
    · subst hk
      rw [setRun_stage?_self, h i hki]
    · exact setRun_stage?_ne s r hk i

theorem stagesOnly_setStage (s : State) (c i : Nat) (x : StageRun) :
    StagesOnly (oneStage c i) s (s.setStage c i x) := by
  unfold State.setStage
  split
  · next r hr =>
    refine stagesOnly_setRun fun j hj => ?_
    have hji : j ≠ i := fun e => hj ⟨rfl, e⟩
    rw [stage?_of_run hr, tget_tset_ne none r.stages _ hji]
  · exact .refl s

/-- A run that loses its output keeps its stages. -/
theorem stagesOnly_loseRun (s : State) (c : Nat) : StagesOnly noStage s (s.loseRun c) := by
  unfold State.loseRun
  split
  · next r hr => exact stagesOnly_setRun fun j _ => (stage?_of_run hr j).symm
  · exact .refl s

end Stages

/-! ### Counters and the trace -/

/-- A register outside the stage words of the templates is set. -/
theorem stagesOnly_setRg (s : State) {r : Reg} {k : Nat} (v : W32) (hr : r.addr < 0x10110 ∨ 0x10190 ≤ r.addr)
    (hk : k < 0x100000) : StagesOnly noStage s (s.setRg r k v) where
  frame := rfl
  dropped := rfl
  stray := rfl
  cqs := rfl
  ledger := rfl
  words c i hc hi := by
    have hlo : (DISP_TPL_ST_LO i).addr ≠ r.addr := by simp only [DISP_TPL_ST_LO]; omega
    have hhi : (DISP_TPL_ST_HI i).addr ≠ r.addr := by simp only [DISP_TPL_ST_HI]; omega
    simp only [State.stw, State.rg64, State.setRg_rg_addr s r _ k v c hlo hk (by omega),
      State.setRg_rg_addr s r _ k v c hhi hk (by omega)]
  stages _ _ _ := rfl

theorem stagesOnly_bump (s : State) {r : Reg} {k : Nat} (hr : r.addr < 0x10110 ∨ 0x10190 ≤ r.addr)
    (hk : k < 0x100000) : StagesOnly noStage s (s.bump r k) := stagesOnly_setRg s _ hr hk

theorem stagesOnly_signal (s : State) (v : Nat) : StagesOnly noStage s (s.signal v) := by
  unfold State.signal
  refine .ite (.refl s) (.ite ?_ ?_) <;> exact .of_kept rfl rfl rfl rfl rfl

/-- The trace's ring holds no samples. -/
theorem stagesOnly_closePage (s : State) : StagesOnly noStage s (s.closePage 8) := by
  have hcount : s.countPage 8 = s := if_pos (Nat.le_refl 8)
  unfold State.closePage
  rw [hcount]
  extract_lets _ x t u v
  have hv : StagesOnly noStage s v := .of_kept rfl rfl rfl rfl rfl
  refine .trans (hv.trans ?_) (stagesOnly_signal _ _)
  exact .of_kept rfl rfl rfl rfl rfl

theorem stagesOnly_putRec (s : State) (r : Rec) : StagesOnly noStage s (s.putRec 8 r) := by
  unfold State.putRec
  extract_lets x y u
  have hu : StagesOnly noStage s u := .of_kept rfl rfl rfl rfl rfl
  exact .ite (hu.trans (stagesOnly_closePage u)) hu

theorem stagesOnly_trace (s : State) (ty : TrcTy) (c i flags eng arg0 arg1 : Nat) :
    StagesOnly noStage s (s.trace ty c i flags eng arg0 arg1) := by
  unfold State.trace
  extract_lets ctl sel u gap n gapRec src gapped r src'
  have hu : StagesOnly noStage s u := .of_kept rfl rfl rfl rfl rfl
  have hgapped : StagesOnly noStage s gapped := by
    refine .ite (hu.trans (.trans ?_ (stagesOnly_putRec _ _))) hu
    exact .of_kept rfl rfl rfl rfl rfl
  refine .ite (.refl s) (.ite (hgapped.trans (.trans ?_ (stagesOnly_putRec _ _))) (hu.trans ?_)) <;>
    exact .of_kept rfl rfl rfl rfl rfl

/-! ### The ledger and the shelves -/

theorem stagesOnly_issue (s : State) (n : Nat) : StagesOnly noStage s (s.issue n) := .of_kept rfl rfl rfl rfl rfl
theorem stagesOnly_retire (s : State) (n : Nat) : StagesOnly noStage s (s.retire n) := .of_kept rfl rfl rfl rfl rfl

theorem stagesOnly_retireStage (s : State) (c i : Nat) (x : StageRun) :
    StagesOnly noStage s (s.retireStage c i x) :=
  .trans (.ite (stagesOnly_issue _ _) (.refl _)) (stagesOnly_retire _ _)

theorem stagesOnly_setFlow (s : State) (f : Nat) (x : Flow) : StagesOnly noStage s (s.setFlow f x) :=
  .of_kept rfl rfl rfl rfl rfl

theorem stwFlow_lt (w : W64) : stwFlow w < 64 := Nat.mod_lt _ (by decide)

theorem stagesOnly_holeSlot (s : State) {f : Nat} (t : Nat) (hf : f < 64) :
    StagesOnly noStage s (s.holeSlot f t) := by
  unfold State.holeSlot
  dsimp only
  split
  · exact .refl s
  · have hbump (x : Flow) : StagesOnly noStage s ((s.setFlow f x).bump DISP_FLOW_HOLE f) :=
      (stagesOnly_setFlow s f x).trans (stagesOnly_bump _ (by decide) (by omega))
    exact .ite (.refl s) (.ite ((hbump _).trans (stagesOnly_loseRun _ _)) (hbump _))

theorem stagesOnly_holeEmpty (s : State) (c i : Nat) (x : StageRun) : StagesOnly noStage s (s.holeEmpty c i x) :=
  .foldl (fun u t _ => stagesOnly_holeSlot u t (stwFlow_lt _)) s

end Sys2Proof.Machine

namespace Sys2Proof.Machine

/-! ## The cancel of a run (R91 to R95) -/

/-! ### The stages that each operation may change -/

section Touched
variable (s : State) (c i : Nat) (x : StageRun)

theorem stagesOnly_makeReady : StagesOnly (oneStage c i) s (s.makeReady c i x) := by
  unfold State.makeReady
  refine .ite (stagesOnly_setStage _ _ _ _) (.trans ?_ (stagesOnly_setStage _ _ _ _))
  exact (stagesOnly_bump s (by decide) (Nat.lt_trans (stwFlow_lt _) (by decide))).weaken

theorem stagesOnly_markCancelled : StagesOnly (oneStage c i) s (s.markCancelled c i x) :=
  ((stagesOnly_retireStage s c i x).weaken).trans
    ((stagesOnly_setStage _ c i _).trans
      (((stagesOnly_holeEmpty _ c i x).trans (stagesOnly_trace _ _ _ _ _ _ _ _)).weaken))

/-- A token that is issued for a stage in the foreground. -/
theorem stagesOnly_issueFor (b : Bool) (S : Nat → Nat → Prop) : StagesOnly S s (if b then s else s.issue 1) :=
  .ite (.refl s) ((stagesOnly_issue s 1).weaken)

theorem stagesOnly_markTok : StagesOnly (oneStage c i) s (s.markTok c i) := by
  unfold State.markTok
  split
  · exact .refl s
  · exact .ite (.refl s) ((stagesOnly_issueFor s _ _).trans (stagesOnly_setStage _ _ _ _))

theorem stagesOnly_waive : StagesOnly (oneStage c i) s (s.waive c i) := by
  unfold State.waive
  split
  · exact .refl s
  · exact .ite (.refl s) (.ite ((stagesOnly_issueFor s _ _).trans (stagesOnly_setStage _ _ _ _))
      (stagesOnly_setStage _ _ _ _))

end Touched

/-- The stages that a context's run can have. -/
def stagesOf (c : Nat) : Nat → Nat → Prop := fun k j => k = c ∧ j < 16

theorem stagesOf_of_oneStage (c : Nat) {i : Nat} (hi : i < 16) : ∀ k j, oneStage c i k j → stagesOf c k j :=
  fun _ _ ⟨hk, hj⟩ => ⟨hk, hj ▸ hi⟩

theorem lt_of_mem_maskList {m : BitVec 16} {j : Nat} (h : j ∈ maskList m) : j < 16 :=
  List.mem_range.mp (List.mem_filter.mp h).1

theorem stagesOnly_settle (s : State) (c : Nat) {i : Nat} (hi : i < 16) : StagesOnly (stagesOf c) s (s.settle c i) := by
  have hsub := stagesOf_of_oneStage c hi
  unfold State.settle
  split
  · exact .refl s
  · refine .ite (.refl s) (.ite (.ite ((stagesOnly_makeReady s c i _).mono hsub) (.refl s)) ?_)
    refine ((stagesOnly_markCancelled s c i _).mono hsub).trans (.foldl (fun u j hj => ?_) _)
    exact (stagesOnly_markTok u c j).mono (stagesOf_of_oneStage c (lt_of_mem_maskList hj))

/-! ### A stage while others of its run are cancelled -/

/-- Cancel tokens lower the counter of a stage that still takes them, and change no other. -/
structure StageRun.Lowered (x y : StageRun) : Prop where
  st : y.st = x.st
  cnt : y.cnt ≤ x.cnt
  tok : x.cancelTok = true → y.cancelTok = true
  fixed : x.resolved = true ∨ x.cnt = 0 → y = x

theorem StageRun.Lowered.refl (x : StageRun) : x.Lowered x := ⟨rfl, Nat.le_refl _, id, fun _ => rfl⟩

theorem StageRun.Lowered.trans {x y z : StageRun} (h : x.Lowered y) (h' : y.Lowered z) : x.Lowered z where
  st := h'.st.trans h.st
  cnt := Nat.le_trans h'.cnt h.cnt
  tok := h'.tok ∘ h.tok
  fixed hx := by
    obtain rfl := h.fixed hx
    exact h'.fixed hx

/-- From `s` to `t` a stage of a run only takes cancel tokens. -/
def Lowers (c i : Nat) (s t : State) : Prop :=
  ∀ x, s.stage? c i = some x → ∃ y, t.stage? c i = some y ∧ x.Lowered y

theorem Lowers.of_eq {c i : Nat} {s t : State} (h : t.stage? c i = s.stage? c i) : Lowers c i s t :=
  fun x hx => ⟨x, h.trans hx, .refl x⟩

theorem Lowers.trans {c i : Nat} {s t u : State} (h : Lowers c i s t) (h' : Lowers c i t u) : Lowers c i s u := by
  intro x hx
  obtain ⟨y, hy, hxy⟩ := h x hx
  obtain ⟨z, hz, hyz⟩ := h' y hy
  exact ⟨z, hz, hxy.trans hyz⟩

theorem Lowers.foldl {c i : Nat} {f : State → Nat → State} {l : List Nat}
    (h : ∀ u, ∀ j ∈ l, Lowers c i u (f u j)) (s : State) : Lowers c i s (l.foldl f s) := by
  induction l generalizing s with
  | nil => exact .of_eq rfl
  | cons a l ih =>
    exact (h s a List.mem_cons_self).trans (ih (fun u j hj => h u j (List.mem_cons_of_mem a hj)) _)

section Own
variable {s : State} {c i j : Nat} {x : StageRun}

theorem markTok_of_closed (hx : s.stage? c i = some x) (h : x.resolved = true ∨ x.cnt = 0) :
    s.markTok c i = s := by
  simp only [State.markTok, hx]
  exact if_pos (by simpa using h)

theorem markTok_stage? (hx : s.stage? c i = some x) (hr : x.resolved = false) (h0 : x.cnt ≠ 0) :
    (s.markTok c i).stage? c i =
      some { x with cnt := x.cnt - 1, delivered := x.delivered + 1, cancelTok := true } := by
  simp only [State.markTok, hx]
  rw [if_neg (by simp [hr, h0])]
  refine setStage_stage?_self (y := x) ?_ _
  rw [(stagesOnly_issueFor s _ noStage).stages c i not_noStage, hx]

theorem markTok_lowers (s : State) (c i j : Nat) : Lowers c i s (s.markTok c j) := by
  by_cases hij : i = j
  · subst hij
    intro x hx
    by_cases h : x.resolved = true ∨ x.cnt = 0
    · exact ⟨x, by rw [markTok_of_closed hx h, hx], .refl x⟩
    · obtain ⟨hr, h0⟩ := not_or.mp h
      exact ⟨_, markTok_stage? hx (eq_false_of_ne_true hr) h0,
        ⟨rfl, Nat.sub_le _ _, fun _ => rfl, fun h' => absurd h' h⟩⟩
  · exact .of_eq ((stagesOnly_markTok s c j).stages c i fun h => hij h.2)

theorem settle_of_none (hx : s.stage? c i = none) : s.settle c i = s := by
  simp only [State.settle, hx]

theorem settle_of_resolved (hx : s.stage? c i = some x) (hr : x.resolved = true) : s.settle c i = s := by
  simp only [State.settle, hx, hr, if_true]

/-- A stage with ROC whose counter is 0 becomes ready (R93). -/
theorem settle_of_due (hx : s.stage? c i = some x) (hr : x.resolved = false) (hroc : stwRoc (s.stw c i) = true)
    (h0 : x.cnt = 0) : s.settle c i = s.makeReady c i x := by
  simp [State.settle, hx, hr, hroc, h0]

/-- A stage with ROC whose counter is not 0 goes on waiting (R93). -/
theorem settle_of_waiting (hx : s.stage? c i = some x) (hr : x.resolved = false)
    (hroc : stwRoc (s.stw c i) = true) (h0 : x.cnt ≠ 0) : s.settle c i = s := by
  simp [State.settle, hx, hr, hroc, h0]

/-- A stage without ROC is cancelled, with a token to each of its successors (R92). -/
theorem settle_of_not_roc (hx : s.stage? c i = some x) (hr : x.resolved = false)
    (hroc : stwRoc (s.stw c i) = false) : s.settle c i =
      (maskList (stwSucc ((s.markCancelled c i x).stw c i))).foldl (fun u k => u.markTok c k)
        (s.markCancelled c i x) := by
  simp [State.settle, hx, hr, hroc]

/-- What is settled for another stage gives a stage tokens alone. -/
theorem settle_lowers (s : State) (c : Nat) (hij : i ≠ j) : Lowers c i s (s.settle c j) := by
  have hne : ¬ oneStage c j c i := fun h => hij h.2
  rcases hx : s.stage? c j with _ | x
  · exact .of_eq (by rw [settle_of_none hx])
  rcases hr : x.resolved with _ | _
  · rcases hroc : stwRoc (s.stw c j) with _ | _
    · rw [settle_of_not_roc hx hr hroc]
      exact (Lowers.of_eq ((stagesOnly_markCancelled s c j x).stages c i hne)).trans
        (.foldl (fun u k _ => markTok_lowers u c i k) _)
    · by_cases h0 : x.cnt = 0
      · rw [settle_of_due hx hr hroc h0]
        exact .of_eq ((stagesOnly_makeReady s c j x).stages c i hne)
      · exact .of_eq (by rw [settle_of_waiting hx hr hroc h0])
  · exact .of_eq (by rw [settle_of_resolved hx hr])

/-! ### A stage as it is itself cancelled -/

theorem waive_of_resolved (hx : s.stage? c i = some x) (hr : x.resolved = true) : s.waive c i = s := by
  simp only [State.waive, hx, hr, if_true]

/-- A stage of a cancelled run holds a cancel token, and a pending external token is waived (R91, R94). -/
theorem waive_stage? (hx : s.stage? c i = some x) (hr : x.resolved = false) :
    ∃ y, (s.waive c i).stage? c i = some y ∧ y.st = x.st ∧ y.cancelTok = true ∧ y.cnt ≤ x.cnt ∧
      (x.cnt = 0 ∨ (x.cnt = 1 ∧ stwTok (s.stw c i) ≠ 0 ∧ x.extSeen = false) → y.cnt = 0) := by
  simp only [State.waive, hx, hr, Bool.false_eq_true, if_false]
  split
  · next h =>
    have hissue := (stagesOnly_issueFor s (stwBg (s.stw c i)) noStage).stages c i not_noStage
    refine ⟨_, setStage_stage?_self (hissue.trans hx) _, rfl, rfl, Nat.sub_le _ _, ?_⟩
    dsimp only
    omega
  · next h =>
    refine ⟨_, setStage_stage?_self hx _, rfl, rfl, Nat.le_refl _, ?_⟩
    rintro (h0 | ⟨h1, htok, hseen⟩)
    · exact h0
    · exact absurd (by simp [h1, htok, hseen]) h

theorem resolved_eq_of_st {x y : StageRun} (h : y.st = x.st) : y.resolved = x.resolved := by
  simp only [StageRun.resolved, h]

/-- A stage that becomes ready runs as a cancel run where it holds a cancel token, at once or with its credit
(R73, R88, R93). -/
theorem makeReady_stage? (hx : s.stage? c i = some x) :
    ∃ y, (s.makeReady c i x).stage? c i = some y ∧ y.cnt = x.cnt ∧ y.cancelTok = x.cancelTok ∧
      y.cancelRun = x.cancelTok ∧ (y.st = .ready ∨ y.st = .credit) := by
  unfold State.makeReady
  dsimp only
  split
  · exact ⟨_, setStage_stage?_self hx _, rfl, rfl, rfl, .inl rfl⟩
  · exact ⟨_, setStage_stage?_self (s := s.bump _ _) hx _, rfl, rfl, rfl, .inr rfl⟩

theorem markCancelled_stage? (hx : s.stage? c i = some x) :
    (s.markCancelled c i x).stage? c i = some { x with st := .cancelled, delivered := 0 } := by
  unfold State.markCancelled
  extract_lets u v w tag
  have hu : u.stage? c i = some x := ((stagesOnly_retireStage s c i x).stages c i not_noStage).trans hx
  have hv : v.stage? c i = some { x with st := .cancelled, delivered := 0 } := setStage_stage?_self hu _
  have hw : StagesOnly noStage v w := stagesOnly_holeEmpty v c i x
  exact ((hw.trans (stagesOnly_trace _ _ _ _ _ _ _ _)).stages c i not_noStage).trans hv

/-- A stage without ROC is resolved as cancelled (R92). -/
theorem settle_stage?_of_not_roc (hx : s.stage? c i = some x) (hr : x.resolved = false)
    (hroc : stwRoc (s.stw c i) = false) :
    (s.settle c i).stage? c i = some { x with st := .cancelled, delivered := 0 } := by
  rw [settle_of_not_roc hx hr hroc]
  obtain ⟨y, hy, hlow⟩ := Lowers.foldl (l := maskList (stwSucc ((s.markCancelled c i x).stw c i)))
    (fun u k _ => markTok_lowers u c i k) _ _ (markCancelled_stage? hx)
  rw [hy, hlow.fixed (.inl rfl)]

end Own

end Sys2Proof.Machine

namespace Sys2Proof.Machine

/-! ### The run as a whole -/

theorem range_split {n i : Nat} (hi : i < n) :
    ∃ l m : List Nat, List.range n = l ++ i :: m ∧ (∀ j ∈ l, j < n ∧ i ≠ j) ∧ ∀ j ∈ m, j < n ∧ i ≠ j := by
  obtain ⟨l, m, h⟩ := List.append_of_mem (List.mem_range.mpr hi)
  have hnd : (l ++ i :: m).Nodup := h ▸ List.nodup_range
  obtain ⟨-, him, hne⟩ := List.nodup_append.mp hnd
  obtain ⟨hm, -⟩ := List.nodup_cons.mp him
  have hl : i ∉ l := fun hil => hne i hil i List.mem_cons_self rfl
  have hmem (j : Nat) (hj : j ∈ l ++ i :: m) : j < n := List.mem_range.mp (h ▸ hj)
  exact ⟨l, m, h, fun j hj => ⟨hmem j (List.mem_append_left _ hj), fun e => hl (e ▸ hj)⟩,
    fun j hj => ⟨hmem j (List.mem_append_right _ (List.mem_cons_of_mem i hj)), fun e => hm (e ▸ hj)⟩⟩

theorem cancelRun_of_run {s : State} {c : Nat} {r : CtxRun} (hr : s.run c = some r) : s.cancelRun c =
    (List.range 16).foldl (fun u i => u.settle c i)
      ((List.range 16).foldl (fun u i => u.waive c i) (s.setRun c { r with cancelled := true })) := by
  simp only [State.cancelRun, hr]

theorem stagesOnly_markRun {s : State} {c : Nat} {r : CtxRun} (hr : s.run c = some r) :
    StagesOnly noStage s (s.setRun c { r with cancelled := true }) :=
  stagesOnly_setRun fun j _ => (stage?_of_run hr j).symm

section Folds
variable {l : List Nat} (hl : ∀ j ∈ l, j < 16) (s : State) (c : Nat)
include hl

theorem stagesOnly_foldl_waive : StagesOnly (stagesOf c) s (l.foldl (fun u j => u.waive c j) s) :=
  .foldl (fun u j hj => (stagesOnly_waive u c j).mono (stagesOf_of_oneStage c (hl j hj))) s

theorem stagesOnly_foldl_settle : StagesOnly (stagesOf c) s (l.foldl (fun u j => u.settle c j) s) :=
  .foldl (fun u j hj => stagesOnly_settle u c (hl j hj)) s

end Folds

theorem foldl_waive_stage? {l : List Nat} {i : Nat} (hl : ∀ j ∈ l, i ≠ j) (s : State) (c : Nat) :
    (l.foldl (fun u j => u.waive c j) s).stage? c i = s.stage? c i :=
  (StagesOnly.foldl (S := fun k j => ¬ oneStage c i k j) (fun u j hj => (stagesOnly_waive u c j).mono
    fun _ _ ⟨_, hk⟩ ⟨_, hk'⟩ => hl j hj (hk'.symm.trans hk)) s).stages c i fun h => h ⟨rfl, rfl⟩

theorem foldl_settle_lowers {l : List Nat} {i : Nat} (hl : ∀ j ∈ l, i ≠ j) (s : State) (c : Nat) :
    Lowers c i s (l.foldl (fun u j => u.settle c j) s) :=
  .foldl (fun u j hj => settle_lowers u c (hl j hj)) s

/-- A cancel reaches the stages of one run alone (R91). -/
theorem stagesOnly_cancelRun (s : State) (c : Nat) : StagesOnly (stagesOf c) s (s.cancelRun c) := by
  rcases hr : s.run c with _ | r
  · simp only [State.cancelRun, hr]
    exact .refl s
  · rw [cancelRun_of_run hr]
    have hl (j : Nat) (hj : j ∈ List.range 16) : j < 16 := List.mem_range.mp hj
    exact ((stagesOnly_markRun hr).weaken).trans
      ((stagesOnly_foldl_waive hl _ c).trans (stagesOnly_foldl_settle hl _ c))

section Course
variable {s : State} {c i : Nat} {x : StageRun}

/-- What a cancel does to one stage: it is waived in a state `a` in which it stands as before, and settled in a
state `b`; between and after the two it takes tokens of other stages alone. -/
theorem cancelRun_course (hc : c < 256) (hi : i < 16) (hx : s.stage? c i = some x) : ∃ a b : State,
    a.stage? c i = some x ∧ a.stw c i = s.stw c i ∧ Lowers c i (a.waive c i) b ∧
      b.stw c i = s.stw c i ∧ Lowers c i (b.settle c i) (s.cancelRun c) := by
  obtain ⟨r, hr⟩ := run_of_stage? hx
  obtain ⟨l, m, hrange, hl, hm⟩ := range_split hi
  have hl16 (j : Nat) (hj : j ∈ l) : j < 16 := (hl j hj).1
  have hm16 (j : Nat) (hj : j ∈ m) : j < 16 := (hm j hj).1
  have hlne (j : Nat) (hj : j ∈ l) : i ≠ j := (hl j hj).2
  have hmne (j : Nat) (hj : j ∈ m) : i ≠ j := (hm j hj).2
  have hmark := stagesOnly_markRun hr
  let a := l.foldl (fun u j => u.waive c j) (s.setRun c { r with cancelled := true })
  let w := m.foldl (fun u j => u.waive c j) (a.waive c i)
  let b := l.foldl (fun u j => u.settle c j) w
  have ha : StagesOnly (stagesOf c) s a :=
    (hmark.weaken).trans (stagesOnly_foldl_waive hl16 _ c)
  have hab : StagesOnly (stagesOf c) a b :=
    ((stagesOnly_waive a c i).mono (stagesOf_of_oneStage c hi)).trans
      ((stagesOnly_foldl_waive hm16 _ c).trans (stagesOnly_foldl_settle hl16 _ c))
  refine ⟨a, b, ?_, ha.words c i hc hi, ?_, (ha.trans hab).words c i hc hi, ?_⟩
  · rw [foldl_waive_stage? hlne, hmark.stages c i not_noStage, hx]
  · exact (Lowers.of_eq (foldl_waive_stage? hmne _ c)).trans (foldl_settle_lowers hlne w c)
  · have hend : s.cancelRun c = m.foldl (fun u j => u.settle c j) (b.settle c i) := by
      rw [cancelRun_of_run hr, hrange, List.foldl_append, List.foldl_cons, List.foldl_append, List.foldl_cons]
    rw [hend]
    exact foldl_settle_lowers hmne _ c

/-- A stage that runs or has been resolved stays (R91). -/
theorem cancelRun_of_resolved (hc : c < 256) (hi : i < 16) (hx : s.stage? c i = some x) (hr : x.resolved = true) :
    (s.cancelRun c).stage? c i = some x := by
  obtain ⟨a, b, ha, -, hab, -, hend⟩ := cancelRun_course hc hi hx
  rw [waive_of_resolved ha hr] at hab
  obtain ⟨y, hy, hxy⟩ := hab x ha
  obtain rfl := hxy.fixed (.inl hr)
  rw [settle_of_resolved hy hr] at hend
  obtain ⟨z, hz, hyz⟩ := hend y hy
  rw [hz, hyz.fixed (.inl hr)]

/-- A stage as a cancel comes to settle it: it holds a cancel token, and its counter has not risen (R91, R94). -/
theorem cancelRun_settles (hc : c < 256) (hi : i < 16) (hx : s.stage? c i = some x) (hr : x.resolved = false) :
    ∃ (b : State) (y : StageRun), b.stage? c i = some y ∧ y.resolved = false ∧ y.cancelTok = true ∧
      y.cnt ≤ x.cnt ∧
      (x.cnt = 0 ∨ (x.cnt = 1 ∧ stwTok (s.stw c i) ≠ 0 ∧ x.extSeen = false) → y.cnt = 0) ∧
      b.stw c i = s.stw c i ∧ Lowers c i (b.settle c i) (s.cancelRun c) := by
  obtain ⟨a, b, ha, haw, hab, hbw, hend⟩ := cancelRun_course hc hi hx
  obtain ⟨w, hw, hst, htok, hcnt, hdue⟩ := waive_stage? ha hr
  obtain ⟨y, hy, hwy⟩ := hab w hw
  rw [haw] at hdue
  exact ⟨b, y, hy, (resolved_eq_of_st (hwy.st.trans hst)).trans hr, hwy.tok htok, Nat.le_trans hwy.cnt hcnt,
    fun h => Nat.le_zero.mp (Nat.le_trans hwy.cnt (Nat.le_of_eq (hdue h))), hbw, hend⟩

/-- A stage without ROC is resolved as cancelled (R92). -/
theorem cancelRun_of_not_roc (hc : c < 256) (hi : i < 16) (hx : s.stage? c i = some x) (hr : x.resolved = false)
    (hroc : stwRoc (s.stw c i) = false) : ((s.cancelRun c).stage? c i).map StageRun.st = some .cancelled := by
  obtain ⟨b, y, hy, hyr, -, -, -, hbw, hend⟩ := cancelRun_settles hc hi hx hr
  rw [← hbw] at hroc
  obtain ⟨z, hz, hlow⟩ := hend _ (settle_stage?_of_not_roc hy hyr hroc)
  rw [hz, Option.map_some, hlow.st]

/-- A stage with ROC holds a cancel token, and one whose counter comes to 0 gets its cancel run (R93, R94). -/
theorem cancelRun_of_roc (hc : c < 256) (hi : i < 16) (hx : s.stage? c i = some x) (hr : x.resolved = false)
    (hroc : stwRoc (s.stw c i) = true) :
    ∃ z, (s.cancelRun c).stage? c i = some z ∧ z.cancelTok = true ∧ z.cnt ≤ x.cnt ∧
      (x.cnt = 0 ∨ (x.cnt = 1 ∧ stwTok (s.stw c i) ≠ 0 ∧ x.extSeen = false) →
        z.cancelRun = true ∧ (z.st = .ready ∨ z.st = .credit)) := by
  obtain ⟨b, y, hy, hyr, htok, hcnt, hdue, hbw, hend⟩ := cancelRun_settles hc hi hx hr
  rw [← hbw] at hroc
  by_cases h0 : y.cnt = 0
  · rw [settle_of_due hy hyr hroc h0] at hend
    obtain ⟨w, hw, hwcnt, hwtok, hwrun, hwst⟩ := makeReady_stage? hy
    obtain ⟨z, hz, hwz⟩ := hend w hw
    obtain rfl := hwz.fixed (.inr (hwcnt.trans h0))
    exact ⟨z, hz, hwtok.trans htok, Nat.le_trans (Nat.le_of_eq hwcnt) hcnt, fun _ => ⟨hwrun.trans htok, hwst⟩⟩
  · rw [settle_of_waiting hy hyr hroc h0] at hend
    obtain ⟨z, hz, hyz⟩ := hend y hy
    exact ⟨z, hz, hyz.tok htok, Nat.le_trans hyz.cnt hcnt, fun h => absurd (hdue h) h0⟩

end Course

theorem resolved_iff (x : StageRun) : x.resolved = true ↔
    x.st = .complete ∨ x.st = .cancelled ∨ x.st = .killed ∨ x.st = .running := by
  simp [StageRun.resolved, or_assoc]

theorem applyCtxCancel_of_none {d : Desc} {u : State} (h : u.run (bitsOf d.target 7 0) = none) (k : Option Cmd) :
    applyCtxCancel d k u = u.complete k 0x0C20 := by
  simp [applyCtxCancel, descCtx, h]

theorem applyCtxCancel_of_run {d : Desc} {u : State} (h : (u.run (bitsOf d.target 7 0)).isSome = true)
    (k : Option Cmd) : applyCtxCancel d k u = (u.cancelRun (bitsOf d.target 7 0)).complete k 0 := by
  simp [applyCtxCancel, descCtx, h]

/-- Settles O54, stage by stage. -/
theorem cancelledRunsAreResolved : Obligations.CancelledRunsAreResolved := by
  intro s d c
  have hc : c < 256 := Nat.mod_lt _ (by decide)
  refine .of_runDesc rfl rfl fun u k => ⟨fun h => applyCtxCancel_of_none h k, fun h =>
    ⟨u.cancelRun c, applyCtxCancel_of_run h k, ?_⟩⟩
  obtain ⟨hframe, hdropped, hstray, hcqs, hledger, -, hstages⟩ := stagesOnly_cancelRun u c
  refine ⟨hframe, hdropped, hstray, hcqs, hledger, fun c' i hne => hstages c' i fun hm => hne hm.1, ?_⟩
  intro i x hx gone
  refine ⟨fun hkept => ?_, fun hgone hi => ?_⟩
  · by_cases hi : i < 16
    · have hres : x.resolved = true := (resolved_iff x).mpr (hkept.resolve_right (Nat.not_le.mpr hi))
      exact cancelRun_of_resolved hc hi hx hres
    · rw [hstages c i fun hm => hi hm.2, hx]
  · have hres : x.resolved = false := eq_false_of_ne_true (mt (resolved_iff x).mp hgone)
    exact ⟨cancelRun_of_not_roc hc hi hx hres, cancelRun_of_roc hc hi hx hres⟩

end Sys2Proof.Machine

namespace Sys2Proof.Machine

/-! ## Dispatch of a stage whose drawer is resident (R76, R80, R198) -/

section Resident
variable {s t : State} {c e slot : Nat}

theorem slotOf_of_resident (h : s.resident c = some (e, slot)) : (s.eng e).slotOf c = some slot := by
  obtain ⟨e', -, he'⟩ := List.exists_of_findSome?_eq_some h
  obtain ⟨k, hk, hek⟩ := Option.map_eq_some_iff.mp he'
  cases hek
  exact hk

/-- Only words in the LDM of engine `e` change. -/
structure LdmOnly (e : Nat) (s t : State) : Prop where
  frame : t = { s with engs := t.engs }
  slots : (t.eng e).slots = (s.eng e).slots
  others : ∀ k, k ≠ e → t.eng k = s.eng k

theorem LdmOnly.refl (e : Nat) (s : State) : LdmOnly e s s := ⟨rfl, rfl, fun _ _ => rfl⟩

theorem LdmOnly.trans {u : State} (h : LdmOnly e s t) (h' : LdmOnly e t u) : LdmOnly e s u where
  frame := by
    have hu := h'.frame
    rw [h.frame] at hu
    exact hu
  slots := h'.slots.trans h.slots
  others k hk := (h'.others k hk).trans (h.others k hk)

theorem LdmOnly.eng_slots (h : LdmOnly e s t) (k : Nat) : (t.eng k).slots = (s.eng k).slots := by
  by_cases hk : k = e
  · rw [hk, h.slots]
  · rw [h.others k hk]

theorem LdmOnly.resident (h : LdmOnly e s t) (c : Nat) : t.resident c = s.resident c := by
  simp only [State.resident, Engine.slotOf, h.eng_slots]

theorem LdmOnly.stw (h : LdmOnly e s t) (c i : Nat) : t.stw c i = s.stw c i := by
  rw [h.frame]
  rfl

theorem LdmOnly.stage? (h : LdmOnly e s t) (c i : Nat) : t.stage? c i = s.stage? c i := by
  rw [h.frame]
  rfl

theorem LdmOnly.ite {u : State} {p : Prop} [Decidable p] (h : LdmOnly e s t) (h' : LdmOnly e s u) :
    LdmOnly e s (if p then t else u) := by
  split
  · exact h
  · exact h'

/-- A word of a resident drawer lies in its engine's LDM (R64). -/
theorem ldmOnly_setDrawer (h : s.resident c = some (e, slot)) (w : Nat) (v : W24) :
    LdmOnly e s (s.setDrawer c w v) := by
  simp only [State.setDrawer, h]
  exact ⟨rfl, by rw [State.setEng_eng_self], fun k hk => State.setEng_eng_ne s e _ k hk⟩

theorem ldmOnly_flagsSeen (h : s.resident c = some (e, slot)) : LdmOnly e s (s.flagsSeen c) := by
  have h1 (w : Nat) (v : W24) : LdmOnly e s (s.setDrawer c w v) := ldmOnly_setDrawer h w v
  exact .ite ((h1 _ _).trans (ldmOnly_setDrawer (((h1 _ _).resident c).trans h) _ _)) (.refl e s)

end Resident

/-- A drawer that is where its stage goes does not move (R79). -/
theorem bringDrawer_of_resident {s : State} {c e slot : Nat} (h : s.resident c = some (e, slot)) :
    s.bringDrawer c e = (s, 0, false) := by
  simp only [State.bringDrawer, h, if_true]

/-- In `t` engine `e`, with the drawer of context `c` in slot `slot`, has taken stage `i`, which stood as `x` (R76,
R80). -/
structure Started (s : State) (e c i slot : Nat) (x : StageRun) (t : State) : Prop where
  eng : ∃ (old : Engine) (r : EngRun) (epoch : Nat) (lru : List Nat),
    (r.ctx = c ∧ r.stage = i ∧ r.slot = slot ∧ r.cancelRun = x.cancelRun) ∧
      t.eng e = { old.start r (stwEntry (s.stw c i)) epoch with lru := lru }
  stage : t.stage? c i = some { x with st := .running, delivered := 0, eng := e }
  aff : (t.ctx c).aff = e
  others : ∀ e', e' ≠ e → t.eng e' = s.eng e'

/-- The dispatcher's counters and trace leave a stage started. -/
theorem Started.trans {s t u : State} {e c i slot : Nat} {x : StageRun} (h : Started s e c i slot x t)
    (h' : StagesOnly noStage t u) : Started s e c i slot x u where
  eng := by rw [h'.eng]; exact h.eng
  stage := (h'.stages c i not_noStage).trans h.stage
  aff := by rw [h'.ctx]; exact h.aff
  others e' he := (h'.eng e').trans (h.others e' he)

/-- Where the drawer is resident no word of it moves, and the dispatch starts the stage there (R76, R79). -/
theorem dispatchTo_of_resident {s : State} {e c i slot : Nat} {y : StageRun}
    (hres : s.resident c = some (e, slot)) (hrun : s.stage? c i = some y) (k : Nat) (x : StageRun) :
    Started s e c i slot x (s.dispatchTo e k c i x none) := by
  unfold State.dispatchTo
  rw [bringDrawer_of_resident hres, hres]
  extract_lets src moves ue
  rw [if_neg (by simp [moves, src])]
  dsimp -zeta only [State.draw]
  extract_lets stay seen w retired marked old owned r started engaged spilled flags
  have hseen : LdmOnly e s seen := .ite (ldmOnly_flagsSeen hres) (.refl e s)
  have hretired : StagesOnly noStage seen retired := stagesOnly_retireStage seen c i x
  have hmarked : StagesOnly (oneStage c i) seen marked :=
    (hretired.weaken).trans (stagesOnly_setStage _ _ _ _)
  have hstage : marked.stage? c i = some { x with st := .running, delivered := 0, eng := e } := by
    refine setStage_stage?_self (y := y) ?_ _
    rw [hretired.stages c i not_noStage, hseen.stage?, hrun]
  have hslot : (owned.eng e).slotOf c = some slot := by
    have heng : owned.eng e = seen.eng e := hmarked.eng e
    rw [heng, slotOf_of_resident ((hseen.resident c).trans hres)]
  have hengaged : Started s e c i slot x engaged := by
    refine ⟨⟨owned.eng e, r, owned.free, started.lru.filter (· ≠ c) ++ [c], ⟨rfl, rfl, ?_, rfl⟩, ?_⟩,
      hstage, ?_, fun e' he => ?_⟩
    · exact congrArg (Option.getD · 0) hslot
    · rw [← hseen.stw]
      exact State.setEng_eng_self _ _ _
    · exact congrArg CtxSt.aff (State.setCtx_ctx_self marked c _)
    · exact (State.setEng_eng_ne _ _ _ _ he).trans ((hmarked.eng e').trans (hseen.others e' he))
  have hspilled : StagesOnly noStage engaged spilled :=
    .ite (stagesOnly_bump _ (by decide) (by decide)) (.ite (stagesOnly_bump _ (by decide) (by decide)) (.refl _))
  exact hengaged.trans (hspilled.trans (stagesOnly_trace _ _ _ _ _ _ _ _))

/-- Settles O14. -/
theorem dispatchedStageStartsAtItsEntry : Obligations.DispatchedStageStartsAtItsEntry := by
  intro s e k c i slot x hnext hres hstage _ _ _ _
  obtain ⟨y, hy⟩ := Option.isSome_iff_exists.mp hstage
  obtain ⟨⟨old, r, epoch, lru, ⟨hctx, hst, hslot, hcancel⟩, heng⟩, hrunning, haff, hothers⟩ :=
    dispatchTo_of_resident hres hy k x
  have hexec : exec (.stageDispatch none) s = .next (s.dispatchTo e k c i x none).noteLost := by
    change execStageDispatch none s = _
    simp only [execStageDispatch, hnext]
  refine .of_next hexec ⟨_, rfl, ?_, ?_, ?_, ?_, ⟨r, ?_, hctx, hst, hslot⟩, ?_, haff, hothers⟩
  · rw [heng]
    rfl
  · simp [heng, Engine.start, hslot]
  · simp [heng, Engine.dreg, Engine.start, physD, tget_tset, hctx]
  · simp [heng, Engine.dreg, Engine.start, physD, hst, hcancel]
  · rw [heng]
    rfl
  · rw [hrunning]
    rfl

end Sys2Proof.Machine

namespace Sys2Proof.Machine

/-! ## Words of the cabinet (R4, R610) -/

theorem setCabByte_cabByte (s : State) (a : Nat) (v : Byte) (j : Nat) :
    (s.setCabByte a v).cabByte j = if j = a then v else s.cabByte j := by
  unfold State.setCabByte
  split
  · next h =>
    split
    · next hj => rw [hj, h]
    · rfl
  · simp only [State.cabByte, State.markDirty_cab, tget_tset]

theorem setCabWord_cabByte (s : State) (a : Nat) (v : W32) (j : Nat) :
    (s.setCabWord a v).cabByte j =
      if j = a + 3 then v.extractLsb' 24 8 else if j = a + 2 then v.extractLsb' 16 8
      else if j = a + 1 then v.extractLsb' 8 8 else if j = a then v.extractLsb' 0 8 else s.cabByte j := by
  simp only [State.setCabWord, setCabByte_cabByte]

/-- The four bytes of a word, the highest first, make it up. -/
theorem append_bytes (v : W32) :
    v.extractLsb' 24 8 ++ v.extractLsb' 16 8 ++ v.extractLsb' 8 8 ++ v.extractLsb' 0 8 = v := by
  rw [BitVec.extractLsb'_append_extractLsb'_eq_extractLsb' (show 24 = 16 + 8 from rfl),
    BitVec.extractLsb'_append_extractLsb'_eq_extractLsb' (show 16 = 8 + 8 from rfl),
    BitVec.extractLsb'_append_extractLsb'_eq_extractLsb' (show 8 = 0 + 8 from rfl)]
  exact BitVec.extractLsb'_eq_self

theorem setCabWord_cabWord_self (s : State) (a : Nat) (v : W32) : (s.setCabWord a v).cabWord a = v := by
  simp only [State.cabWord, setCabWord_cabByte]
  simpa using append_bytes v

theorem setCabWord_cabWord_ne (s : State) {a b : Nat} (v : W32) (h : b + 4 ≤ a ∨ a + 4 ≤ b) :
    (s.setCabWord a v).cabWord b = s.cabWord b := by
  have hbyte (i : Nat) (hi : i < 4) : (s.setCabWord a v).cabByte (b + i) = s.cabByte (b + i) := by
    rw [setCabWord_cabByte, if_neg (by omega), if_neg (by omega), if_neg (by omega), if_neg (by omega)]
  simp only [State.cabWord, hbyte 3 (by decide), hbyte 2 (by decide), hbyte 1 (by decide),
    show (s.setCabWord a v).cabByte b = s.cabByte b from hbyte 0 (by decide)]

/-- Below the recorder buffer a byte marks no page dirty (R679, R690). -/
theorem setCabByte_eq_of_lt (s : State) {a : Nat} (v : Byte) (h : a < recBase) :
    s.setCabByte a v = { s with cab := (s.setCabByte a v).cab } := by
  have hpage : recPage a = none := by simp [recPage, Nat.not_le.mpr h]
  unfold State.setCabByte
  split
  · rfl
  · simp only [State.markDirty, hpage]

theorem setCabWord_eq_of_lt (s : State) {a : Nat} (v : W32) (h : a + 3 < recBase) :
    s.setCabWord a v = { s with cab := (s.setCabWord a v).cab } := by
  unfold State.setCabWord
  rw [setCabByte_eq_of_lt _ _ h, setCabByte_eq_of_lt _ _ (Nat.lt_of_succ_lt h),
    setCabByte_eq_of_lt _ _ (show a + 1 < recBase by omega), setCabByte_eq_of_lt s _ (show a < recBase by omega)]

/-! ## Words of a drawer (R64) -/

section Drawer
variable {s t : State} {c w : Nat}

theorem slots_of_resident {e k : Nat} (h : s.resident c = some (e, k)) : tget 0 (s.eng e).slots k = c := by
  simpa using List.find?_some (slotOf_of_resident h)

theorem drawer_of_resident {e k : Nat} (h : s.resident c = some (e, k)) (x : Nat) :
    s.drawer c x = tget 0 (s.eng e).ldm (k * 1024 + x) := by
  simp only [State.drawer, h]

theorem drawer_of_home (h : s.resident c = none) (x : Nat) :
    s.drawer c x = (s.cabWord (drawerHome c x)).setWidth 24 := by
  simp only [State.drawer, h]

/-- The drawer takes writes: it is resident, or its home's bank is ON (R64, R718). -/
def State.DrawerOpen (s : State) (c : Nat) : Prop := (s.resident c).isSome = true ∨ s.isOn 7 = true

/-- Only the current copy of a context's drawer changes (R64). -/
structure DrawerOnly (c : Nat) (s t : State) : Prop where
  frame : t = { s with engs := t.engs, cab := t.cab }
  resident : ∀ k, t.resident k = s.resident k
  cab : (s.resident c).isSome = true → t.cab = s.cab
  engs : (s.resident c).isSome = false → t.engs = s.engs

theorem DrawerOnly.refl (c : Nat) (s : State) : DrawerOnly c s s :=
  ⟨rfl, fun _ => rfl, fun _ => rfl, fun _ => rfl⟩

theorem DrawerOnly.trans {u : State} (h : DrawerOnly c s t) (h' : DrawerOnly c t u) : DrawerOnly c s u where
  frame := by
    have hu := h'.frame
    rw [h.frame] at hu
    exact hu
  resident k := (h'.resident k).trans (h.resident k)
  cab hr := (h'.cab (by rwa [h.resident])).trans (h.cab hr)
  engs hr := (h'.engs (by rwa [h.resident])).trans (h.engs hr)

theorem DrawerOnly.drawerOpen (h : DrawerOnly c s t) (ho : s.DrawerOpen c) : t.DrawerOpen c := by
  have hon : t.isOn 7 = s.isOn 7 := by
    rw [h.frame]
    rfl
  rwa [State.DrawerOpen, h.resident, hon]

theorem setDrawer_of_home (hr : s.resident c = none) (ho : s.DrawerOpen c) (v : W24) :
    s.setDrawer c w v = s.setCabWord (drawerHome c w) (v.setWidth 32) := by
  have hon : s.isOn 7 = true := ho.resolve_left (by simp [hr])
  simp only [State.setDrawer, hr, hon, if_true]

/-- The homes of drawer words lie below the recorder buffer (R63, R679). -/
theorem drawerHome_lt (hc : c < 256) (hw : w < 0x400) : drawerHome c w + 3 < recBase := by
  simp only [drawerHome, recBase]
  omega

theorem drawerOnly_setDrawer (ho : s.DrawerOpen c) (hc : c < 256) (hw : w < 0x400) (v : W24) :
    DrawerOnly c s (s.setDrawer c w v) := by
  cases hr : s.resident c with
  | some p =>
    have h := ldmOnly_setDrawer (e := p.1) (slot := p.2) hr w v
    have hcab : (s.setDrawer c w v).cab = s.cab := by rw [h.frame]
    exact ⟨by rw [hcab]; exact h.frame, h.resident, fun _ => hcab, fun hn => by simp [hr] at hn⟩
  | none =>
    rw [setDrawer_of_home hr ho]
    have h := setCabWord_eq_of_lt s (v.setWidth 32) (drawerHome_lt hc hw)
    have hengs : (s.setCabWord (drawerHome c w) (v.setWidth 32)).engs = s.engs := by rw [h]
    refine ⟨by rw [hengs]; exact h, fun k => ?_, fun hn => by simp [hr] at hn, fun _ => hengs⟩
    simp only [State.resident, State.eng, hengs]

theorem setDrawer_drawer_self (ho : s.DrawerOpen c) (hc : c < 256) (hw : w < 0x400) (v : W24) :
    (s.setDrawer c w v).drawer c w = v := by
  have hres := (drawerOnly_setDrawer ho hc hw v).resident c
  cases hr : s.resident c with
  | some p =>
    rw [drawer_of_resident (hres.trans hr)]
    simp only [State.setDrawer, hr, State.setEng_eng_self, tget_tset_self]
  | none =>
    rw [drawer_of_home (hres.trans hr), setDrawer_of_home hr ho, setCabWord_cabWord_self]
    exact BitVec.setWidth_setWidth_of_le v (by decide)

/-- A write of a drawer word leaves every other word of every drawer as it was. -/
theorem setDrawer_drawer_ne (ho : s.DrawerOpen c) (hc : c < 256) (hw : w < 0x400) (v : W24) {k x : Nat}
    (hx : x < 0x400) (h : k ≠ c ∨ x ≠ w) : (s.setDrawer c w v).drawer k x = s.drawer k x := by
  have honly := drawerOnly_setDrawer ho hc hw v
  cases hk : s.resident k with
  | none =>
    rw [drawer_of_home ((honly.resident k).trans hk), drawer_of_home hk]
    cases hr : s.resident c with
    | some p => simp only [State.cabWord, State.cabByte, honly.cab (by simp [hr])]
    | none =>
      rw [setDrawer_of_home hr ho, setCabWord_cabWord_ne]
      simp only [drawerHome]
      omega
  | some q =>
    rw [drawer_of_resident ((honly.resident k).trans hk), drawer_of_resident hk]
    cases hr : s.resident c with
    | none => simp only [State.eng, honly.engs (by simp [hr])]
    | some p =>
      by_cases he : q.1 = p.1
      · have hslot : k ≠ c → q.2 ≠ p.2 := fun hne hpq =>
          hne (by rw [← slots_of_resident hk, ← slots_of_resident hr, he, hpq])
        simp only [State.setDrawer, hr, he, State.setEng_eng_self]
        exact tget_tset_ne _ _ _ (by omega)
      · rw [(ldmOnly_setDrawer hr w v).others _ he]

/-! ### A list of words -/

/-- Words of a context's drawer written in the order of a list. -/
def State.setDrawers (s : State) (c : Nat) (l : List (Nat × W24)) : State :=
  l.foldl (fun u p => u.setDrawer c p.1 p.2) s

variable {l : List (Nat × W24)}

theorem drawerOnly_setDrawers (ho : s.DrawerOpen c) (hc : c < 256) (hl : ∀ p ∈ l, p.1 < 0x400) :
    DrawerOnly c s (s.setDrawers c l) := by
  induction l generalizing s with
  | nil => exact .refl c s
  | cons p l ih =>
    have h := drawerOnly_setDrawer ho hc (hl p List.mem_cons_self) p.2
    exact h.trans (ih (h.drawerOpen ho) fun q hq => hl q (List.mem_cons_of_mem p hq))

theorem setDrawers_drawer_of_ne (ho : s.DrawerOpen c) (hc : c < 256) (hl : ∀ p ∈ l, p.1 < 0x400) {k x : Nat}
    (hx : x < 0x400) (h : k ≠ c ∨ ∀ p ∈ l, p.1 ≠ x) : (s.setDrawers c l).drawer k x = s.drawer k x := by
  induction l generalizing s with
  | nil => rfl
  | cons p l ih =>
    have hp := hl p List.mem_cons_self
    have hrest := ih ((drawerOnly_setDrawer ho hc hp p.2).drawerOpen ho)
      (fun q hq => hl q (List.mem_cons_of_mem p hq)) (h.imp_right fun h q hq => h q (List.mem_cons_of_mem p hq))
    exact hrest.trans (setDrawer_drawer_ne ho hc hp p.2 hx (h.imp_right fun h => (h p List.mem_cons_self).symm))

/-- A word that the list writes with one value only reads that value. -/
theorem setDrawers_drawer_of_mem (ho : s.DrawerOpen c) (hc : c < 256) (hl : ∀ p ∈ l, p.1 < 0x400) {x : Nat}
    {v : W24} (hmem : (x, v) ∈ l) (hone : ∀ p ∈ l, p.1 = x → p.2 = v) : (s.setDrawers c l).drawer c x = v := by
  induction l generalizing s with
  | nil => cases hmem
  | cons p l ih =>
    have hp := hl p List.mem_cons_self
    have hl' : ∀ q ∈ l, q.1 < 0x400 := fun q hq => hl q (List.mem_cons_of_mem p hq)
    have hone' : ∀ q ∈ l, q.1 = x → q.2 = v := fun q hq => hone q (List.mem_cons_of_mem p hq)
    have ho' := (drawerOnly_setDrawer ho hc hp p.2).drawerOpen ho
    by_cases hlater : (x, v) ∈ l
    · exact ih ho' hl' hlater hone'
    · obtain rfl : (x, v) = p := (List.mem_cons.mp hmem).resolve_right hlater
      have hlast : ∀ q ∈ l, q.1 ≠ x := fun q hq hqx =>
        hlater (by rwa [← hqx, ← hone' q hq hqx])
      exact (setDrawers_drawer_of_ne ho' hc hl' hp (.inr hlast)).trans (setDrawer_drawer_self ho hc hp v)

end Drawer

end Sys2Proof.Machine

namespace Sys2Proof.Machine

/-! ## Words in a payload (R4, R629, R640) -/

/-- A payload that names a word. -/
theorem wordPay_fields {w : Nat} (hw : w < 65536) :
    bitsOf (wordPay w) 15 0 = w ∧ bitsOf (wordPay w) 127 16 = 0 := by
  have h : (wordPay w).toNat = w := by
    rw [wordPay, payOf_toNat (by simp [length_leBytes]), leNum_leBytes, Nat.mod_eq_of_lt (show w < 256 ^ 2 from hw)]
  simp only [bitsOf, h, Nat.shiftRight_eq_div_pow]
  omega

/-- Of words of three bytes each, the `i`th lies at byte `3 i`. -/
theorem leNum_words (l : List W24) (i : Nat) :
    leNum ((l.flatMap fun v => leBytes 3 v.toNat).map (· % 256)) / 2 ^ (24 * i) % 2 ^ 24 = (l.getD i 0).toNat := by
  induction l generalizing i with
  | nil => simp [leNum]
  | cons v l ih =>
    have hv : v.toNat < 2 ^ 24 := v.isLt
    rw [List.flatMap_cons, List.map_append, leNum_append, leNum_leBytes, List.length_map, length_leBytes]
    generalize leNum ((l.flatMap fun v => leBytes 3 v.toNat).map (· % 256)) = r at ih
    cases i with
    | zero =>
      rw [List.getD_cons_zero]
      omega
    | succ i =>
      rw [List.getD_cons_succ, ← ih, show 24 * (i + 1) = 24 + 24 * i by omega, Nat.pow_add, ← Nat.div_div_eq_div_mul]
      congr 2
      omega

/-- Up to five words of three bytes each make a payload. -/
theorem bitsOf_payOf_words {n i : Nat} (f : Nat → W24) (hn : n ≤ 5) (hi : i < n) :
    bitsOf (payOf ((List.range n).flatMap fun i => leBytes 3 (f i).toNat)) (24 * i + 23) (24 * i) = (f i).toNat := by
  have hl : (List.range n).flatMap (fun i => leBytes 3 (f i).toNat) =
      ((List.range n).map f).flatMap fun v => leBytes 3 v.toNat := by rw [List.flatMap_map]
  have hlen : ((List.range n).flatMap fun i => leBytes 3 (f i).toNat).length ≤ 16 := by
    simp only [List.length_flatMap, length_leBytes, List.map_const', List.length_range, List.sum_replicate_nat]
    omega
  rw [bitsOf, payOf_toNat hlen, Nat.shiftRight_eq_div_pow, show 24 * i + 23 + 1 - 24 * i = 24 by omega, hl, leNum_words]
  simp [List.getD_eq_getElem?_getD, hi]

/-! ## PARAM_WRITE (R199, R200, R223, R554, R641) -/

section ParamWrite
variable {s : State} {c w n prof x i : Nat} {f : Nat → W24}

/-- The word that a drawer of a profile keeps of a value: a library drawer's reserved bits read 0 (R2). -/
def keptWord (prof x : Nat) (v : W24) : W24 := v &&& (if prof ≤ 2 then wordMask x else 0xFFFFFF)

/-- What one word of a PARAM_WRITE writes: itself, and N3's F with ADAPT_F0 (R223). -/
def paramWord (prof : Nat) (p : Nat × W24) : List (Nat × W24) :=
  (p.1, keptWord prof p.1 p.2) ::
    if prof = 2 ∧ p.1 = 0x143 then [(0x131, keptWord prof p.1 p.2)] else []

/-- What a PARAM_WRITE of `n` values from word `w` writes, in its order. -/
def paramWords (prof w n : Nat) (f : Nat → W24) : List (Nat × W24) :=
  (List.range n).flatMap fun i => paramWord prof (w + i, f i)

theorem mem_paramWords {p : Nat × W24} : p ∈ paramWords prof w n f ↔
    ∃ i < n, p = (w + i, keptWord prof (w + i) (f i)) ∨
      (prof = 2 ∧ w + i = 0x143) ∧ p = (0x131, keptWord prof (w + i) (f i)) := by
  simp only [paramWords, paramWord, List.mem_flatMap, List.mem_range, List.mem_cons, List.mem_ite_nil_right,
    List.not_mem_nil, or_false]

theorem keptWord_eq (prof x : Nat) (v : W24) : keptWord prof x v = if prof ≤ 2 then v &&& wordMask x else v := by
  unfold keptWord
  split
  · rfl
  · exact BitVec.and_allOnes

/-- The model's step for one word of a PARAM_WRITE, which writes the words of `paramWord`. -/
theorem setDrawers_paramWord (s : State) (c prof : Nat) (p : Nat × W24) : s.setDrawers c (paramWord prof p) =
    (let v := if prof ≤ 2 then p.2 &&& wordMask p.1 else p.2
     let t := s.setDrawer c p.1 v
     if prof = 2 && p.1 = 0x143 then t.setDrawer c 0x131 v else t) := by
  simp only [← keptWord_eq, Bool.and_eq_true, decide_eq_true_eq, paramWord, State.setDrawers]
  split <;> rfl

theorem foldl_paramWords (s : State) (c prof w n : Nat) (f : Nat → W24) :
    (((List.range n).map (w + ·)).zip ((List.range n).map f)).foldl
      (fun t p => t.setDrawers c (paramWord prof p)) s = s.setDrawers c (paramWords prof w n f) := by
  rw [List.zip_map', List.foldl_map, paramWords, State.setDrawers, List.foldl_flatMap]
  rfl

/-- The words that a standby notes (R554). -/
def notedWords (prof w n : Nat) : List Nat :=
  let ws := (List.range n).map (w + ·)
  if prof = 2 ∧ 0x143 ∈ ws then ws ++ [0x131] else ws

theorem mem_notedWords (hi : i < n) : w + i ∈ notedWords prof w n := by
  have h : w + i ∈ (List.range n).map (w + ·) := List.mem_map_of_mem (List.mem_range.mpr hi)
  unfold notedWords
  extract_lets ws
  split
  · exact List.mem_append_left _ h
  · exact h

/-- A PARAM_WRITE whose words are legal and in range. -/
def State.writeParams (s : State) (c w n : Nat) (f : Nat → W24) : State :=
  (s.setDrawers c (paramWords (s.prof c) w n f)).noteWritten c (notedWords (s.prof c) w n)

theorem noteWritten_eq (s : State) (c : Nat) (ws : List Nat) :
    s.noteWritten c ws = { s with twin.written := (s.noteWritten c ws).twin.written } := by
  unfold State.noteWritten
  split <;> rfl

theorem noteWritten_of_not_standby (h : s.twin.st ≠ .standby) (ws : List Nat) : s.noteWritten c ws = s := if_neg h

theorem mem_noteWritten (h : s.twin.st = .standby) {ws : List Nat} (hx : x ∈ ws) :
    c * 1024 + x ∈ (s.noteWritten c ws).twin.written := by
  simp only [State.noteWritten, h, if_true, List.mem_append, List.mem_filter, decide_eq_true_eq]
  by_cases hm : c * 1024 + x ∈ s.twin.written
  · exact .inl hm
  · exact .inr ⟨List.mem_map_of_mem hx, hm⟩

theorem noteWritten_drawer (s : State) (c : Nat) (ws : List Nat) (k x : Nat) :
    (s.noteWritten c ws).drawer k x = s.drawer k x := by
  rw [noteWritten_eq]
  rfl

/-- ADAPT_F0 and N3's F are more than sixteen words apart, so that a word is written once. -/
theorem paramWords_unique (hn : n ≤ 16) (hi : i < n) {p : Nat × W24} (hp : p ∈ paramWords prof w n f)
    (hx : p.1 = w + i) : p.2 = keptWord prof (w + i) (f i) := by
  obtain ⟨j, hj, rfl | ⟨⟨-, h143⟩, rfl⟩⟩ := mem_paramWords.mp hp
  · obtain rfl : j = i := Nat.add_left_cancel hx
    rfl
  · simp only at hx
    omega

section Written
variable (ho : s.DrawerOpen c) (hc : c < 256) (hn : n ≤ 16) (hw : w + n ≤ 0x400) (f : Nat → W24)
include hw

theorem paramWords_lt : ∀ p ∈ paramWords prof w n f, p.1 < 0x400 := by
  intro p hp
  obtain ⟨j, hj, rfl | ⟨-, rfl⟩⟩ := mem_paramWords.mp hp
  · exact Nat.lt_of_lt_of_le (Nat.add_lt_add_left hj w) hw
  · exact (by decide : 0x131 < 0x400)

include ho hc

theorem drawerOnly_paramWords : DrawerOnly c s (s.setDrawers c (paramWords (s.prof c) w n f)) :=
  drawerOnly_setDrawers ho hc (paramWords_lt hw f)

theorem setDrawers_paramWords_twin : (s.setDrawers c (paramWords (s.prof c) w n f)).twin = s.twin := by
  rw [(drawerOnly_paramWords ho hc hw f).frame]

theorem writeParams_twin : (s.writeParams c w n f).twin =
    { s.twin with written := (s.writeParams c w n f).twin.written } := by
  have h := noteWritten_eq (s.setDrawers c (paramWords (s.prof c) w n f)) c (notedWords (s.prof c) w n)
  exact (congrArg State.twin h).trans (by rw [setDrawers_paramWords_twin ho hc hw f]; rfl)

theorem writeParams_frame : s.writeParams c w n f =
    { s with engs := (s.writeParams c w n f).engs, cab := (s.writeParams c w n f).cab
             twin := (s.writeParams c w n f).twin } := by
  have h := noteWritten_eq (s.setDrawers c (paramWords (s.prof c) w n f)) c (notedWords (s.prof c) w n)
  have hf := (drawerOnly_paramWords ho hc hw f).frame
  unfold State.writeParams
  generalize (s.setDrawers c (paramWords (s.prof c) w n f)).noteWritten c (notedWords (s.prof c) w n) = v at h ⊢
  rw [hf] at h
  rw [h]

theorem writeParams_engs (hr : (s.resident c).isSome = false) : (s.writeParams c w n f).engs = s.engs := by
  rw [State.writeParams, noteWritten_eq]
  exact (drawerOnly_paramWords ho hc hw f).engs hr

theorem writeParams_cab (hr : (s.resident c).isSome = true) : (s.writeParams c w n f).cab = s.cab := by
  rw [State.writeParams, noteWritten_eq]
  exact (drawerOnly_paramWords ho hc hw f).cab hr

theorem writeParams_written_eq (ht : s.twin.st ≠ .standby) :
    (s.writeParams c w n f).twin.written = s.twin.written := by
  have h := setDrawers_paramWords_twin ho hc hw f
  rw [State.writeParams, noteWritten_of_not_standby (by rwa [h]), h]

theorem mem_writeParams_written (ht : s.twin.st = .standby) (hi : i < n) :
    c * 1024 + (w + i) ∈ (s.writeParams c w n f).twin.written := by
  have h := setDrawers_paramWords_twin ho hc hw f
  exact mem_noteWritten (by rwa [h]) (mem_notedWords hi)

/-- A word that no word of the payload reaches stays as it was. -/
theorem writeParams_drawer_of_ne {k : Nat} (hx : x < 0x400)
    (h : k ≠ c ∨ (x < w ∨ w + n ≤ x) ∧ (x = 0x131 → s.prof c = 2 → 0x143 < w ∨ w + n ≤ 0x143)) :
    (s.writeParams c w n f).drawer k x = s.drawer k x := by
  rw [State.writeParams, noteWritten_drawer]
  refine setDrawers_drawer_of_ne ho hc (paramWords_lt hw f) hx (h.imp_right ?_)
  rintro ⟨hout, hmoved⟩ p hp rfl
  obtain ⟨j, hj, rfl | ⟨⟨hprof, h143⟩, rfl⟩⟩ := mem_paramWords.mp hp
  · simp only at hout
    omega
  · have := hmoved rfl hprof
    omega

include hn

theorem writeParams_drawer_of_lt (hi : i < n) :
    (s.writeParams c w n f).drawer c (w + i) = keptWord (s.prof c) (w + i) (f i) := by
  rw [State.writeParams, noteWritten_drawer]
  exact setDrawers_drawer_of_mem ho hc (paramWords_lt hw f) (mem_paramWords.mpr ⟨i, hi, .inl rfl⟩)
    fun p hp hx => paramWords_unique hn hi hp hx

/-- A write of ADAPT_F0 moves N3 (R223). -/
theorem writeParams_n3 (hprof : s.prof c = 2) (hlo : w ≤ 0x143) (hhi : 0x143 < w + n) :
    (s.writeParams c w n f).drawer c 0x131 = (s.writeParams c w n f).drawer c 0x143 := by
  obtain ⟨i, hwi⟩ : ∃ i, w + i = 0x143 := ⟨0x143 - w, by omega⟩
  have hi : i < n := by omega
  rw [← hwi, writeParams_drawer_of_lt ho hc hn hw f hi, State.writeParams, noteWritten_drawer]
  refine setDrawers_drawer_of_mem ho hc (paramWords_lt hw f)
    (mem_paramWords.mpr ⟨i, hi, .inr ⟨⟨hprof, hwi⟩, rfl⟩⟩) fun p hp hx => ?_
  obtain ⟨j, hj, rfl | ⟨⟨-, h143⟩, rfl⟩⟩ := mem_paramWords.mp hp
  · simp only at hx
    omega
  · obtain rfl : j = i := by omega
    rfl

theorem writeParams_drawer_n3 (hprof : s.prof c = 2) (hout : w + n ≤ 0x131 ∨ 0x131 < w) :
    (s.writeParams c w n f).drawer c 0x131 =
      if w ≤ 0x143 ∧ 0x143 < w + n then (s.writeParams c w n f).drawer c 0x143 else s.drawer c 0x131 := by
  split
  · next hin => exact writeParams_n3 ho hc hn hw f hprof hin.1 hin.2
  · exact writeParams_drawer_of_ne ho hc hw f (by decide) (.inr ⟨by omega, fun _ _ => by omega⟩)

end Written
end ParamWrite

/-! ### Words out of range (R200) -/

theorem mem_insertBy {α : Type} {key : α → Nat} {a x : α} {l : List α} :
    x ∈ insertBy key a l ↔ x = a ∨ x ∈ l := by
  induction l with
  | nil => exact List.mem_singleton.trans (by simp)
  | cons b l ih =>
    unfold insertBy
    split
    · exact List.mem_cons
    · rw [List.mem_cons, ih, List.mem_cons, or_left_comm]

theorem mem_foldl_insertBy {α : Type} {key : α → Nat} {x : α} {l acc : List α} :
    x ∈ l.foldl (fun acc a => insertBy key a acc) acc ↔ x ∈ l ∨ x ∈ acc := by
  induction l generalizing acc with
  | nil => simp
  | cons b l ih => rw [List.foldl_cons, ih, mem_insertBy, List.mem_cons, or_assoc, or_left_comm]

theorem mem_sortBy {α : Type} {key : α → Nat} {x : α} {l : List α} : x ∈ sortBy key l ↔ x ∈ l := by
  rw [sortBy, mem_foldl_insertBy]
  simp

theorem forall_mem_ite {p : Prop} [Decidable p] {l m : List Nat} {P : Nat → Prop} (hl : p → ∀ x ∈ l, P x)
    (hm : ∀ x ∈ m, P x) : ∀ x ∈ if p then l else m, P x := by
  split
  · next h => exact hl h
  · exact hm

theorem boundOf_lt (w : Nat) : ∀ x ∈ boundOf w, x < 0x400 := by
  unfold boundOf
  iterate 9 refine forall_mem_ite (fun _ => by decide) ?_
  refine forall_mem_ite (fun h x hx => ?_) fun x hx => absurd hx List.not_mem_nil
  simp only [Bool.and_eq_true, decide_eq_true_eq] at h
  rw [List.mem_singleton.mp hx]
  omega

/-- The words that a descriptor would leave out of range lie in the drawer. -/
theorem NewDrw.bad_lt {a : NewDrw} (ha : a.word + a.vals.length ≤ 0x400) {x : Nat} (h : x ∈ a.bad) : x < 0x400 := by
  rcases List.mem_append.mp (mem_sortBy.mp h) with hown | hcross
  · obtain ⟨i, hi, rfl⟩ := List.mem_map.mp (List.mem_filter.mp hown).1
    have := List.mem_range.mp hi
    omega
  · obtain ⟨w, -, hw⟩ := List.mem_flatMap.mp (List.mem_filter.mp hcross).1
    exact boundOf_lt w x hw

/-! ### The descriptors, case by case -/

section Descriptor
variable {d : Desc} {u : State} {c w n x : Nat}
  (hc : bitsOf d.target 7 0 = c) (hw : bitsOf d.aux 9 0 = w) (hn : bitsOf d.aux 14 10 = n) (k : Option Cmd)

/-- The value of a payload word (R641). -/
def paramVal (d : Desc) (i : Nat) : W24 := BitVec.ofNat 24 (d.le (16 + 3 * i) 3)

theorem find?_illegal {prof : Nat} (hlo : w ≤ x) (hhi : x < w + n) (hx : ¬ hostWord prof x = true)
    (hmin : ∀ y, w ≤ y → y < x → hostWord prof y = true) :
    ((List.range n).map (w + ·)).find? (fun y => !hostWord prof y) = some x := by
  obtain ⟨i, rfl⟩ := Nat.exists_eq_add_of_le hlo
  rw [List.find?_map, Option.map_eq_some_iff]
  refine ⟨i, List.find?_range_eq_some.mpr ⟨?_, ?_, fun j hj => ?_⟩, rfl⟩
  · simpa using hx
  · exact List.mem_range.mpr (Nat.lt_of_add_lt_add_left hhi)
  · simpa using hmin (w + j) (Nat.le_add_right w j) (Nat.add_lt_add_left hj w)

theorem find?_illegal_eq_none {prof : Nat} (h : ∀ y, w ≤ y → y < w + n → hostWord prof y = true) :
    ((List.range n).map (w + ·)).find? (fun y => !hostWord prof y) = none := by
  refine List.find?_eq_none.mpr fun y hy => ?_
  obtain ⟨i, hi, rfl⟩ := List.mem_map.mp hy
  simpa using h (w + i) (Nat.le_add_right w i) (Nat.add_lt_add_left (List.mem_range.mp hi) w)

/-- The words of a PARAM_WRITE that would stand out of range (R200); only a library drawer has ranges. -/
def badParams (d : Desc) (u : State) (c w n : Nat) : List Nat :=
  if u.prof c ≤ 2 then (NewDrw.mk u c w ((List.range n).map (paramVal d))).bad else []

theorem badParams_eq_nil (h : 3 ≤ u.prof c ∨ (NewDrw.mk u c w ((List.range n).map (paramVal d))).bad = []) :
    badParams d u c w n = [] := by
  unfold badParams
  split
  · next hp => exact h.resolve_left (Nat.not_le.mpr (Nat.lt_succ_of_le hp))
  · rfl

/-- COUNT lies in 1 to its limit. -/
theorem count_fits {m : Nat} (h1 : 1 ≤ n) (hm : n ≤ m) : ¬ (decide (n = 0) || decide (m < n)) = true := by
  simp only [Bool.or_eq_true, decide_eq_true_eq]
  omega

include hw hn

theorem applyParamWrite_of_count (h : n = 0 ∨ 16 < n) : applyParamWrite d k u = u.complete k 0x0104 (wordPay w) := by
  simp only [applyParamWrite, hw, hn]
  exact if_pos (by simpa using h)

theorem applyParamWrite_of_past (h1 : 1 ≤ n) (h16 : n ≤ 16) (h : 0x400 < w + n) :
    applyParamWrite d k u = u.complete k 0x0105 (wordPay 0x400) := by
  simp only [applyParamWrite, hw, hn]
  rw [if_neg (count_fits h1 h16), if_pos h]

theorem applyParamRead_of_count (h : n = 0 ∨ 5 < n) : applyParamRead d k u = u.complete k 0x0104 (wordPay w) := by
  simp only [applyParamRead, hw, hn]
  exact if_pos (by simpa using h)

theorem applyParamRead_of_past (h1 : 1 ≤ n) (h5 : n ≤ 5) (h : 0x400 < w + n) :
    applyParamRead d k u = u.complete k 0x0105 (wordPay 0x400) := by
  simp only [applyParamRead, hw, hn]
  rw [if_neg (count_fits h1 h5), if_pos h]

include hc

theorem applyParamRead_of_fits (h1 : 1 ≤ n) (h5 : n ≤ 5) (h : w + n ≤ 0x400) : applyParamRead d k u =
    u.complete k 0 (payOf ((List.range n).flatMap fun i => leBytes 3 (u.drawerSeen c (w + i)).toNat)) := by
  simp only [applyParamRead, hc, hw, hn]
  rw [if_neg (count_fits h1 h5), if_neg (by omega)]

theorem applyParamWrite_of_illegal (h1 : 1 ≤ n) (h16 : n ≤ 16) (h : w + n ≤ 0x400)
    (hx : ((List.range n).map (w + ·)).find? (fun y => !hostWord (u.prof c) y) = some x) :
    applyParamWrite d k u = u.complete k 0x0105 (wordPay x) := by
  simp only [applyParamWrite, hc, hw, hn, hx]
  rw [if_neg (count_fits h1 h16), if_neg (by omega)]

theorem applyParamWrite_of_bad (h1 : 1 ≤ n) (h16 : n ≤ 16) (h : w + n ≤ 0x400)
    (hlegal : ((List.range n).map (w + ·)).find? (fun y => !hostWord (u.prof c) y) = none) {xs : List Nat}
    (hbad : badParams d u c w n = x :: xs) : applyParamWrite d k u = u.complete k 0x0104 (wordPay x) := by
  simp only [applyParamWrite, hc, hw, hn, hlegal]
  rw [if_neg (count_fits h1 h16), if_neg (by omega)]
  split
  · next y ys hy =>
    obtain ⟨rfl, -⟩ := List.cons.inj ((show badParams d u c w n = _ from hy).symm.trans hbad)
    rfl
  · next hy => cases (show badParams d u c w n = _ from hy).symm.trans hbad

theorem applyParamWrite_of_legal (h1 : 1 ≤ n) (h16 : n ≤ 16) (h : w + n ≤ 0x400)
    (hlegal : ((List.range n).map (w + ·)).find? (fun y => !hostWord (u.prof c) y) = none)
    (hbad : badParams d u c w n = []) : applyParamWrite d k u = (u.writeParams c w n (paramVal d)).complete k 0 := by
  simp only [applyParamWrite, hc, hw, hn, hlegal]
  rw [if_neg (count_fits h1 h16), if_neg (by omega)]
  split
  · next y ys hy => cases hbad.symm.trans (show badParams d u c w n = _ from hy)
  · rw [State.writeParams, ← foldl_paramWords, notedWords]
    simp only [setDrawers_paramWord, Bool.and_eq_true, decide_eq_true_eq]
    rfl

end Descriptor

/-! ### What PARAM_READ reads, and what the host writes (R196, R222) -/

theorem drawerSeen_eq_drawer {u : State} {c x : Nat} (h : libStateWord x = false ∨ u.libDraw c = none) :
    u.drawerSeen c x = u.drawer c x := by
  unfold State.drawerSeen
  split
  · next e he =>
    have hx : libStateWord x = false := h.resolve_right (by simp [he])
    simp [hx]
  · rfl

theorem hostWord_user {prof : Nat} (h : prof = 3 ∨ prof = 6) (x : Nat) : hostWord prof x = true ↔ x < 0x3E0 := by
  rcases h with rfl | rfl <;> exact decide_eq_true_iff

/-- A library drawer's words that the host writes are its parameters (R196). -/
theorem hostWord_library {prof x : Nat} (hp : prof ≤ 2) (h : hostWord prof x = true) : 0x080 ≤ x ∧ x < 0x31A := by
  have hn : (if prof = 1 then 2 else if prof = 2 then 3 else 0) ≤ 3 := by
    split
    · decide
    · split <;> decide
  simp only [hostWord, hp, if_true, libHostWord, Bool.or_eq_true, Bool.and_eq_true, decide_eq_true_eq] at h
  generalize (if prof = 1 then 2 else if prof = 2 then 3 else 0) = notches at h hn
  omega

/-- Settles O52, by the cases of `applyParamWrite` and `applyParamRead`. -/
theorem parametersReadAndWriteOnlyTheirWords : Obligations.ParametersReadAndWriteOnlyTheirWords := by
  intro s d c w n names
  have hc : c < 256 := Nat.mod_lt _ (by decide)
  have hw : w < 1024 := Nat.mod_lt _ (by decide)
  have hnames (x : Nat) (hx : x ≤ 0x400) : names (wordPay x) x := wordPay_fields (Nat.lt_of_le_of_lt hx (by decide))
  refine ⟨.of_runDesc rfl rfl fun _ _ => rfl, .of_runDesc rfl rfl fun u k => ?_, .of_runDesc rfl rfl fun u k => ?_,
    fun x => ⟨hostWord_user (.inl rfl) x, hostWord_user (.inr rfl) x, rfl, rfl, fun _ => hostWord_library⟩⟩
  · refine ⟨fun h => ⟨_, hnames w (Nat.le_of_lt hw), applyParamWrite_of_count rfl rfl k h⟩, fun h1 h16 =>
      ⟨fun h => ⟨_, hnames _ (Nat.le_refl _), applyParamWrite_of_past rfl rfl k h1 h16 h⟩, fun h => ⟨?_, fun hlegal => ?_⟩⟩⟩
    · intro x hlo hhi hx hmin
      exact ⟨_, hnames x (by omega),
        applyParamWrite_of_illegal rfl rfl rfl k h1 h16 h (find?_illegal hlo hhi hx hmin)⟩
    · have hall := find?_illegal_eq_none hlegal
      refine ⟨fun hprof x xs hbad => ?_, fun hbad ho => ?_⟩
      · have hx : x < 0x400 := NewDrw.bad_lt (a := ⟨u, c, w, (List.range n).map (paramVal d)⟩) (by simpa using h)
          (hbad ▸ List.mem_cons_self)
        exact ⟨_, hnames x (Nat.le_of_lt hx),
          applyParamWrite_of_bad rfl rfl rfl k h1 h16 h hall ((if_pos hprof).trans hbad)⟩
      · have hother (x : Nat) (hx : x < 0x400) (hout : x < w ∨ w + n ≤ x) (hn3 : x ≠ 0x131 ∨ u.prof c ≠ 2) :=
          writeParams_drawer_of_ne (k := c) ho hc h (paramVal d) hx
            (.inr ⟨hout, fun h131 hprof => absurd hprof (hn3.resolve_left (absurd h131))⟩)
        exact ⟨u.writeParams c w n (paramVal d),
          applyParamWrite_of_legal rfl rfl rfl k h1 h16 h hall (badParams_eq_nil hbad),
          writeParams_frame ho hc h _, writeParams_twin ho hc h _, writeParams_written_eq ho hc h _,
          fun ht _ => mem_writeParams_written ho hc h _ ht, writeParams_cab ho hc h _, writeParams_engs ho hc h _,
          fun _ => writeParams_drawer_of_lt ho hc h16 h _, hother, writeParams_drawer_n3 ho hc h16 h _,
          fun c' x hne hx => writeParams_drawer_of_ne ho hc h _ hx (.inl hne)⟩
  · refine ⟨fun h => ⟨_, hnames w (Nat.le_of_lt hw), applyParamRead_of_count rfl rfl k h⟩,
      fun h1 h5 h => ⟨_, hnames _ (Nat.le_refl _), applyParamRead_of_past rfl rfl k h1 h5 h⟩,
      fun h1 h5 h => ⟨_, applyParamRead_of_fits rfl rfl rfl k h1 h5 h, fun i hi =>
        ⟨bitsOf_payOf_words (fun i => u.drawerSeen c (w + i)) h5 hi, drawerSeen_eq_drawer⟩⟩⟩

end Sys2Proof.Machine
